-- ==== Sys2Proof/Word.lean ====
section
/-!
DEFINITION. Word.lean: the plain types that every other file speaks of: the widths the spec treats as bits,
and the shape of a sparse table. No meaning of an instruction stands here.
-/

namespace Sys2Proof

/-- A scalar register's value (spec/10 R205). -/
abbrev Word := BitVec 64

/-- A vector register's value, and the data of one beat (spec/10 R205, spec/02 R34). -/
abbrev Vec := BitVec 512

/-- The smallest addressable unit of memory. -/
abbrev Byte := BitVec 8

/-- A parcel of the instruction store (spec/09 R178). -/
abbrev Parcel := BitVec 16

/-- A sparse table: keys in rising order, each key once. What an unlisted key reads as is said where it is read. -/
abbrev SMap (α : Type) := List (Nat × α)

/-- Index of a scalar register s0 to s63 (spec/09 R188). -/
abbrev SReg := BitVec 6
/-- Index of a vector register v0 to v31. -/
abbrev VReg := BitVec 5
/-- Index of a predicate p0 to p3. -/
abbrev PReg := BitVec 2
/-- Index of a lane mask m0 to m7. -/
abbrev MReg := BitVec 3
/-- Index of an accumulator a0 to a3. -/
abbrev AReg := BitVec 2
/-- Index of an entry of the tile's channel table (spec/09 R190). -/
abbrev Chan := BitVec 6

end Sys2Proof
end

