-- ==== Sys2Proof/Config.lean ====
section
/-!
DEFINITION. Config.lean: the free values of the model (no body: nothing can evaluate them), and the numbers
the spec fixes for the part.
-/

namespace Sys2Proof.Config

/-- Scalar register `r` of an activation whose registers are undefined (spec/00 R8, spec/02 R50, R52): a free
value of the register and of the start or resume (its epoch). UNVERIFIED value; log entry 5. -/
opaque freeWord : (epoch r : Nat) → Word

/-- Vector register `r`, undefined as above. Log entry 5. -/
opaque freeVec : (epoch r : Nat) → Vec

/-- Predicate `r`, undefined as above. Log entry 5. -/
opaque freePred : (epoch r : Nat) → Bool

/-- Mask register `r`, undefined as above. Log entry 5. -/
opaque freeMask : (epoch r : Nat) → Word

/-- Whether a subgraph, by its number, is the one that decodes CB2 (spec/01 R17, spec/18 R360): no field says which. Log entry 9. -/
opaque cb2Subgraph : (sub : Nat) → Bool

/-- A byte that a copy's subgraph makes (spec/17 R342, spec/18 R361 SUBV), where it is not the decode of CB2: the spec gives the operators
of a subgraph no wiring to a streamer's stream. A free value of the subgraph, of a plain counter and of the byte's place. Log entry 9. -/
opaque subgraphByte : (sub n at_ : Nat) → Byte

/-- Whether a stripe of a message from a peer is its last, where the padding of its last fragment does not show it: no field of a
fragment says so (spec/08 R163, R165). Log entry 16. -/
opaque lastStripe : (src cls id stripe : Nat) → Bool

/-- The beat of a memory request without data, or of a report: the spec lays no such packet out (spec/08 R162). A free value of the
message's number. Log entry 78. -/
opaque requestBeat : (num : Nat) → Vec

/-- A data fragment that the parity fragments present do not determine (spec/08 R162, R172). Log entry 17. -/
opaque lostFragment : (id index : Nat) → Vec

/-- Bytes of a partition's save area, whose layout is not visible to programs (spec/21 R429): they open the body of a fault dump
(spec/21 R430). Log entry 10. -/
opaque saveBytes : Nat

/-- One byte of a save area in a fault dump. Log entry 10. -/
opaque saveByte : (part off : Nat) → Byte

/-- Tiles of the device (spec/01 R13). -/
def tiles : Nat := 2048
/-- Frames of a tile's frame cache (spec/14 R282). -/
def frames : Nat := 128
/-- Bytes of a tile's TS space (spec/14 R284). -/
def tileSpace : Nat := 0x80000
/-- First TS offset of the data half (spec/14 R282). -/
def dataHalf : Nat := 0x40000
/-- Bytes of a frame (spec/02 R39). -/
def frameSize : Nat := 0x800
/-- Largest handler budget (spec/02 R53). -/
def maxBudget : Nat := 8192
/-- Entries of a region's replay buffer for each of its cores (spec/05 R106). -/
def replayPerCore : Nat := 256
/-- Wait entries of a scratchpad (spec/15 R307). -/
def waitEntries : Nat := 512
/-- Sequence wait entries of a home (spec/20 R404). -/
def seqWaitEntries : Nat := 256
/-- Beats of a tile's assembly pool (spec/16 R316). -/
def poolBeats : Nat := 256

end Sys2Proof.Config
end

