-- ==== Sys2Proof/Syntax.lean ====
section
/-!
DEFINITION. Syntax.lean: the whole instruction set and the whole table of events as one inductive type, one
constructor per row of spec/opcode_table.json, and the types of their operands. Each constructor's docstring
names its row and the rule that row cites. An event's arguments say which item it is about, or carry what comes
from outside the machine.
-/

namespace Sys2Proof

/-- Element types of the TY field (spec/09 R193). -/
inductive Ty where
  | i8 | i16 | i32 | i64 | n8 | n16 | n32 | n64 | e4m3 | fp16 | bf16 | f32 | f64
deriving DecidableEq, Repr

/-- Rounding modes (spec/04 R82). -/
inductive Rnd where
  | rne | rz | ru | rd | rna | dyn
deriving DecidableEq, Repr

/-- The SAT field (spec/09 R193). -/
inductive Sat where
  | none | sat | nan | nosat
deriving DecidableEq, Repr

/-- Conditions of CMP and CMPI (spec/11 R224). -/
inductive Cond where
  | eq | ne | lt | ge | le | gt | ltu | geu | leu | gtu
deriving DecidableEq, Repr

/-- Conditions of FCMP (spec/11 R228). -/
inductive FCond where
  | eq | lt | le | un | ne
deriving DecidableEq, Repr

/-- Conditions of VCMP (spec/12 R250). -/
inductive VCond where
  | eq | ne | lt | le | gt | ge | un
deriving DecidableEq, Repr

/-- Scopes (spec/02 R56). -/
inductive SC where
  | op | core | region | stack | device | system
deriving DecidableEq, Repr

/-- Memory orders (spec/09 R195). -/
inductive MO where
  | plain | acq | rel | ar
deriving DecidableEq, Repr

/-- Access widths of layout M (spec/09 R195). -/
inductive Width where
  | b | h | w | d
deriving DecidableEq, Repr

/-- The predicate of an instruction: performed when p[ps] XOR pn is 1 (spec/09 R191). -/
structure Pred where
  ps : PReg
  pn : Bool
deriving DecidableEq, Repr

/-- The mask fields of a vector instruction (spec/12 R243). -/
structure Mask where
  mi : MReg
  men : Bool
  mz : Bool
deriving DecidableEq, Repr

/-- A vector source: a register, or a channel read with keep or pop (spec/09 R187). -/
inductive VSrc where
  | reg (r : VReg)
  | chan (keep : Bool) (c : Chan)
deriving DecidableEq, Repr

/-- A vector destination: a register, or a channel whose open record a beat is appended to (spec/09 R187). -/
inductive VDst where
  | reg (r : VReg)
  | chan (c : Chan)
deriving DecidableEq, Repr

/-- The fields that every instruction of layout M carries (spec/09 R195). -/
structure MemF where
  wd : Width
  sx : Bool
  ts : Bool
  mo : MO
  sc : SC
  seq : BitVec 6
  pd : BitVec 2
  sd : BitVec 2
deriving DecidableEq, Repr

/-- The operations of the atomics (spec/15 R310). -/
inductive AtomOp where
  | add | min | max | and | or | xor | swap | cas | fadd
deriving DecidableEq, Repr

/-- What a host asks of memory (spec/22 R433): a read of some bytes, or a write of them. -/
inductive HostAccess where
  | read (len : Nat)
  | write (data : List Byte)
deriving DecidableEq, Repr

/-- What delivery a packet of a host requests (spec/22 R432): reliable unordered delivery, or one of the two that the device drops. -/
inductive Delivery where
  | reliable | ordered | idempotent
deriving DecidableEq, Repr

/-- A packet of a host: the port it arrives at, its endpoint and its delivery mode (spec/22 R432, R433). -/
structure Packet where
  port : Nat
  ep : BitVec 16
  mode : Delivery
deriving DecidableEq, Repr

/-- A unit with an ownership tag (spec/14 R290): a core with its scratchpad, an L2 slice (die × 32 + slice), a 64 MiB
range of stack SRAM (stack × 32 + range). -/
inductive OwnUnit where
  | core (c : Nat)
  | slice (s : Nat)
  | sram (r : Nat)
deriving DecidableEq, Repr

/-- The steps of one page's migration (spec/14 R296): start (the page is copied), copy again what was written, commit. -/
inductive MigStep where
  | start (part vmid gpa target : Nat)
  | recopy (k : Nat)
  | commit (k : Nat)
  | finish (slice : Nat)
deriving DecidableEq, Repr

/-- The registers that firmware and the hypervisor write and that have no event row of their own. -/
inductive FwReg where
  | share (p : Nat)                     -- spec/06 R124
  | avoid (p core : Nat)                -- placement preference, spec/06 R121: value 1 takes the region at `core` out
  | holdb (e : Nat)                     -- spec/07 R154
  | fabricMode (d : Nat)                -- spec/08 R166
  | spray (d src dst : Nat)             -- spec/08 R169: the value holds 8 paths of 7 bits and [59:56] P
  | replTh                              -- spec/14 R295
  | rptArea (p logItems : Nat)          -- spec/21 R422: the value is the base
  | rptTail (p : Nat)                   -- spec/21 R422
  | logArea (p logEntries : Nat)        -- spec/21 R423: the value is the base
  | logTail (p : Nat)                   -- spec/21 R423
  | seqTable (p count : Nat)            -- spec/18 R365: the value is the physical base
  | seqPool (p segs mapPa : Nat)        -- spec/18 R366: the value is the pool's physical base
  | saveArea (p : Nat)                  -- spec/21 R429
  | snapTarget (p : Nat)                -- spec/17 R350
  | dumpBuf (p size : Nat)              -- spec/21 R430: the value is the base
deriving DecidableEq, Repr

/-- One step of the part: an instruction, or an event of one of its units (spec/opcode_table.json, spec/95). -/
inductive Instr where
  /-- DICTIONARY_CODE, R183. -/
  | dictionaryCode (i : BitVec 10)
  /-- NOP, R222. -/
  | nop (p : Pred)
  /-- MOV, R222. -/
  | mov (p : Pred) (d : SReg) (a : SReg)
  /-- ADD, R222. -/
  | add (p : Pred) (d : SReg) (a : SReg) (b : SReg)
  /-- SUB, R222. -/
  | sub (p : Pred) (d : SReg) (a : SReg) (b : SReg)
  /-- MUL, R222. -/
  | mul (p : Pred) (d : SReg) (a : SReg) (b : SReg)
  /-- MULH, R222. -/
  | mulh (p : Pred) (d : SReg) (a : SReg) (b : SReg)
  /-- MULHU, R222. -/
  | mulhu (p : Pred) (d : SReg) (a : SReg) (b : SReg)
  /-- DIV, R223. -/
  | div (p : Pred) (d : SReg) (a : SReg) (b : SReg)
  /-- DIVU, R223. -/
  | divu (p : Pred) (d : SReg) (a : SReg) (b : SReg)
  /-- REM, R223. -/
  | rem (p : Pred) (d : SReg) (a : SReg) (b : SReg)
  /-- REMU, R223. -/
  | remu (p : Pred) (d : SReg) (a : SReg) (b : SReg)
  /-- AND, R222. -/
  | and (p : Pred) (d : SReg) (a : SReg) (b : SReg)
  /-- OR, R222. -/
  | or (p : Pred) (d : SReg) (a : SReg) (b : SReg)
  /-- XOR, R222. -/
  | xor (p : Pred) (d : SReg) (a : SReg) (b : SReg)
  /-- ANDN, R222. -/
  | andn (p : Pred) (d : SReg) (a : SReg) (b : SReg)
  /-- SHL, R222. -/
  | shl (p : Pred) (d : SReg) (a : SReg) (b : SReg)
  /-- SHR, R222. -/
  | shr (p : Pred) (d : SReg) (a : SReg) (b : SReg)
  /-- SRA, R222. -/
  | sra (p : Pred) (d : SReg) (a : SReg) (b : SReg)
  /-- ROL, R222. -/
  | rol (p : Pred) (d : SReg) (a : SReg) (b : SReg)
  /-- MIN, R222. -/
  | min (p : Pred) (d : SReg) (a : SReg) (b : SReg)
  /-- MAX, R222. -/
  | max (p : Pred) (d : SReg) (a : SReg) (b : SReg)
  /-- MINU, R222. -/
  | minu (p : Pred) (d : SReg) (a : SReg) (b : SReg)
  /-- MAXU, R222. -/
  | maxu (p : Pred) (d : SReg) (a : SReg) (b : SReg)
  /-- CLZ, R222. -/
  | clz (p : Pred) (d : SReg) (a : SReg)
  /-- POPC, R222. -/
  | popc (p : Pred) (d : SReg) (a : SReg)
  /-- BREV, R222. -/
  | brev (p : Pred) (d : SReg) (a : SReg)
  /-- SEL, R222. -/
  | sel (p : Pred) (d : SReg) (a : SReg) (b : SReg) (c : PReg)
  /-- CMP, R224. -/
  | cmp (p : Pred) (cond : Cond) (d : PReg) (a : SReg) (b : SReg)
  /-- LEA, R225. -/
  | lea (p : Pred) (d : SReg) (a : SReg) (b : SReg) (sh : BitVec 3)
  /-- BFX, R225. -/
  | bfx (p : Pred) (ty : Ty) (d : SReg) (a : SReg) (len : BitVec 7) (pos : BitVec 6)
  /-- BFI, R225. -/
  | bfi (p : Pred) (d : SReg) (a : SReg) (b : SReg) (len : BitVec 7) (pos : BitVec 6)
  /-- SEXT, R222. -/
  | sext (p : Pred) (ty : Ty) (d : SReg) (a : SReg)
  /-- ZEXT, R222. -/
  | zext (p : Pred) (ty : Ty) (d : SReg) (a : SReg)
  /-- MFS, R212. -/
  | mfs (p : Pred) (d : SReg) (sr : BitVec 6) (entry : BitVec 3)
  /-- MTS, R212. -/
  | mts (p : Pred) (sr : BitVec 6) (a : SReg)
  /-- FADD, R227. -/
  | fadd (p : Pred) (ty : Ty) (d : SReg) (a : SReg) (b : SReg) (sm : Sat) (rnd : Rnd)
  /-- FSUB, R227. -/
  | fsub (p : Pred) (ty : Ty) (d : SReg) (a : SReg) (b : SReg) (sm : Sat) (rnd : Rnd)
  /-- FMUL, R227. -/
  | fmul (p : Pred) (ty : Ty) (d : SReg) (a : SReg) (b : SReg) (sm : Sat) (rnd : Rnd)
  /-- FFMA, R227. -/
  | ffma (p : Pred) (ty : Ty) (d : SReg) (a : SReg) (b : SReg) (c : SReg) (sm : Sat) (rnd : Rnd)
  /-- FMIN, R227. -/
  | fmin (p : Pred) (ty : Ty) (d : SReg) (a : SReg) (b : SReg)
  /-- FMAX, R227. -/
  | fmax (p : Pred) (ty : Ty) (d : SReg) (a : SReg) (b : SReg)
  /-- FCMP, R228. -/
  | fcmp (p : Pred) (ty : Ty) (d : PReg) (a : SReg) (b : SReg) (cond : FCond)
  /-- FCVT, R229. -/
  | fcvt (p : Pred) (ty : Ty) (d : SReg) (a : SReg) (src : Ty) (sm : Sat) (rnd : Rnd)
  /-- PAND, R231. -/
  | pand (p : Pred) (ia : Bool) (ib : Bool) (d : PReg) (a : PReg) (b : PReg)
  /-- POR, R231. -/
  | por (p : Pred) (ia : Bool) (ib : Bool) (d : PReg) (a : PReg) (b : PReg)
  /-- PXOR, R231. -/
  | pxor (p : Pred) (ia : Bool) (ib : Bool) (d : PReg) (a : PReg) (b : PReg)
  /-- PNOT, R231. -/
  | pnot (p : Pred) (d : PReg) (a : PReg)
  /-- VADD, R247. -/
  | vadd (p : Pred) (ty : Ty) (d : VDst) (a : VSrc) (b : VSrc) (mk : Mask) (sm : Sat) (rnd : Rnd)
  /-- VSUB, R247. -/
  | vsub (p : Pred) (ty : Ty) (d : VDst) (a : VSrc) (b : VSrc) (mk : Mask) (sm : Sat) (rnd : Rnd)
  /-- VMUL, R247. -/
  | vmul (p : Pred) (ty : Ty) (d : VDst) (a : VSrc) (b : VSrc) (mk : Mask) (sm : Sat) (rnd : Rnd)
  /-- VFMA, R247. -/
  | vfma (p : Pred) (ty : Ty) (d : VDst) (a : VSrc) (b : VSrc) (c : VSrc) (mk : Mask) (sm : Sat) (rnd : Rnd)
  /-- VMIN, R247. -/
  | vmin (p : Pred) (ty : Ty) (d : VDst) (a : VSrc) (b : VSrc) (mk : Mask)
  /-- VMAX, R247. -/
  | vmax (p : Pred) (ty : Ty) (d : VDst) (a : VSrc) (b : VSrc) (mk : Mask)
  /-- VABS, R248. -/
  | vabs (p : Pred) (ty : Ty) (d : VDst) (a : VSrc) (mk : Mask) (sm : Sat) (rnd : Rnd)
  /-- VNEG, R248. -/
  | vneg (p : Pred) (ty : Ty) (d : VDst) (a : VSrc) (mk : Mask) (sm : Sat) (rnd : Rnd)
  /-- VMULH, R247. -/
  | vmulh (p : Pred) (ty : Ty) (d : VDst) (a : VSrc) (b : VSrc) (mk : Mask)
  /-- VAND, R249. -/
  | vand (p : Pred) (ty : Ty) (d : VDst) (a : VSrc) (b : VSrc) (mk : Mask)
  /-- VOR, R249. -/
  | vor (p : Pred) (ty : Ty) (d : VDst) (a : VSrc) (b : VSrc) (mk : Mask)
  /-- VXOR, R249. -/
  | vxor (p : Pred) (ty : Ty) (d : VDst) (a : VSrc) (b : VSrc) (mk : Mask)
  /-- VSHL, R249. -/
  | vshl (p : Pred) (ty : Ty) (d : VDst) (a : VSrc) (b : VSrc) (mk : Mask)
  /-- VSHR, R249. -/
  | vshr (p : Pred) (ty : Ty) (d : VDst) (a : VSrc) (b : VSrc) (mk : Mask)
  /-- VSRA, R249. -/
  | vsra (p : Pred) (ty : Ty) (d : VDst) (a : VSrc) (b : VSrc) (mk : Mask)
  /-- VCMP, R250. -/
  | vcmp (p : Pred) (ty : Ty) (d : MReg) (a : VSrc) (b : VSrc) (mk : Mask) (cond : VCond)
  /-- VSEL, R251. -/
  | vsel (p : Pred) (ty : Ty) (d : VDst) (a : VSrc) (b : VSrc) (c : MReg)
  /-- MAND, R251. -/
  | mand (p : Pred) (ty : Ty) (d : MReg) (a : MReg) (b : MReg)
  /-- MOR, R251. -/
  | mor (p : Pred) (ty : Ty) (d : MReg) (a : MReg) (b : MReg)
  /-- MXOR, R251. -/
  | mxor (p : Pred) (ty : Ty) (d : MReg) (a : MReg) (b : MReg)
  /-- MNOT, R251. -/
  | mnot (p : Pred) (ty : Ty) (d : MReg) (a : MReg)
  /-- MCNT, R251. -/
  | mcnt (p : Pred) (ty : Ty) (d : SReg) (a : MReg)
  /-- VCVT, R252. -/
  | vcvt (p : Pred) (ty : Ty) (d : VDst) (a : VSrc) (mk : Mask) (part : BitVec 2) (src : Ty) (sm : Sat) (rnd : Rnd)
  /-- VSCALE, R253. -/
  | vscale (p : Pred) (ty : Ty) (d : VDst) (a : VSrc) (b : SReg) (mk : Mask) (side : Bool) (sm : Sat) (rnd : Rnd)
  /-- VQNT, R254. -/
  | vqnt (p : Pred) (d : VDst) (a : VReg) (b : SReg) (sm : Sat) (rnd : Rnd)
  /-- VCBD, R255. -/
  | vcbd (p : Pred) (d : VDst) (a : VSrc) (part : BitVec 3)
  /-- VRCP, R256. -/
  | vrcp (p : Pred) (ty : Ty) (d : VDst) (a : VSrc) (mk : Mask) (sm : Sat)
  /-- VRSQ, R256. -/
  | vrsq (p : Pred) (ty : Ty) (d : VDst) (a : VSrc) (mk : Mask) (sm : Sat)
  /-- VEXP2, R256. -/
  | vexp2 (p : Pred) (ty : Ty) (d : VDst) (a : VSrc) (mk : Mask) (sm : Sat)
  /-- VLOG2, R256. -/
  | vlog2 (p : Pred) (ty : Ty) (d : VDst) (a : VSrc) (mk : Mask) (sm : Sat)
  /-- VSUM, R257. -/
  | vsum (p : Pred) (ty : Ty) (d : VDst) (a : VSrc) (mk : Mask) (sm : Sat) (rnd : Rnd)
  /-- VRMAX, R257. -/
  | vrmax (p : Pred) (ty : Ty) (d : VDst) (a : VSrc) (mk : Mask)
  /-- VRMIN, R257. -/
  | vrmin (p : Pred) (ty : Ty) (d : VDst) (a : VSrc) (mk : Mask)
  /-- VDOT, R258. -/
  | vdot (p : Pred) (ty : Ty) (d : VDst) (a : VSrc) (b : VSrc) (mk : Mask) (sm : Sat) (rnd : Rnd)
  /-- VSCAN, R259. -/
  | vscan (p : Pred) (ty : Ty) (d : VDst) (a : VSrc) (excl : Bool) (sm : Sat) (rnd : Rnd)
  /-- VTOPK_RESET, R262. -/
  | vtopkReset (p : Pred) (k1 : BitVec 6) (unit : BitVec 2)
  /-- VTOPK_FEED, R262. -/
  | vtopkFeed (p : Pred) (a : VSrc) (b : VSrc) (unit : BitVec 2)
  /-- VTOPK_DRAINV, R262. -/
  | vtopkDrainv (p : Pred) (d : VDst) (page : BitVec 2) (unit : BitVec 2)
  /-- VTOPK_DRAINI, R262. -/
  | vtopkDraini (p : Pred) (d : VDst) (page : BitVec 2) (unit : BitVec 2)
  /-- VPERM, R264. -/
  | vperm (p : Pred) (ty : Ty) (d : VDst) (a : VSrc) (b : VSrc)
  /-- VBCAST, R264. -/
  | vbcast (p : Pred) (ty : Ty) (d : VDst) (a : VSrc) (j : BitVec 6)
  /-- VSPLAT, R264. -/
  | vsplat (p : Pred) (ty : Ty) (d : VDst) (a : SReg)
  /-- VINS, R264. -/
  | vins (p : Pred) (ty : Ty) (d : VReg) (a : SReg) (j : BitVec 6)
  /-- VEXT, R264. -/
  | vext (p : Pred) (ty : Ty) (d : SReg) (a : VSrc) (j : BitVec 6)
  /-- VZIP, R264. -/
  | vzip (p : Pred) (ty : Ty) (d : VDst) (a : VSrc) (b : VSrc) (hi : Bool)
  /-- VUNZIP, R264. -/
  | vunzip (p : Pred) (ty : Ty) (d : VDst) (a : VSrc) (b : VSrc) (hi : Bool)
  /-- VCOMP, R264. -/
  | vcomp (p : Pred) (ty : Ty) (d : VDst) (a : VSrc) (c : MReg)
  /-- VEXPD, R264. -/
  | vexpd (p : Pred) (ty : Ty) (d : VDst) (a : VSrc) (c : MReg)
  /-- VIOTA, R264. -/
  | viota (p : Pred) (ty : Ty) (d : VDst) (a : SReg)
  /-- VMOV, R264. -/
  | vmov (p : Pred) (ty : Ty) (d : VDst) (a : VSrc) (mk : Mask)
  /-- MZERO, R270. -/
  | mzero (p : Pred) (d : AReg)
  /-- MMAT, R269. -/
  | mmat (p : Pred) (ty : Ty) (d : AReg) (a : SReg) (b : SReg) (cb : Bool)
  /-- MRDR, R271. -/
  | mrdr (p : Pred) (ty : Ty) (d : VDst) (a : AReg) (hi : Bool) (r : BitVec 5) (sm : Sat) (rnd : Rnd)
  /-- MWRR, R272. -/
  | mwrr (p : Pred) (ty : Ty) (d : AReg) (a : VSrc) (hi : Bool) (r : BitVec 5)
  /-- MRDC, R271. -/
  | mrdc (p : Pred) (ty : Ty) (d : VDst) (a : AReg) (hi : Bool) (r : BitVec 5) (sm : Sat) (rnd : Rnd)
  /-- MSTA, R273. -/
  | msta (p : Pred) (ty : Ty) (a : AReg) (b : SReg) (sm : Sat) (rnd : Rnd)
  /-- MLDA, R270. -/
  | mlda (p : Pred) (d : AReg) (a : SReg)
  /-- MMAT_COMPLETE, R266. -/
  | mmatComplete (t : Nat)
  /-- LI, R232. -/
  | li (p : Pred) (d : SReg) (imm : BitVec 32)
  /-- LIH, R232. -/
  | lih (p : Pred) (d : SReg) (a : SReg) (imm : BitVec 32)
  /-- ADDI, R232. -/
  | addi (p : Pred) (d : SReg) (a : SReg) (imm : BitVec 32)
  /-- ANDI, R232. -/
  | andi (p : Pred) (d : SReg) (a : SReg) (imm : BitVec 32)
  /-- ORI, R232. -/
  | ori (p : Pred) (d : SReg) (a : SReg) (imm : BitVec 32)
  /-- XORI, R232. -/
  | xori (p : Pred) (d : SReg) (a : SReg) (imm : BitVec 32)
  /-- SHLI, R232. -/
  | shli (p : Pred) (d : SReg) (a : SReg) (n : BitVec 6)
  /-- SHRI, R232. -/
  | shri (p : Pred) (d : SReg) (a : SReg) (n : BitVec 6)
  /-- SRAI, R232. -/
  | srai (p : Pred) (d : SReg) (a : SReg) (n : BitVec 6)
  /-- MULI, R232. -/
  | muli (p : Pred) (d : SReg) (a : SReg) (imm : BitVec 32)
  /-- CMPI, R232. -/
  | cmpi (p : Pred) (cond : Cond) (d : PReg) (a : SReg) (imm : BitVec 32)
  /-- MINI, R232. -/
  | mini (p : Pred) (d : SReg) (a : SReg) (imm : BitVec 32)
  /-- MAXI, R232. -/
  | maxi (p : Pred) (d : SReg) (a : SReg) (imm : BitVec 32)
  /-- VBCASTI, R233. -/
  | vbcasti (p : Pred) (ty : Ty) (d : VReg) (imm : BitVec 32)
  /-- FLI, R234. -/
  | fli (p : Pred) (ty : Ty) (d : SReg) (imm : BitVec 32)
  /-- LD, R303. -/
  | ld (p : Pred) (mf : MemF) (d : SReg) (a : SReg) (b : SReg)
  /-- ST, R303. -/
  | st (p : Pred) (mf : MemF) (a : SReg) (b : SReg) (c : SReg)
  /-- VLD, R303. -/
  | vld (p : Pred) (mf : MemF) (d : VReg) (a : SReg) (b : SReg)
  /-- VST, R303. -/
  | vst (p : Pred) (mf : MemF) (a : SReg) (b : SReg) (c : VReg)
  /-- VLDG, R304. -/
  | vldg (p : Pred) (mf : MemF) (d : VReg) (a : SReg) (b : VReg)
  /-- VSTS, R304. -/
  | vsts (p : Pred) (mf : MemF) (a : SReg) (b : VReg) (c : VReg)
  /-- LDF, R306. -/
  | ldf (p : Pred) (mf : MemF) (d : SReg) (a : SReg) (b : SReg)
  /-- LDFE, R306. -/
  | ldfe (p : Pred) (mf : MemF) (d : SReg) (a : SReg) (b : SReg)
  /-- STEF, R308. -/
  | stef (p : Pred) (mf : MemF) (a : SReg) (b : SReg) (c : SReg)
  /-- STF, R308. -/
  | stf (p : Pred) (mf : MemF) (a : SReg) (b : SReg) (c : SReg)
  /-- VLDF, R306. -/
  | vldf (p : Pred) (mf : MemF) (d : VReg) (a : SReg) (b : SReg)
  /-- VSTF, R308. -/
  | vstf (p : Pred) (mf : MemF) (a : SReg) (b : SReg) (c : VReg)
  /-- FEGET, R309. -/
  | feget (p : Pred) (mf : MemF) (d : SReg) (a : SReg) (b : SReg)
  /-- FESET, R309. -/
  | feset (p : Pred) (mf : MemF) (a : SReg) (b : SReg) (c : SReg)
  /-- AADD, R310. -/
  | aadd (p : Pred) (mf : MemF) (d : SReg) (a : SReg) (b : SReg) (c : SReg)
  /-- AMIN, R310. -/
  | amin (p : Pred) (mf : MemF) (d : SReg) (a : SReg) (b : SReg) (c : SReg)
  /-- AMAX, R310. -/
  | amax (p : Pred) (mf : MemF) (d : SReg) (a : SReg) (b : SReg) (c : SReg)
  /-- AAND, R310. -/
  | aand (p : Pred) (mf : MemF) (d : SReg) (a : SReg) (b : SReg) (c : SReg)
  /-- AOR, R310. -/
  | aor (p : Pred) (mf : MemF) (d : SReg) (a : SReg) (b : SReg) (c : SReg)
  /-- AXOR, R310. -/
  | axor (p : Pred) (mf : MemF) (d : SReg) (a : SReg) (b : SReg) (c : SReg)
  /-- ASWP, R310. -/
  | aswp (p : Pred) (mf : MemF) (d : SReg) (a : SReg) (b : SReg) (c : SReg)
  /-- ACAS, R310. -/
  | acas (p : Pred) (mf : MemF) (d : SReg) (a : SReg) (b : SReg) (c : SReg)
  /-- AFADD, R310. -/
  | afadd (p : Pred) (mf : MemF) (d : SReg) (a : SReg) (b : SReg) (c : SReg)
  /-- FENCE, R311. -/
  | fence (p : Pred) (mf : MemF)
  /-- CWB, R312. -/
  | cwb (p : Pred) (mf : MemF) (a : SReg) (b : SReg)
  /-- CINV, R312. -/
  | cinv (p : Pred) (mf : MemF) (a : SReg) (b : SReg)
  /-- PREF, R312. -/
  | pref (p : Pred) (mf : MemF) (a : SReg) (b : SReg)
  /-- OSCLM, R313. -/
  | osclm (p : Pred) (mf : MemF) (d : SReg) (a : SReg)
  /-- OSREL, R313. -/
  | osrel (p : Pred) (mf : MemF) (d : SReg) (a : SReg)
  /-- BR, R235. -/
  | br (p : Pred) (imm : BitVec 32)
  /-- BRR, R235. -/
  | brr (p : Pred) (a : SReg) (imm : BitVec 32)
  /-- CALL, R235. -/
  | call (p : Pred) (d : SReg) (imm : BitVec 32)
  /-- RET, R235. -/
  | ret (p : Pred) (a : SReg)
  /-- LOOP, R235. -/
  | loop (p : Pred) (d : SReg) (a : SReg) (imm : BitVec 32)
  /-- ENDH, R236. -/
  | endh (p : Pred)
  /-- PARK, R237. -/
  | park (p : Pred)
  /-- TRAP, R238. -/
  | trap (p : Pred) (n : BitVec 16)
  /-- TRET, R239. -/
  | tret (p : Pred) (a : SReg) (skip : Bool)
  /-- WAITC, R393. -/
  | waitc (p : Pred) (tok : BitVec 8) (tom : BitVec 4) (stm : BitVec 6) (ldm : BitVec 6)
  /-- BARW, R395. -/
  | barw (p : Pred) (bar : BitVec 5)
  /-- BARA, R395. -/
  | bara (p : Pred) (d : SReg) (bar : BitVec 5)
  /-- BARINIT, R394. -/
  | barinit (p : Pred) (exp : BitVec 12) (bar : BitVec 5)
  /-- EMIT, R331. -/
  | emit (p : Pred) (d : Chan)
  /-- DROP, R331. -/
  | drop (p : Pred) (d : Chan)
  /-- SKIPE, R333. -/
  | skipe (p : Pred) (d : Chan)
  /-- PRES, R334. -/
  | pres (p : Pred) (d : SReg) (a : Chan)
  /-- POPS, R335. -/
  | pops (p : Pred) (d : SReg) (a : Chan)
  /-- HDR, R336. -/
  | hdr (p : Pred) (d : Chan) (a : SReg) (fm : BitVec 5)
  /-- TTENQ, R338. -/
  | ttenq (p : Pred) (d : SReg) (a : SReg) (rcore : BitVec 4) (src : Bool)
  /-- XSEND, R337. -/
  | xsend (p : Pred) (d : Chan) (a : SReg)
  /-- BOARD, R343. -/
  | board (p : Pred) (d : SReg) (a : SReg)
  /-- UNBRD, R344. -/
  | unbrd (p : Pred) (d : SReg) (a : SReg)
  /-- RHOLD, R344. -/
  | rhold (p : Pred) (a : SReg) (b : SReg)
  /-- RSTAT, R344. -/
  | rstat (p : Pred) (d : SReg) (a : SReg)
  /-- PURGE, R347. -/
  | purge (p : Pred) (d : SReg) (a : SReg) (b : SReg)
  /-- SNAP, R350. -/
  | snap (p : Pred) (a : SReg) (b : SReg)
  /-- FREEZE, R349. -/
  | freeze (p : Pred) (a : SReg)
  /-- THAW, R349. -/
  | thaw (p : Pred) (a : SReg)
  /-- QFLUSH, R351. -/
  | qflush (p : Pred) (d : SReg) (a : SReg)
  /-- SQNEW, R399. -/
  | sqnew (p : Pred) (d : SReg) (a : SReg) (b : SReg)
  /-- SQRSV, R400. -/
  | sqrsv (p : Pred) (d : SReg) (a : SReg) (b : SReg) (fault : Bool)
  /-- SQADR, R401. -/
  | sqadr (p : Pred) (d : SReg) (a : SReg) (b : SReg)
  /-- SQCMT, R402. -/
  | sqcmt (p : Pred) (a : SReg) (b : SReg) (sc : SC)
  /-- SQLEN, R404. -/
  | sqlen (p : Pred) (d : SReg) (a : SReg) (sc : SC)
  /-- SQWAIT, R404. -/
  | sqwait (p : Pred) (a : SReg) (b : SReg) (sc : SC)
  /-- SQFORK, R406. -/
  | sqfork (p : Pred) (d : SReg) (a : SReg) (b : SReg) (c : SReg)
  /-- SQREF, R407. -/
  | sqref (p : Pred) (d : SReg) (a : SReg)
  /-- SQREL, R407. -/
  | sqrel (p : Pred) (d : SReg) (a : SReg)
  /-- SQLD, R405. -/
  | sqld (p : Pred) (d : SReg) (a : SReg) (b : SReg) (c : SReg) (sc : SC)
  /-- SQVOID, R402. -/
  | sqvoid (p : Pred) (a : SReg) (b : SReg) (sc : SC)
  /-- CNTRD, R409. -/
  | cntrd (p : Pred) (d : SReg) (a : SReg)
  /-- OWCRD, R410. -/
  | owcrd (p : Pred) (d : SReg) (a : SReg)
  /-- QSET, R411. -/
  | qset (p : Pred) (a : SReg) (b : SReg)
  /-- CNTSET, R412. -/
  | cntset (p : Pred) (a : SReg) (b : SReg)
  /-- CFGLD, R370. -/
  | cfgld (p : Pred) (d : SReg) (a : SReg) (b : SReg)
  /-- CFGARM, R372. -/
  | cfgarm (p : Pred) (d : SReg) (a : SReg)
  /-- CFGDIS, R374. -/
  | cfgdis (p : Pred) (d : SReg) (a : SReg)
  /-- DICTLD, R375. -/
  | dictld (p : Pred) (d : SReg) (a : SReg) (b : SReg)
  /-- CBLD, R376. -/
  | cbld (p : Pred) (d : SReg) (a : SReg) (b : SReg)
  /-- TLBINV, R377. -/
  | tlbinv (p : Pred) (a : SReg) (b : SReg)
  /-- BUDGET, R53. -/
  | budget
  /-- CONTEXT_SELECTION, R131. -/
  | contextSelection (t c : Nat)
  /-- OLDEST_WAVE_PROMOTION, R131. -/
  | oldestWavePromotion (t f : Nat)
  /-- RECORD_ARRIVAL, R43. -/
  | recordArrival (n : Nat)
  /-- SPILL_REPLAY, R45. -/
  | spillReplay (r c n : Nat)
  /-- WAKE_BUFFER_ARRIVAL, R48. -/
  | wakeBufferArrival (n : Nat)
  /-- TILE_WAKE, R48. -/
  | tileWake (t : Nat)
  /-- CLOCK_GATING_ENTRY, R439. -/
  | clockGatingEntry (t : Nat)
  /-- POWER_GATING_ENTRY, R439. -/
  | powerGatingEntry (t : Nat)
  /-- OWC_BROADCAST, R44. -/
  | owcBroadcast (t c : Nat)
  /-- ADMISSION, R130. -/
  | admission (r c : Nat)
  /-- EXIT_PORT_RECORD, R442. -/
  | exitPortRecord (n : Nat)
  /-- EXIT_ADMISSION_LEAVE, R442. -/
  | exitAdmissionLeave (r k : Nat)
  /-- COUNTER_NODE_RECORD, R26. -/
  | counterNodeRecord (n : Nat)
  /-- MEMORY_OPERATOR_RECORD, R26. -/
  | memoryOperatorRecord (n : Nat)
  /-- MEMORY_OPERATOR_RESULT, R26. -/
  | memoryOperatorResult (r k : Nat)
  /-- STEER_RECORD, R26. -/
  | steerRecord (n : Nat)
  /-- MERGE_RECORD, R26. -/
  | mergeRecord (n : Nat)
  /-- CONVERSION_NODE_RECORD, R26. -/
  | conversionNodeRecord (n : Nat)
  /-- BOUNDARY_NODE_RECORD, R115. -/
  | boundaryNodeRecord (n : Nat)
  /-- WAVE_ADVANCE_RECORD, R32. -/
  | waveAdvanceRecord (n : Nat)
  /-- REMOTE_SCRATCHPAD_RECORD, R26. -/
  | remoteScratchpadRecord (n : Nat)
  /-- A_ROW_RECORD, R276. -/
  | aRowRecord (n : Nat)
  /-- RECONFIGURATION_RECORD, R59. -/
  | reconfigurationRecord (n : Nat)
  /-- WAVE_CONTROL_RECORD, R421. -/
  | waveControlRecord (n : Nat)
  /-- CIRCUIT_BEAT, R158. -/
  | circuitBeat (n : Nat) (crcOk : Bool)
  /-- ACCESS_RESPONSE, R305. -/
  | accessResponse (k : Nat)
  /-- STORE_PERFORMED, R305. -/
  | storePerformed (k : Nat)
  /-- CHAIN_ACCESS_RELEASE, R105. -/
  | chainAccessRelease (k : Nat)
  /-- STEF_WAKE, R308. -/
  | stefWake (k : Nat)
  /-- WAIT_ENTRY_RETRY, R307. -/
  | waitEntryRetry (t f : Nat)
  /-- STEF_RESEND, R307. -/
  | stefResend (k : Nat)
  /-- SEQ_WAIT_RETRY, R404. -/
  | seqWaitRetry (t f : Nat)
  /-- TABLE_WALK, R293. -/
  | tableWalk (k : Nat)
  /-- PAGE_MODE_INTERVAL, R295. -/
  | pageModeInterval
  /-- SLICE_MIGRATION, R296. -/
  | sliceMigration (m : MigStep)
  /-- OWNERSHIP_SET, R290. -/
  | ownershipSet (u : OwnUnit) (part : Option Nat)
  /-- DOORBELL, R325. -/
  | doorbell (pkt : Packet) (data : Word)
  /-- COMMAND_QUEUE_READ, R326. -/
  | commandQueueRead (q : Nat)
  /-- QUEUE_MAP, R323: the descriptor as it stands in memory, or as the hypervisor has rewritten it. -/
  | queueMap (q : Nat) (desc : Option (BitVec 512))
  /-- QUEUE_UNMAP, R325. -/
  | queueUnmap (q : Nat)
  /-- HOST_READ_WRITE, R433. -/
  | hostReadWrite (pkt : Packet) (gva : Word) (acc : HostAccess)
  /-- HOST_ATOMIC, R117. -/
  | hostAtomic (pkt : Packet) (gva : Word) (op : AtomOp) (wide : Bool) (x y : Word)
  /-- MARCH_PLACEMENT, R122. -/
  | marchPlacement
  /-- DIE_REPORT, R123. -/
  | dieReport (d : Nat)
  /-- TASK_RESIDENT, R125. -/
  | taskResident (c b : Nat)
  /-- TASK_ISSUE, R126. -/
  | taskIssue (c b : Nat)
  /-- TASK_RETIREMENT, R127. -/
  | taskRetirement (c b : Nat)
  /-- COND_TASK, R128. -/
  | condTask (c b : Nat)
  /-- WHILE_TASK, R129. -/
  | whileTask (c b : Nat)
  /-- IMMA, R278. -/
  | imma (c b : Nat)
  /-- IDRAIN, R279. -/
  | idrain (c b : Nat)
  /-- IZERO, R277. -/
  | izero (c b : Nat)
  /-- REGION_TASK, R362. -/
  | regionTask (c b : Nat)
  /-- COPY_TASK, R362. -/
  | copyTask (c b : Nat)
  /-- COPY_START, R342. -/
  | copyStart (c ch : Nat)
  /-- COPY_BEAT, R342. -/
  | copyBeat (c ch : Nat)
  /-- COPY_END, R342. -/
  | copyEnd (c ch : Nat)
  /-- SQFORK_COPY_END, R406. -/
  | sqforkCopyEnd (k : Nat)
  /-- LAP_BOUNDARY, R143. -/
  | lapBoundary
  /-- TILE_HEAD_ARRIVAL, R148. -/
  | tileHeadArrival (c n : Nat)
  /-- TILE_CRC_CHECK, R148: of an arrival at a core's port; `damaged` says that a beat was damaged on its way. -/
  | tileCrcCheck (c k : Nat) (damaged : Bool)
  /-- RING_HOLD, R152. -/
  | ringHold
  /-- HOLD_EXPIRY, R152. -/
  | holdExpiry
  /-- UNDERRUN, R153. -/
  | underrun (station : Nat)
  /-- RING_IMAGE_ENTRY_WRITE, R364. -/
  | ringImageEntryWrite (e : Nat) (v : BitVec 512)
  /-- RING_PACE_WRITE, R154. -/
  | ringPaceWrite (v : BitVec 5)
  /-- RING_PACE_MIN_WRITE, R154. -/
  | ringPaceMinWrite (v : BitVec 5)
  /-- RING_LEAD_WRITE, R154. -/
  | ringLeadWrite (v : BitVec 3)
  /-- CODERATE_WRITE, R166. -/
  | coderateWrite (d n : Nat) (v : BitVec 32)
  /-- THROT_TH_WRITE, R135. -/
  | throtThWrite (v : BitVec 8)
  /-- PLACE_TH_WRITE, R135. -/
  | placeThWrite (v : BitVec 8)
  /-- TIMING_TH_WRITE, R389. -/
  | timingThWrite (v : BitVec 16)
  /-- WDOG_TH_WRITE, R425. -/
  | wdogThWrite (v : BitVec 32)
  /-- TILE_GATING_WRITE, R439. -/
  | tileGatingWrite (power : Bool) (v : BitVec 32)
  /-- FIRMWARE_REGISTER_WRITE, R20. -/
  | firmwareRegisterWrite (reg : FwReg) (v : Word)
  /-- CORRT, R154. -/
  | corrt (port : Nat)
  /-- UNDERRUN_READ, R154. -/
  | underrunRead (station : Nat)
  /-- LATEDROP, R177. -/
  | latedrop (d : Nat)
  /-- FRAGERR, R177. -/
  | fragerr (d : Nat)
  /-- DECFULL, R177. -/
  | decfull (d : Nat)
  /-- NACKS, R177. -/
  | nacks (d : Nat)
  /-- RETXN, R177. -/
  | retxn (d : Nat)
  /-- MSGLOSS_READ, R177. -/
  | msglossRead (d : Nat)
  /-- PORTDROP_READ, R435. -/
  | portdropRead (port : Nat)
  /-- FRAGMENT_ARRIVAL, R172. -/
  | fragmentArrival (d : Nat) (hdr : BitVec 128) (data : Vec) (crc : BitVec 32)
  /-- DECODE_TIMEOUT, R174. -/
  | decodeTimeout (d k : Nat)
  /-- RETIRED_FILTER_EXPIRY, R172. -/
  | retiredFilterExpiry (d k : Nat)
  /-- ACK_COALESCE, R173: of the die, the pair of destination and source. -/
  | ackCoalesce (d : Nat) (pair : Nat × Nat)
  /-- ACKNOWLEDGEMENT, R173: at the die, the source and the classes and ids that it names. -/
  | acknowledgement (d : Nat) (ack : Nat × List (Nat × Nat))
  /-- NACK, R174: at the die, the source, class and id of the message. -/
  | nack (d : Nat) (msg : Nat × Nat × Nat) (final : Bool)
  /-- MSGLOSS, R175. -/
  | msgloss (d k : Nat)
  /-- THROTTLE_SAMPLE, R134. -/
  | throttleSample (c : Nat) (compute sram : Nat)
  /-- DEBT_ACCRUAL, R136. -/
  | debtAccrual (c : Nat)
  /-- TIMING_REPLAY, R389. -/
  | timingReplay (t : Nat)
  /-- REPLAY_WINDOW_END, R389. -/
  | replayWindowEnd (d : Nat)
  /-- WATCHDOG, R425. -/
  | watchdog (r c : Nat)
  /-- PREEMPTION_REQUEST, R427. -/
  | preemptionRequest (p : Nat)
  /-- PREEMPTION_SAVE, R429. -/
  | preemptionSave (p : Nat)
  /-- PREEMPTION_RESTORE, R429. -/
  | preemptionRestore (p : Nat)
  /-- TENANT_RESET, R430. -/
  | tenantReset (p : Nat)
  /-- DIE_DROP, R431. -/
  | dieDrop (d : Nat)
  /-- SNAP_END, R350. -/
  | snapEnd (p : Nat) (status : BitVec 8)
  /-- POWER_ON, R437. -/
  | powerOn (straps : BitVec 16) (railsOk : Bool)
  /-- POLICY_FIRMWARE_IMAGE, R437. -/
  | policyFirmwareImage (signatureOk : Bool)
  /-- PORT_LINK_CHANGE, R435. -/
  | portLinkChange (port : Nat) (up : Bool)
  /-- VMID_TABLE_WRITE, R367. -/
  | vmidTableWrite (v : Nat) (entry : BitVec 128)
deriving DecidableEq, Repr

end Sys2Proof
end

