-- ==== Sys2Proof/Machine/State.lean ====
section
/-!
DEFINITION. Machine/State.lean: everything the spec gives the machine, as plain data, and the machine after reset.
INVENTORY.md lists each field with the rule that names it. Units that the spec numbers are keyed by one number:
core C = die × 16 + core (spec/01 R11), tile T = C × 32 + tile, context T × 4 + c, frame T × 128 + f, a region by its
lowest core, a physical address by itself. A unit that a table does not list stands at its reset value.
-/

namespace Sys2Proof.Machine

/-- A record (spec/02 R34, R35): bits [63:0] of its first beat's sideband, its beats, and each beat's block scale. -/
structure Rec where
  hdr : BitVec 64 := 0
  beats : List Vec := []
  scales : List (BitVec 16) := []
deriving DecidableEq, Repr

/-- Where a record goes: a handler slot by its channel, a fixed operator by its channel, or the region itself (a wave
control record, spec/21 R421; a reconfiguration record, spec/02 R59). -/
inductive Dest where
  | slot (t ch : Nat)
  | op (r n ch : Nat)
  | waveCtl (r : Nat)
  | reconf (r : Nat)
deriving DecidableEq, Repr

/-- How far the message of something that rides the fabric has got (spec/08 R162): it needs none; it is still to be sent; it was sent under
numbers, one for each home, which stand while their messages have not been delivered; it was lost. -/
inductive Ride where
  | none | fresh
  | on (nums : List Nat)
  | lost
deriving DecidableEq, Repr

/-- A record that has left its producer (spec/17 R332, spec/08 R158). -/
structure Transit where
  /-- a trap record for another core rides the fabric (spec/08 R162) -/
  ride : Ride := .none
  rc : Rec := {}
  dst : Dest := .waveCtl 0
  /-- tile and channel whose CHERR counts for it (spec/18 R354) -/
  cherr : Nat × Nat := (0, 0)
  /-- accesses that must be performed before it leaves (spec/17 R332) -/
  waits : List Nat := []
  /-- beats that have still to cross its circuit (spec/08 R158) -/
  left : Nat := 0
  /-- activation held until the region has applied it (spec/26 R447) -/
  sender : Nat := 0
  /-- peer that the exit port sends it to, by its place in the colour's peer list (spec/17 R337) -/
  peer : Option Nat := none
  /-- a reconfiguration with an effective wave earlier than NXW when it was issued (spec/02 R60) -/
  early : Bool := false
  /-- a POISON that has been applied and whose sender is still held: frames of the wave on which activations run have not been written back
  (spec/26 R447) -/
  applied : Bool := false
  /-- its order among the spilled records of its channel: 0 behind them; 1 it stood in a wake buffer, ahead of those spilled since; 2 it has
  left the spill ring, ahead of all (spec/02 R45, R48) -/
  ahead : Nat := 0
deriving DecidableEq, Repr

/-- What a parked continuation waits on (spec/02 R51, R52). -/
inductive Wait where
  | nothing
  | counts (tok tom stm : Nat)          -- WAITC
  | barrier (b : Nat)                   -- BARW, filed with its barrier
  | slotOf (ch : Nat)                   -- an absent slot at the cursor of an incoming channel
  | words (gva : Nat) (pas : List Nat)   -- a waiter on scratchpad words
  | wordsRetry (gva : Nat) (pas : List Nat) (at_ : Nat)  -- no wait entry was free: runnable again at a time (spec/15 R307)
  | seqLen (desc n : Nat)               -- SQWAIT: descriptor address and length
  | seqRetry (desc n at_ : Nat)         -- no sequence wait entry was free (spec/20 R404)
  | reserve (desc nres : Nat)           -- SQRSV: NRES must fall below
  | boarding (core : Nat)               -- a boarding of the port must be freed
  | restore                             -- pre-emption's restore (spec/21 R428)
deriving DecidableEq, Repr

/-- The life of a frame's continuation (spec/02 R50 to R52, spec/10 R208). -/
inductive Cont where
  | none | fresh | runnable | running | parked | trapped
deriving DecidableEq, Repr

/-- What a trap record needs of the fault (spec/21 R414). -/
structure TrapInfo where
  cause : BitVec 8 := 0
  flags : BitVec 8 := 0
  lane : BitVec 8 := 0
  fl : BitVec 8 := 0
  arg : BitVec 16 := 0
  parts : BitVec 32 := 0
  addr : BitVec 64 := 0
  under : BitVec 64 := 0
  /-- address recorded as IP, for a late fault that of its access -/
  ip : BitVec 32 := 0
  word : Word := 0
  dindex : BitVec 16 := 0xFFFF
deriving DecidableEq, Repr

/-- A frame beside its bytes (spec/02 R39). Slot data, saved registers, continuation word and trap record are bytes of
tile memory at frame × 0x800. -/
structure Frame where
  alloc : Bool := false
  opsl : BitVec 4 := 0
  col : BitVec 5 := 0
  wave : BitVec 16 := 0
  rtag : BitVec 16 := 0
  gen : BitVec 8 := 0
  present : BitVec 16 := 0
  tags : SMap Nat := []
  scales : SMap (BitVec 16) := []
  cursors : SMap Nat := []
  hdrs : SMap (BitVec 64) := []
  cont : Cont := .none
  wait : Wait := .nothing
  /-- a late fault marked it trapped while parked (spec/15 R302) -/
  lateMark : Bool := false
  /-- the trap was late: SKIP has no effect (spec/11 R239) -/
  trapLate : Bool := false
  /-- parcels of the trapped instruction (spec/11 R239) -/
  trapLen : Nat := 4
  readyAt : Nat := 0
  promoted : Option Nat := none
  inHeap : Bool := false
  aid : Nat := 0
  /-- the wait it parked on is over: its BARW has arrived, its WAITC's counts were met (spec/20 R393, R396) -/
  waitOver : Bool := false
  /-- late faults of its activation that wait for a boundary at which they can be taken (spec/15 R302, spec/21 R418) -/
  lates : List TrapInfo := []
  /-- the cause of its park was removed while a late fault marked it trapped: it is runnable after TRET whatever holds then (spec/15
  R302) -/
  removed : Bool := false
  /-- when it was last landed in or left by an activation (spec/14 R283) -/
  used : Nat := 0
deriving DecidableEq, Repr

/-- A hardware context (spec/10 R205). -/
structure Ctx where
  busy : Bool := false
  aid : Nat := 0
  frame : Nat := 0
  ip : BitVec 32 := 0
  col : BitVec 5 := 0
  wave : BitVec 16 := 0
  rtag : BitVec 16 := 0
  opsl : BitVec 4 := 0
  /-- 0: registers not listed read as after reset; otherwise they are undefined, of this epoch (spec/02 R50, R52) -/
  epoch : Nat := 0
  sregs : SMap Word := []
  vregs : SMap Vec := []
  preds : SMap Bool := []
  masks : SMap Word := []
  /-- outstanding loads of a register, in order of issue (spec/11 R220) -/
  pendS : SMap (List Nat) := []
  pendV : SMap (List Nat) := []
  issued : Nat := 0
  held : Bool := false
  waitOver : Bool := false
  /-- what a held instruction has decided or counted: whether a WAITC completes (1) or parks (2) once its loads are answered (spec/20 R393);
  how much a QFLUSH has removed (spec/17 R351) -/
  kept : Option Nat := none
  /-- its activation has ended, and its loads are still to be answered (spec/11 R236) -/
  ended : Bool := false
  /-- a purge with a cause has found it with loads to be answered: it issues nothing more and goes with its frame once they are (spec/17
  R347) -/
  stop : Option (BitVec 8) := none
  pend : Option TrapInfo := none
  word : Word := 0
  len : Nat := 4
  dindex : BitVec 16 := 0xFFFF
deriving DecidableEq, Repr

/-- An open outgoing record of the assembly pool (spec/16 R319). -/
structure OpenRec where
  aid : Nat := 0
  ch : Nat := 0
  beats : List Vec := []
  scales : List (BitVec 16) := []
  /-- which header fields HDR has set (spec/17 R336), in its AUX order, and their values -/
  hdrSet : BitVec 5 := 0
  hdrVal : BitVec 64 := 0
deriving DecidableEq, Repr

/-- A queued MMAT (spec/13 R266, R269). -/
structure Mmat where
  aid : Nat := 0
  acc : Nat := 0
  ty : Ty := .e4m3
  cb : Bool := false
  pa : Nat := 0
  pb : Nat := 0
  col : BitVec 5 := 0
  wave : BitVec 16 := 0
  rtag : BitVec 16 := 0
  /-- the region's codebook when it was accepted, with CB = 1 (spec/18 R360) -/
  book : SMap (BitVec 32) := []
deriving DecidableEq, Repr

/-- The owner tag of an accumulator or a top-k unit (spec/10 R209, spec/12 R260). -/
structure Owner where
  valid : Bool := false
  slot : BitVec 4 := 0
  col : BitVec 5 := 0
  wave : BitVec 16 := 0
  rtag : BitVec 16 := 0
  poisoned : Bool := false
deriving DecidableEq, Repr

/-- A top-k unit (spec/12 R260): its N entries by rank, and K. -/
structure TopK where
  entries : List (BitVec 32 × BitVec 32) := []
  k : Nat := 64
  owner : Owner := {}
deriving DecidableEq, Repr

/-- Skip state (spec/17 R333). -/
structure Skip where
  skc : Nat := 0
  nrec : Nat := 0
  cwave : BitVec 16 := 0
deriving DecidableEq, Repr

/-- A combined translation (spec/14 R292, R293). -/
structure TlbEntry where
  vmid : Nat := 0
  asid : Nat := 0
  gva : Nat := 0
  gpa : Nat := 0
  pa : Nat := 0
  size : Nat := 0x10000
  /-- size of the stage-2 page it came through (spec/18 R369 TLBINV) -/
  size2 : Nat := 0x10000
  ro : Bool := false
  nc : Bool := false
  seq : Bool := false
  sysatom : Bool := false
  dirty : Bool := false
deriving DecidableEq, Repr

/-- Gating of a tile (spec/22 R439, spec/02 R48). -/
inductive Gate where
  | awake | clock | power
  /-- waking from clock gating: clk of the core that are left -/
  | waking (left : Nat)
  /-- waking from power gating: elapsed nominal clk that are left -/
  | powering (left : Nat)
deriving DecidableEq, Repr

/-- A tile (spec/01 R16, spec/10 R209 to R218, spec/18 R352, spec/19 R380). -/
structure Tile where
  code : SMap Parcel := []
  codeLen : Nat := 0
  dict : SMap Word := []
  dictSize : Nat := 0
  handlers : SMap (BitVec 64) := []
  chans : SMap (BitVec 64) := []
  cherr : SMap Nat := []
  acc : SMap (BitVec 32) := []
  accTag : SMap Owner := []
  mmats : List Mmat := []
  topk : SMap TopK := []
  fctl : SMap (BitVec 12) := []
  fstat : SMap (BitVec 5) := []
  hmask : BitVec 16 := 0
  hbudget : Nat := 0x2000
  tokens : SMap (BitVec 2) := []
  pool : List OpenRec := []
  skips : SMap Skip := []
  owc : SMap (BitVec 16) := []
  /-- clk of the core at which the tile's copy of a colour's OWC last changed (spec/06 R131) -/
  owcAt : SMap Nat := []
  /-- first frame of each slot and colour's window (spec/02 R41) -/
  windows : SMap Nat := []
  rr : SMap Nat := []
  lastCtx : Nat := 0
  tlb : List TlbEntry := []
  gate : Gate := .awake
  idle : Nat := 0
  wake : List Transit := []
  replayn : BitVec 32 := 0
  repwin : Nat := 0
deriving DecidableEq, Repr

/-- A barrier (spec/19 R385). -/
structure Barrier where
  exp : Nat := 0
  arr : Nat := 0
  phase : BitVec 16 := 0
deriving DecidableEq, Repr

/-- States of a task control block (spec/06 R125). -/
inductive TcbSt where
  | named | waitpred | waitin | ready | issued | retired
deriving DecidableEq, Repr

/-- A task control block in use (spec/06 R125, spec/17 R338). `named`: taken for a decrement before its record came. -/
structure Tcb where
  raw : BitVec 512 := 0
  idx : Option Nat := none
  st : TcbSt := .named
  cnt : Int := 0
  col : BitVec 5 := 0
  wave : BitVec 16 := 0
  rtag : BitVec 16 := 0
  aid : Nat := 0
  tile : Nat := 0
  slot : BitVec 4 := 0
  readyAt : Nat := 0
  begun : Bool := false
  status : BitVec 8 := 0
  /-- decrements still to be applied (spec/17 R338) -/
  decs : List Nat := []
  /-- blocks of a REGION task still to be enqueued -/
  left : Nat := 0
  /-- of a branch not taken: SKIPPED once its record comes (spec/06 R128) -/
  skip : Bool := false
deriving DecidableEq, Repr

/-- A row of an A slot (spec/13 R275). -/
structure ARow where
  /-- a record suppressed by skip coding: its C row is left unchanged (spec/04 R95) -/
  skip : Bool := false
  rtag : BitVec 16 := 0
  col : BitVec 5 := 0
  data : List Vec := []
deriving DecidableEq, Repr

/-- A copy on a streamer channel (spec/17 R342). -/
structure Copy where
  id : Nat := 0
  tpl : Nat := 0
  count : Nat := 0
  offset : Nat := 0
  reserved : Bool := false
  region : Nat := 0
  col : BitVec 5 := 0
  wave : BitVec 16 := 0
  rtag : BitVec 16 := 0
  token : Option (Nat × Nat) := none
  task : Option Nat := none
  started : Bool := false
  beat : Nat := 0
  beats : Nat := 0
  finished : Bool := false
  err : BitVec 8 := 0
  sink : Bool := false
  /-- the B slot that it fills: core, island, slot -/
  bslot : Option (Nat × Nat × Nat) := none
deriving DecidableEq, Repr

/-- A B slot (spec/13 R275): its tag when it holds a tile, whether it is consumed, its bytes. -/
structure BSlot where
  tag : Option (Nat × Nat × Nat × Nat) := none
  consumed : Bool := true
  writing : Bool := false
  data : SMap Byte := []
  /-- streamer core, channel and copy that filled it, for the rerun of spec/13 R281 -/
  byCopy : Option (Nat × Nat × Copy) := none
deriving DecidableEq, Repr

/-- An island (spec/13 R275, spec/15 R313). -/
structure Island where
  aRows : SMap ARow := []
  bSlots : SMap BSlot := []
  banks : SMap (BitVec 32) := []
  bankTag : SMap Owner := []
  fill : SMap (Nat × Nat) := []
  claims : SMap (List (BitVec 5 × BitVec 16)) := []
deriving DecidableEq, Repr

/-- States of a boarding (spec/07 R151). -/
inductive BrdSt where
  | armed | active | waitlap | done | faulted
deriving DecidableEq, Repr

/-- A boarding (spec/07 R145 to R151). -/
structure Boarding where
  word : Word := 0
  region : Nat := 0
  col : BitVec 5 := 0
  wave : BitVec 16 := 0
  rtag : BitVec 16 := 0
  st : BrdSt := .armed
  slice : Nat := 0
  kblk : Nat := 0
  missw : Nat := 0
  mlaps : Nat := 0
  cause : BitVec 8 := 0
  /-- armed before the lead point of the lap in progress, so that it boards in it (spec/07 R147) -/
  boards : Bool := false
  /-- in the lap in progress: a tile was accepted, a due tile came, the colour was frozen -/
  accepted : Bool := false
  due : Bool := false
  frozenLap : Bool := false
  /-- restored: it boards again under spec/07 R147 -/
  again : Bool := false
deriving DecidableEq, Repr

/-- An accepted ring tile on its way into a B slot (spec/07 R148): island and slot, tile of the image, the boarding's number and
generation, and its expected position before it. -/
structure Arrival where
  isl : Nat := 0
  slot : Nat := 0
  tile : Nat := 0
  board : Nat := 0
  gen : BitVec 8 := 0
  slice : Nat := 0
  kblk : Nat := 0
  last : Bool := false
  /-- freed untagged, after a damaged tile of the same boarding (spec/07 R155) -/
  void : Bool := false
deriving DecidableEq, Repr

/-- A port at the start of the clk in which the heads of a row of tiles reach it (spec/07 R148): the B slots that may be filled, with their
claims, less those filled in that clk; the island of each tile that is being written. -/
structure RowAt where
  slots : List (Nat × Nat × List (BitVec 5 × BitVec 16)) := []
  writing : List Nat := []
deriving DecidableEq, Repr

/-- A core (spec/01 R15). -/
structure Core where
  region : Option Nat := none
  barriers : SMap Barrier := []
  tcbs : SMap Tcb := []
  islands : SMap Island := []
  copies : SMap (List Copy) := []
  /-- channel of each streamer whose copy has moved the last beat (spec/16 R322) -/
  turns : SMap Nat := []
  templates : SMap (BitVec 256) := []
  nTemplates : Nat := 0
  /-- the core's task table, and how many of its tasks are loaded (spec/18 R352, R362) -/
  tasks : SMap (BitVec 512) := []
  nTasks : Nat := 0
  boards : SMap Boarding := []
  boardGen : SMap (BitVec 8) := []
  /-- tiles of the lap that the port has dealt with (spec/07 R137) -/
  seen : Nat := 0
  /-- the port, while the heads of one row are taken (spec/07 R148) -/
  row : Option RowAt := none
  arriving : List Arrival := []
  tlb : List TlbEntry := []
  step : Nat := 16
  stepAt : Nat := 0
  halted : Bool := false
  temp : Nat := 25
  /-- nominal clk spent at each step below 16 and not yet charged (spec/06 R136) -/
  throttled : SMap Nat := []
  /-- sixteenths of a clk that throttling has taken from the core's own clock (spec/00 R4) -/
  lost : Nat := 0
deriving DecidableEq, Repr

/-- A chain access's number, as the replay buffer keeps it (spec/05 R105). -/
structure ChainItem where
  seq : Nat := 0
  sd : Nat := 0
  acc : Nat := 0
  performed : Bool := false
deriving DecidableEq, Repr

/-- A chain (spec/05 R104): accesses arrived, in order of arrival; closed after SD = last. -/
structure Chain where
  col : BitVec 5 := 0
  wave : BitVec 16 := 0
  sub : Nat := 0
  items : List ChainItem := []
  closed : Bool := false
deriving DecidableEq, Repr

/-- A record in a spill ring, with the place it is bound for (spec/16 R320). -/
structure Spill where
  tr : Transit := {}
  /-- the ring's entry that holds it (spec/16 R320) -/
  entry : Nat := 0
  /-- held by a poison mark, never replayed until RESUME (spec/21 R419) -/
  frozen : Bool := false
deriving DecidableEq, Repr

/-- What a region keeps of one colour (spec/19 R383). -/
structure Colour where
  nxw : BitVec 16 := 0
  owc : BitVec 16 := 0
  livea : Nat := 0
  q : Nat := 0
  stalew : Nat := 0
  frozen : Bool := false
  closed : Bool := false
  spill : List Spill := []
  wdog : Nat := 0
  /-- retired waves that OWC has not passed yet (spec/02 R42) -/
  gone : List (BitVec 16) := []
deriving DecidableEq, Repr

/-- A launch placed on a region, or waiting at March (spec/16 R327). -/
structure Launch where
  id : Nat := 0
  part : Nat := 0
  cls : Nat := 0
  col : BitVec 5 := 0
  graph : BitVec 16 := 0
  rtag : BitVec 16 := 0
  admits : Nat := 0
  tasks : Nat := 0
  cost : Nat := 0
  compl : Word := 0
  qvmid : Nat := 0
  inptr : Word := 0
  instride : Nat := 0
  outptr : Word := 0
  outstride : Nat := 0
  levels : List (Nat × Nat × Nat) := []
  /-- the STATUS that its completion will carry: a purge's cause (spec/17 R347) -/
  cause : BitVec 8 := 0
  admitted : Nat := 0
  retired : Nat := 0
deriving DecidableEq, Repr

/-- An admission of a launch (spec/06 R130, spec/22 R441, R442). -/
structure Adm where
  launch : Nat := 0
  idx : Nat := 0
  col : BitVec 5 := 0
  wave : BitVec 16 := 0
  rtag : BitVec 16 := 0
  /-- records written per exit channel -/
  wrote : SMap Nat := []
  bytes : Nat := 0
  left : Bool := false
deriving DecidableEq, Repr

/-- A poison mark at an operator (spec/21 R419): a handler slot of a tile, or a fixed operator of the region. -/
structure Mark where
  fixed : Bool := false
  tile : Nat := 0
  op : Nat := 0
  col : BitVec 5 := 0
  wave : BitVec 16 := 0
deriving DecidableEq, Repr

/-- State a fixed operator keeps for one colour and wave (spec/02 R26). -/
structure Node where
  op : Nat := 0
  col : BitVec 5 := 0
  wave : BitVec 16 := 0
  /-- counter: data records of the K-step in progress, K-steps of the row in progress, rows ended -/
  recs : Nat := 0
  kstep : Nat := 0
  row : Nat := 0
  /-- request tag of the wave's data records (spec/02 R30) -/
  rtag : BitVec 16 := 0
  /-- steer: data records and predicates that wait for their partners -/
  dataQ : List Transit := []
  predQ : List Transit := []
deriving DecidableEq, Repr

/-- A bound record that a counter node has taken: the wave from which it governs (none: every live wave), KS and ROWS, 0 for an old
value kept (spec/02 R26). -/
structure Bound where
  op : Nat := 0
  col : BitVec 5 := 0
  wave : Option (BitVec 16) := none
  ks : Nat := 0
  rows : Nat := 0
deriving DecidableEq, Repr

/-- A result that a memory operator or remote-scratchpad node has ready to send (spec/02 R26). -/
structure OpOut where
  op : Nat := 0
  rc : Rec := {}
deriving DecidableEq, Repr

/-- An accepted reconfiguration (spec/02 R59, spec/18 R358): its colours, effective waves and new entries. -/
structure Reconf where
  cmask : BitVec 32 := 0
  eff : BitVec 512 := 0
  /-- table, RCORE, tile, index, entry -/
  entries : List (Nat × Nat × Nat × Nat × BitVec 256) := []
deriving DecidableEq, Repr

/-- A region (spec/18 R352, R355, spec/19 R383). -/
structure Region where
  st : Nat := 0
  trapv : Bool := false
  logws : Nat := 0
  trapTile : Nat := 0
  trapSlot : Nat := 0
  trapCore : Nat := 0
  graph : BitVec 16 := 0
  cores : List Nat := []
  subsc : BitVec 48 := 0
  die : Nat := 0
  heap : BitVec 64 := 0
  spill : BitVec 64 := 0
  colours : SMap (BitVec 256) := []
  fixed : SMap (BitVec 256) := []
  codebook : SMap (BitVec 32) := []
  cols : SMap Colour := []
  linklate : Nat := 0
  chains : List Chain := []
  marks : List Mark := []
  nodes : List Node := []
  /-- bound records of counter nodes, in order of arrival -/
  bounds : List Bound := []
  outs : List OpOut := []
  /-- skip state of the fixed operators that send on SKIPZ channels, by channel, colour and wave mod W (spec/04 R95) -/
  skips : SMap Skip := []
  reconfs : List Reconf := []
  launches : List Launch := []
  adms : List Adm := []
  /-- circuits by number, with the cores that each joins (spec/08 R157) -/
  circuits : SMap (List Nat) := []
deriving DecidableEq, Repr

/-- Kinds of outstanding access (spec/15 R297). -/
inductive AccKind where
  | ld | st | vld | vst | vldg | vsts | stef | stf | vstf | feget | feset | null
  /-- the place of a synchronising load or chained atomic in its chain (spec/05 R106) -/
  | sync
deriving DecidableEq, Repr

/-- One element of an access: its lane, its virtual address and where it is performed. -/
structure Elem where
  lane : Nat := 0
  gva : Nat := 0
  pa : Nat := 0
  seqPage : Bool := false
  /-- its page is marked NC (spec/14 R286, R295) -/
  nc : Bool := false
deriving DecidableEq, Repr

/-- An access issued and not yet performed or answered (spec/05 R106, spec/15 R305). -/
structure Access where
  /-- the message that takes it to a home outside its core (spec/01 R18, spec/08 R162) -/
  ride : Ride := .none
  id : Nat := 0
  aid : Nat := 0
  tile : Nat := 0
  ctx : Nat := 0
  /-- frame of the activation that issued it -/
  frame : Nat := 0
  region : Nat := 0
  part : Nat := 0
  col : BitVec 5 := 0
  wave : BitVec 16 := 0
  rtag : BitVec 16 := 0
  opsl : BitVec 4 := 0
  kind : AccKind := .null
  ts : Bool := false
  bytes : Nat := 1
  sx : Bool := false
  /-- it writes memory (spec/05 R116 NOTHINAIR) -/
  wr : Bool := false
  elems : List Elem := []
  data : Vec := 0
  dst : Nat := 0
  acquire : Bool := false
  release : Bool := false
  seq : Nat := 0
  pd : Nat := 0
  sd : Nat := 0
  sub : Nat := 0
  /-- released by the replay buffer (spec/05 R105) -/
  freed : Bool := true
  /-- a STEF that waits at the scratchpad, or one refused a wait entry until a time (spec/15 R307, R308) -/
  waiting : Bool := false
  resendAt : Nat := 0
  word : Word := 0
  ip : BitVec 32 := 0
  dindex : BitVec 16 := 0xFFFF
deriving DecidableEq, Repr

/-- The value of a load that its home outside the core has performed, on its way back (spec/01 R18, spec/08 R162). -/
structure Reply where
  acc : Access := {}
  val : Nat := 0
  ride : Ride := .fresh
deriving DecidableEq, Repr

/-- What an engine, or an instruction that holds its activation, has asked of homes outside its core (spec/08 R162): whose it is, the numbers
of the messages that must still be delivered, and whether they are the answers. -/
structure Trip where
  who : List Nat := []
  /-- node that asks -/
  src : Nat := 0
  region : Option Nat := none
  aid : Nat := 0
  part : Nat := 16
  col : BitVec 5 := 0
  wave : BitVec 16 := 0
  rtag : BitVec 16 := 0
  nums : List Nat := []
  back : Bool := false
  lost : Bool := false
deriving DecidableEq, Repr

/-- A table walk in flight (spec/14 R293). -/
structure Walk where
  tile : Nat := 0
  /-- tiles of the die whose accesses wait for it, beside the first -/
  also : List Nat := []
  vmid : Nat := 0
  asid : Nat := 0
  gva : Nat := 0
  write : Bool := false
deriving DecidableEq, Repr

/-- Counts and mode of a 64 KiB page of HBM (spec/14 R295). -/
structure PageMode where
  replicated : Bool := false
  reads : Nat := 0
  writes : Nat := 0
deriving DecidableEq, Repr

/-- A line of an L2 slice or of a die's gateway cache (spec/14 R286, R287): it is listed while it is valid. Its bytes are those of
memory, since every write is performed at the home (spec/05 R100). -/
structure Line where
  /-- the die whose gateway cache holds it; none: the L2 slice of its home -/
  gw : Option Nat := none
  /-- physical address / 128 -/
  num : Nat := 0
  dirty : Bool := false
  /-- 32 B sectors that are valid -/
  sectors : BitVec 4 := 0
  /-- partition, colour and request tag of the agent that last wrote it -/
  part : Nat := 16
  col : BitVec 5 := 0
  rtag : BitVec 16 := 0
deriving DecidableEq, Repr

/-- The agent that makes an access at a home: its partition, colour and request tag (spec/14 R287), its die (4: no compute die), and
whether the page is marked NC. -/
structure By where
  part : Nat := 16
  col : BitVec 5 := 0
  rtag : BitVec 16 := 0
  die : Nat := 4
  nc : Bool := false
deriving DecidableEq, Repr

/-- A page on its way to a slice its partition keeps (spec/14 R296). -/
structure Migration where
  part : Nat := 0
  vmid : Nat := 0
  gpa : Nat := 0
  src : Nat := 0
  dst : Nat := 0
  size : Nat := 0x10000
  dirty : List Nat := []
  committed : Bool := false
deriving DecidableEq, Repr

/-- The copy of a fork's partial segment (spec/20 R406). -/
structure Fork where
  id : Nat := 0
  aid : Nat := 0
  part : Nat := 0
  handle : Nat := 0
  src : Nat := 0
  dst : Nat := 0
  bytes : Nat := 0
deriving DecidableEq, Repr

/-- A ring of items the hub writes and firmware reads (spec/21 R422, R423). -/
structure Ring16 where
  base : Nat := 0
  size : Nat := 0
  head : BitVec 32 := 0
  tail : BitVec 32 := 0
  lost : Nat := 0
deriving DecidableEq, Repr

/-- How far pre-emption of a partition has got (spec/21 R427, R429, R430). -/
inductive Phase where
  | run | halting | saved
deriving DecidableEq, Repr

/-- What pre-emption saves of a partition (spec/21 R429). -/
structure Saved where
  ctxs : SMap Ctx := []
  frames : SMap Frame := []
  tiles : SMap Tile := []
  cores : SMap Core := []
  regions : SMap Region := []
  tmem : List Host.Cell := []
  transit : List Transit := []
  accesses : List Access := []
  replies : List Reply := []
  trips : List Trip := []
  entries : List Nat := []
deriving DecidableEq, Repr

/-- A partition (spec/02 R22). -/
structure Part where
  wholeFrozen : Bool := false
  phase : Phase := .run
  /-- a tenant reset has been asked for and has not ended (spec/21 R430) -/
  resetting : Bool := false
  save : Option Saved := none
  savePa : Nat := 0
  rpt : Ring16 := {}
  log : Ring16 := {}
  seqBase : Nat := 0
  seqCount : Nat := 0
  poolBase : Nat := 0
  poolSegs : Nat := 0
  poolMap : Nat := 0
  poolFree : List Nat := []
  share : Nat := 1
  deficit : SMap Int := []
  debt : Nat := 0
  avoid : List Nat := []
  snapTarget : Nat := 0
  /-- tag, and physical address of the word, of a running SNAP -/
  snap : Option (BitVec 8 × Nat) := none
  /-- what the SNAP captured -/
  snapshot : List Host.Cell := []
  /-- and the word states of the partition's scratchpads -/
  snapFe : SMap (BitVec 2) := []
  snapped : Option Saved := none
  dumpBase : Nat := 0
  dumpSize : Nat := 0
deriving DecidableEq, Repr

/-- The weight ring (spec/07 R143, R152 to R154). -/
structure RingSt where
  images : SMap (BitVec 512) := []
  /-- writes that wait for the next lap boundary (spec/07 R143) -/
  pending : SMap (BitVec 512) := []
  cur : Nat := 0
  running : Bool := false
  pace : Nat := 16
  minPace : Nat := 4
  paceEff : Nat := 16
  lead : Nat := 2
  holdb : SMap (BitVec 16) := []
  holdLeft : SMap (BitVec 16) := []
  lapn : SMap (BitVec 32) := []
  corrt : SMap (BitVec 32) := []
  under : SMap (BitVec 32) := []
  lapUnder : Bool := false
  /-- clk left of the hold in force, and the holds asked for: boarding (core × 16 + number) and clk -/
  hold : Option Nat := none
  want : List (Nat × Nat) := []
  /-- sixteenths of a beat slot that the lanes have advanced in the lap (spec/07 R138) -/
  pos : Nat := 0
  /-- boardings for whose due heads AUTOHOLD has asked in the lap, with the tile of each -/
  asked : List (Nat × Nat) := []
  /-- boardings that asked for the hold in force, and where the last hold ended -/
  holders : List Nat := []
  heldAt : Option Nat := none
  /-- stations that have not staged their next tile at the boundary where they stop the lanes (spec/07 R153) -/
  stalled : List Nat := []
  /-- stations that have not staged their next tile and whose boundary is still to come -/
  late : List Nat := []
deriving DecidableEq, Repr

/-- A fragment that waits in a decode entry (spec/08 R163). -/
structure Frag where
  index : Nat := 0
  data : Vec := 0
deriving DecidableEq, Repr

/-- A decode buffer entry (spec/08 R171). -/
structure DecEntry where
  src : Nat := 0
  dst : Nat := 0
  cls : Nat := 0
  id : Nat := 0
  stripe : Nat := 0
  k : Nat := 1
  m : Nat := 1
  /-- valid bytes of data fragment k − 1 -/
  last : Nat := 0
  rtag : BitVec 16 := 0
  col : BitVec 5 := 0
  frags : List Frag := []
  started : Nat := 0
  /-- decode timeout in nominal clk, as it stood when the message was encoded (spec/08 R167) -/
  decto : Nat := 0
  nacked : Bool := false
deriving DecidableEq, Repr

/-- A completed stripe of a message that is not yet whole (spec/08 R165): its bytes, without the padding of the last fragment. -/
structure Stripe where
  src : Nat := 0
  dst : Nat := 0
  cls : Nat := 0
  id : Nat := 0
  rtag : BitVec 16 := 0
  col : BitVec 5 := 0
  num : Nat := 0
  last : Bool := false
  data : List Byte := []
deriving DecidableEq, Repr

/-- What a die last reported to March, per core (spec/06 R123). -/
structure Report where
  free : Nat := 512
  temp : Nat := 25
  step : Nat := 16
deriving DecidableEq, Repr

/-- What the delivery of a message brings about: the access or record that bears its number may go on; a load's value is answered; a die's
report reaches March; a peer has the record. -/
inductive What where
  | peer
  | request
  | reply
  | report (die : Nat) (cores : SMap Report) (live : SMap Nat)
deriving DecidableEq, Repr

/-- A message in a retransmit buffer (spec/08 R173 to R175). -/
structure Msg where
  /-- its number in the model -/
  num : Nat := 0
  id : Nat := 0
  cls : Nat := 0
  src : Nat := 0
  dst : Nat := 0
  region : Option Nat := none
  /-- activation that it serves -/
  aid : Nat := 0
  col : BitVec 5 := 0
  wave : BitVec 16 := 0
  rtag : BitVec 16 := 0
  /-- KMAX and m when its first fragment was encoded, and the decode timeouts of its source's and destination's dies then, in nominal clk
  (spec/08 R167) -/
  kmax : Nat := 1
  m : Nat := 1
  decto : Nat := 0
  dectoAt : Nat := 0
  payload : List Vec := []
  bytes : Nat := 64
  retx : Bool := false
  sentAt : Nat := 0
  /-- device number of the peer it is sent to, and the ports it may spray over (spec/22 R434) -/
  peer : Nat := 0
  ports : Nat := 0
  /-- the peer's Ethernet address and endpoint (spec/22 R434) -/
  mac : BitVec 48 := 0
  pep : BitVec 16 := 0
  what : What := .peer
  /-- it has been delivered -/
  done : Bool := false
deriving DecidableEq, Repr

/-- A fragment on its way (spec/08 R159, R160, R163): a flit with its header, payload and check, the die that it left last (4: the hub die),
and the path that it takes. -/
structure Flight where
  hdr : BitVec 128 := 0
  data : Vec := 0
  crc : BitVec 32 := 0
  at_ : Nat := 0
  path : Nat := 0
deriving DecidableEq, Repr

/-- An acknowledgement that a destination owes: destination and source node, class and id, since when (spec/08 R173). -/
structure Owing where
  dst : Nat := 0
  src : Nat := 0
  cls : Nat := 0
  id : Nat := 0
  since : Nat := 0
deriving DecidableEq, Repr

/-- An acknowledgement or a NACK on its way to the source node that it names (spec/08 R173, R174). -/
inductive Sig where
  | ack (src : Nat) (ids : List (Nat × Nat))
  | nack (src cls id : Nat) (final : Bool)
deriving DecidableEq, Repr

/-- A message delivered at a node of this device (spec/08 R172). -/
structure Deliv where
  src : Nat := 0
  dst : Nat := 0
  cls : Nat := 0
  id : Nat := 0
  data : List Byte := []
deriving DecidableEq, Repr

/-- The fabric of one die, 4 for the hub die (spec/08 R166, R171 to R177). -/
structure Fabric where
  coderate : SMap (BitVec 32) := []
  lean : Bool := false
  latedrop : BitVec 32 := 0
  fragerr : BitVec 32 := 0
  decfull : BitVec 32 := 0
  nacks : BitVec 32 := 0
  retxn : BitVec 32 := 0
  msgloss : BitVec 32 := 0
  entries : List DecEntry := []
  /-- retired filter: source, class, id, and when the id leaves -/
  retired : List (Nat × Nat × Nat × Nat) := []
  acks : List Owing := []
  /-- acknowledgements and NACKs bound for sources of this die -/
  sigs : List Sig := []
  msgs : List Msg := []
  nextMsg : SMap (BitVec 32) := []
  spray : SMap Word := []
  /-- stripes completed of messages that are not yet whole -/
  parts : List Stripe := []
  /-- messages delivered that no unit of the model takes: those of peers -/
  inbox : List Deliv := []
deriving DecidableEq, Repr

/-- A host command queue (spec/16 R323): its descriptor in hypervisor memory, and whether it is mapped. -/
structure Queue where
  desc : BitVec 512 := 0x60000000000000000#512
  mapped : Bool := false
deriving DecidableEq, Repr

/-- The hub (spec/06 R124, spec/19 R389, spec/21 R425, spec/22 R435 to R440). -/
structure Hub where
  placeTh : Nat := 85
  throtTh : Nat := 95
  ptr : SMap Nat := []
  queues : SMap (List Launch) := []
  reports : SMap Report := []
  /-- live admissions last reported, by region × 32 + colour, and launches placed since -/
  live : SMap Nat := []
  timingTh : Nat := 64
  wdogTh : Nat := 0x1000000
  tileCg : Nat := 256
  tilePg : Nat := 0x100000
  replTh : Nat := 256
  /-- replay windows of each die that have ended (spec/19 R389) -/
  windows : SMap Nat := []
  /-- when each die last reported (spec/06 R123), and when page counts were last cleared (spec/14 R295) -/
  reportAt : SMap Nat := []
  /-- free task control blocks of each core when its die last reported (spec/06 R123) -/
  sentFree : SMap Nat := []
  /-- live admissions of each region and colour in the last report (spec/06 R123) -/
  sentLive : SMap Nat := []
  pageAt : Nat := 0
  halted : Bool := false
  railerr : Bool := false
  bootport : Nat := 0
  devnum : Nat := 0
  stage : Nat := 1
  portup : BitVec 12 := 0
  portdrop : SMap (BitVec 32) := []
  nextLaunch : Nat := 0
  ready : Bool := false
deriving DecidableEq, Repr

/-- A move of the environment: an event of the table with its data, an idle clk, a bit of a travelling header
flipped (spec/02 R37), a byte made uncorrectable (spec/21 R424). -/
inductive Move where
  | ev (i : Instr)
  | clk
  | flip (n bit : Nat)
  | upset (pa : Nat)
  /-- a valid line leaves its cache (spec/14 R282, R287) -/
  | evict (n : Nat)
  /-- a fragment is lost on its path, or comes round to its source, which discards it (spec/08 R159) -/
  | lose (n : Nat)
  /-- an acknowledgement or NACK bound for a die is lost (spec/08 R175) -/
  | loseSig (d n : Nat)
  /-- the least recently used frame of a tile that is not pinned goes to the heap (spec/14 R283) -/
  | evictFrame (t : Nat)
  /-- a station of the ring has staged its next tile (spec/07 R153) -/
  | staged (station : Nat)
deriving DecidableEq, Repr

/-- A purge that the hub owes: a region without a trap operator has raised a trap record (spec/21 R417). -/
structure Owed where
  region : Nat := 0
  part : Nat := 0
  col : BitVec 5 := 0
  rtag : BitVec 16 := 0
  cause : BitVec 8 := 0
deriving DecidableEq, Repr

/-- The whole machine. Every field is plain data. -/
structure State where
  focus : Nat := 0
  agenda : List Move := []
  turn : Bool := false
  now : Nat := 0
  nextId : Nat := 1
  free : Nat := 1
  fwRead : Word := 0
  ctxs : SMap Ctx := []
  frames : SMap Frame := []
  tiles : SMap Tile := []
  cores : SMap Core := []
  regions : SMap Region := []
  parts : SMap Part := []
  cyc : SMap Word := []
  mem : List Host.Cell := []
  tmem : List Host.Cell := []
  fe : SMap (BitVec 2) := []
  uce : List Nat := []
  /-- lines of the L2 slices and gateway caches, in order of their fills -/
  lines : List Line := []
  /-- dirty lines that left their caches with an uncorrectable error, which the hub has still to charge (spec/21 R424) -/
  reveals : List Line := []
  pages : SMap PageMode := []
  accesses : List Access := []
  replies : List Reply := []
  trips : List Trip := []
  walks : List Walk := []
  transit : List Transit := []
  migs : List Migration := []
  forks : List Fork := []
  ring : RingSt := {}
  fabric : SMap Fabric := []
  flights : List Flight := []
  queues : SMap Queue := []
  vmids : SMap (BitVec 128) := []
  ownCore : SMap Nat := []
  ownSlice : SMap Nat := []
  ownSram : SMap Nat := []
  hub : Hub := {}
  purges : List Owed := []
  dropped : List Nat := []
  answers : List (Nat × BitVec 8 × List Byte) := []
deriving DecidableEq, Repr

/-- The machine right after reset: every field at the value the spec states, and where it states none at the value
that INVENTORY.md and the assumption log name. -/
def State.reset : State := {}

/-- Why a step of the machine stops. -/
inductive Fault where
  /-- Raised by a step whose agenda holds no event (an instruction put where an event belongs). No run of the
  hardware reaches it: safe. -/
  | notAnEvent
deriving DecidableEq, Repr

/-- Why the model has no meaning to give. -/
inductive Refusal where
  /-- Raised by Dispatch for an instruction that has no meaning yet, with its mnemonic: safe. -/
  | notModelled (mnemonic : String)
deriving DecidableEq, Repr

end Sys2Proof.Machine
end

