-- ==== Sys2Proof/Machine/Store.lean ====
section
/-!
DEFINITION. Machine/Store.lean: sparse tables and memory as lists in one canonical form, little-endian reads and
writes of several bytes (spec/00 R5), and small list helpers.
-/

namespace Sys2Proof.Machine

/-- The entry of a key, if the table lists it. -/
def lget? {α : Type} : SMap α → Nat → Option α
  | [], _ => none
  | (j, v) :: m, k => if j = k then some v else lget? m k

/-- The entry of a key, or the value unlisted keys read as. -/
def lget {α : Type} (d : α) (m : SMap α) (k : Nat) : α := (lget? m k).getD d

/-- The table with one entry set; keys stay in rising order. -/
def lset {α : Type} : SMap α → Nat → α → SMap α
  | [], k, v => [(k, v)]
  | (j, w) :: m, k, v =>
    if k < j then (k, v) :: (j, w) :: m
    else if k = j then (k, v) :: m
    else (j, w) :: lset m k v

/-- The table without a key. -/
def ldel {α : Type} (m : SMap α) (k : Nat) : SMap α := m.filter (fun e => e.1 != k)

/-- One byte of memory. An unlisted address reads as zero: every memory of the part is zero at reset, or cleared by
boot before any partition exists (spec/14 R282). -/
def mget (m : List Host.Cell) (a : Nat) : Byte := lget 0 m a

/-- Memory with one byte written. A byte that reads as an unlisted one is not listed, so equal memories are equal lists. -/
def mput (m : List Host.Cell) (a : Nat) (v : Byte) : List Host.Cell :=
  if v = 0 then ldel m a else lset m a v

/-- The canonical form: addresses strictly rising, and no entry equal to what an unlisted address reads as. -/
abbrev Memory.wf (m : List Host.Cell) : Prop :=
  m.Pairwise (fun a b => a.1 < b.1) ∧ ∀ e ∈ m, e.2 ≠ 0

/-- `n` bytes from an address upward as one little-endian number (spec/00 R5). -/
def mread (m : List Host.Cell) (a : Nat) : Nat → Nat
  | 0 => 0
  | n + 1 => (mget m a).toNat + 256 * mread m (a + 1) n

/-- The low `n` bytes of a number written from an address upward (spec/00 R5). -/
def mwrite (m : List Host.Cell) (a : Nat) : Nat → Nat → List Host.Cell
  | 0, _ => m
  | n + 1, v => mwrite (mput m a (BitVec.ofNat 8 v)) (a + 1) n (v / 256)

/-- `n` bytes from an address set to one value. -/
def mfill (m : List Host.Cell) (a : Nat) (v : Byte) : Nat → List Host.Cell
  | 0 => m
  | n + 1 => mfill (mput m a v) (a + 1) v n

/-- Bytes written one after the other. -/
def mbytes (m : List Host.Cell) (a : Nat) : List Byte → List Host.Cell
  | [] => m
  | b :: bs => mbytes (mput m a b) (a + 1) bs

/-- Memory without the bytes of [a, a + n), which then read as zero (a scrub, spec/14 R290). -/
def mscrub (m : List Host.Cell) (a n : Nat) : List Host.Cell :=
  m.filter (fun e => !(a ≤ e.1 && e.1 < a + n))

/-- The bytes of [a, a + n) that are listed, moved to [b, b + n). -/
def mcopy (m : List Host.Cell) (a b n : Nat) : List Host.Cell :=
  (m.filter (fun e => a ≤ e.1 && e.1 < a + n)).foldl (fun acc e => mput acc (b + (e.1 - a)) e.2) (mscrub m b n)

/-- Removes the element at an index. -/
def dropAt {α : Type} : List α → Nat → List α
  | [], _ => []
  | _ :: l, 0 => l
  | x :: l, n + 1 => x :: dropAt l n

/-- Replaces the element at an index. -/
def setAt {α : Type} : List α → Nat → α → List α
  | [], _, _ => []
  | _ :: l, 0, v => v :: l
  | x :: l, n + 1, v => x :: setAt l n v

/-- The least index from 0 at which a test holds. -/
def firstIdx {α : Type} (f : α → Bool) (l : List α) : Option Nat :=
  let n := (l.takeWhile (fun x => !f x)).length
  if n < l.length then some n else none

/-- The least of 0 to n − 1 that no listed key takes. -/
def firstFree {α : Type} (m : SMap α) (n : Nat) : Option Nat :=
  (List.range n).find? (fun k => (lget? m k).isNone)

/-- Bits [lo + len − 1 : lo] of a number. -/
def bits (v lo len : Nat) : Nat := (v >>> lo) % 2 ^ len

/-- Bit n of a number. -/
def bit (v n : Nat) : Bool := v.testBit n

/-- Signed 16-bit difference of two waves (spec/02 R33). -/
def waveDiff (w b : BitVec 16) : Int := (w - b).toInt

/-- The bytes of a number, least significant first. -/
def toBytes : Nat → Nat → List Byte
  | 0, _ => []
  | n + 1, v => BitVec.ofNat 8 v :: toBytes n (v / 256)

/-- XOR of all bits of a number below bit n. -/
def parity (v : Nat) : Nat → Bool
  | 0 => false
  | n + 1 => xor (v.testBit n) (parity v n)

end Sys2Proof.Machine
end

