-- ==== Sys2Proof/WellFormed.lean ====
section
/-!
DEFINITION. WellFormed.lean: which terms of Instr the formats and the instruction descriptions admit. A term that
fails is an encoding that traps ILL (spec/09 R200); the decoder refuses it. Events are well formed whatever they
carry: an event that finds nothing to act on changes nothing.
-/

namespace Sys2Proof

/-- Width in bits of an element type (spec/04 R79, R80). -/
def Ty.width : Ty → Nat
  | .i8 | .n8 | .e4m3 => 8
  | .i16 | .n16 | .fp16 | .bf16 => 16
  | .i32 | .n32 | .f32 => 32
  | .i64 | .n64 | .f64 => 64

/-- Lanes of a vector of an element type (spec/12 R241). -/
def Ty.lanes (t : Ty) : Nat := 512 / t.width

/-- Signed integer types (spec/04 R80). -/
def Ty.signed : Ty → Bool
  | .i8 | .i16 | .i32 | .i64 => true
  | _ => false

namespace WF

/-- The class int of spec/12 R241. -/
def isInt : Ty → Bool
  | .i8 | .i16 | .i32 | .n8 | .n16 | .n32 => true
  | _ => false

/-- The class float of spec/12 R241. -/
def isFloat : Ty → Bool
  | .fp16 | .bf16 | .f32 => true
  | _ => false

/-- The classes int and float. -/
def intOrFloat (t : Ty) : Bool := isInt t || isFloat t

/-- The class any of spec/12 R241. -/
def isVec (t : Ty) : Bool := intOrFloat t || t == .e4m3

/-- The types of scalar floating point (spec/11 R226). -/
def scalarFloat (t : Ty) : Bool := t == .f32 || t == .f64

/-- SAT 0b10 is refused on a result that is not E4M3 (spec/09 R193). -/
def satFloat (s : Sat) : Bool := s != .nan

/-- SAT of an instruction that rounds to E4M3 (spec/09 R193). -/
def satE4M3 (s : Sat) : Bool := s == .sat || s == .nan

/-- ROUND and SAT of a vector instruction with an int or float result (spec/12 R243). -/
def roundOk (t : Ty) (r : Rnd) (s : Sat) : Bool :=
  if isInt t then r == .rne && s != .nan else satFloat s

/-- BFX and BFI (spec/11 R225). -/
def fieldOk (pos : BitVec 6) (len : BitVec 7) : Bool :=
  1 ≤ len.toNat && len.toNat ≤ 64 && pos.toNat + len.toNat ≤ 64

/-- MFS: a numbered register; AUX[2:0] only for LAPN (spec/10 R212, R217). -/
def mfsOk (sr : BitVec 6) (entry : BitVec 3) : Bool :=
  sr.toNat < 15 && (entry == 0 || sr == 13)

/-- MTS: a numbered register that is not RO (spec/10 R212). -/
def mtsOk (sr : BitVec 6) : Bool := 9 ≤ sr.toNat && sr.toNat ≤ 12

/-- The types FCVT converts between (spec/11 R229). -/
def fcvtTy (t : Ty) : Bool :=
  t == .i32 || t == .i64 || t == .n32 || t == .n64 || scalarFloat t

/-- FCVT (spec/11 R229). -/
def fcvtOk (dst src : Ty) (s : Sat) : Bool :=
  fcvtTy dst && fcvtTy src && dst != src && (scalarFloat dst || scalarFloat src) &&
    (if scalarFloat dst then satFloat s else s == .none)

/-- The exact conversions of spec/12 R252, whose ROUND and SAT have no effect: a wider float from a narrower
float or E4M3, a wider int from a narrower int. -/
def exactCvt (dst src : Ty) : Bool :=
  src.width < dst.width && ((isInt dst && isInt src) || (isFloat dst && (isFloat src || src == .e4m3)))

/-- VCVT (spec/12 R252). -/
def vcvtOk (dst src : Ty) (part : BitVec 2) (r : Rnd) (s : Sat) : Bool :=
  isVec dst && isVec src && dst != src &&
    part.toNat < max dst.width src.width / min dst.width src.width &&
    (if exactCvt dst src then s != .nan
     else if dst == .e4m3 then satE4M3 s
     else if isFloat dst then satFloat s
     else if isInt src then r == .rne && s != .nan
     else s == .none)

/-- MMAT's modes (spec/13 R269). -/
def mmatOk (t : Ty) (cb : Bool) : Bool :=
  t == .e4m3 || ((t == .bf16 || t == .fp16 || t == .i8) && !cb)

/-- MRDR and MRDC (spec/13 R271). -/
def mrdOk (t : Ty) (hi : Bool) (r : Rnd) (s : Sat) : Bool :=
  match t with
  | .f32 | .i32 => r == .rne && s == .none
  | .bf16 | .fp16 => !hi && satFloat s
  | .e4m3 => satE4M3 s
  | .i16 => !hi && r == .rne && satFloat s
  | .i8 => r == .rne && satFloat s
  | _ => false

/-- MWRR (spec/13 R272). -/
def mwrOk (t : Ty) (hi : Bool) : Bool :=
  match t with
  | .f32 | .i32 | .e4m3 | .i8 => true
  | .bf16 | .fp16 | .i16 => !hi
  | _ => false

/-- MSTA (spec/13 R273). -/
def mstaOk (t : Ty) (r : Rnd) (s : Sat) : Bool :=
  match t with
  | .f32 | .i32 | .bf16 | .fp16 | .e4m3 => mrdOk t false r s
  | _ => false

/-- VBCASTI (spec/11 R233). -/
def vbcastiOk (t : Ty) (imm : BitVec 32) : Bool :=
  t != .f64 && (32 ≤ t.width || imm >>> t.width == 0)

/-- Where SX has meaning (spec/15 R298): in no other instruction, in the loads, in atomics of width word. -/
inductive SxRule where
  | noSx | loadSx | wordSx
deriving DecidableEq, Repr

/-- The memory orders an instruction accepts (spec/15 R297), named by its widest. -/
def moOk (m widest : MO) : Bool :=
  m == .plain || widest == .ar || m == widest

/-- The sequence link of layout M (spec/09 R196). -/
def linkOk (f : MemF) : Bool :=
  (f.seq != 0 || (f.pd == 0 && f.sd == 0)) &&
  !(f.pd == 1 && f.seq.toNat < 2) && !(f.pd == 2 && f.seq.toNat < 3) &&
  !(f.sd == 1 && f.seq.toNat == 63) && !(f.sd == 2 && 62 ≤ f.seq.toNat)

/-- The checks of layout M for one instruction: its SX rule, widest order, SEQ and TS (spec/09 R196, spec/15 R297, R298). -/
def memOk (f : MemF) (sx : SxRule) (widest : MO) (seqOk tsOk : Bool) : Bool :=
  moOk f.mo widest && linkOk f && (seqOk || f.seq == 0) && (tsOk || !f.ts) &&
  !(f.ts && f.sc != .op && f.sc != .core) &&
  (!f.sx || (match sx with
    | .noSx => false
    | .loadSx => f.wd != .d
    | .wordSx => f.wd == .w))

/-- Widths word and double (spec/15 R297). -/
def wide (w : Width) : Bool := w == .w || w == .d

end WF

/-- A vector source that is a channel. -/
def VSrc.isChan : VSrc → Bool
  | .chan _ _ => true
  | .reg _ => false

open WF in
/-- Which instructions are well formed: every check of spec/09 R200 that needs the instruction's own fields only. -/
def Instr.wf : Instr → Bool
  | .dictionaryCode _ => true
  | .nop _ => true
  | .mov _ _ _ => true
  | .add _ _ _ _ => true
  | .sub _ _ _ _ => true
  | .mul _ _ _ _ => true
  | .mulh _ _ _ _ => true
  | .mulhu _ _ _ _ => true
  | .div _ _ _ _ => true
  | .divu _ _ _ _ => true
  | .rem _ _ _ _ => true
  | .remu _ _ _ _ => true
  | .and _ _ _ _ => true
  | .or _ _ _ _ => true
  | .xor _ _ _ _ => true
  | .andn _ _ _ _ => true
  | .shl _ _ _ _ => true
  | .shr _ _ _ _ => true
  | .sra _ _ _ _ => true
  | .rol _ _ _ _ => true
  | .min _ _ _ _ => true
  | .max _ _ _ _ => true
  | .minu _ _ _ _ => true
  | .maxu _ _ _ _ => true
  | .clz _ _ _ => true
  | .popc _ _ _ => true
  | .brev _ _ _ => true
  | .sel _ _ _ _ _ => true
  | .cmp _ _ _ _ _ => true
  | .lea _ _ _ _ _ => true
  | .bfx _ ty _ _ len pos => (ty == .i64 || ty == .n64) && fieldOk pos len
  | .bfi _ _ _ _ len pos => fieldOk pos len
  | .sext _ ty _ _ => ty == .i8 || ty == .i16 || ty == .i32
  | .zext _ ty _ _ => ty == .n8 || ty == .n16 || ty == .n32
  | .mfs _ _ sr entry => mfsOk sr entry
  | .mts _ sr _ => mtsOk sr
  | .fadd _ ty _ _ _ sm _ => scalarFloat ty && satFloat sm
  | .fsub _ ty _ _ _ sm _ => scalarFloat ty && satFloat sm
  | .fmul _ ty _ _ _ sm _ => scalarFloat ty && satFloat sm
  | .ffma _ ty _ _ _ _ sm _ => scalarFloat ty && satFloat sm
  | .fmin _ ty _ _ _ => scalarFloat ty
  | .fmax _ ty _ _ _ => scalarFloat ty
  | .fcmp _ ty _ _ _ _ => scalarFloat ty
  | .fcvt _ ty _ _ src sm _ => fcvtOk ty src sm
  | .pand _ _ _ _ _ _ => true
  | .por _ _ _ _ _ _ => true
  | .pxor _ _ _ _ _ _ => true
  | .pnot _ _ _ => true
  | .vadd _ ty _ _ _ _ sm rnd => intOrFloat ty && roundOk ty rnd sm
  | .vsub _ ty _ _ _ _ sm rnd => intOrFloat ty && roundOk ty rnd sm
  | .vmul _ ty _ _ _ _ sm rnd => intOrFloat ty && roundOk ty rnd sm
  | .vfma _ ty _ _ _ _ _ sm rnd => intOrFloat ty && roundOk ty rnd sm
  | .vmin _ ty _ _ _ _ => intOrFloat ty
  | .vmax _ ty _ _ _ _ => intOrFloat ty
  | .vabs _ ty _ _ _ sm rnd => intOrFloat ty && (if isFloat ty then rnd == .rne && sm == .none else roundOk ty rnd sm)
  | .vneg _ ty _ _ _ sm rnd => intOrFloat ty && (if isFloat ty then rnd == .rne && sm == .none else roundOk ty rnd sm)
  | .vmulh _ ty _ _ _ _ => isInt ty
  | .vand _ ty _ _ _ _ => isVec ty
  | .vor _ ty _ _ _ _ => isVec ty
  | .vxor _ ty _ _ _ _ => isVec ty
  | .vshl _ ty _ _ _ _ => isInt ty
  | .vshr _ ty _ _ _ _ => isInt ty
  | .vsra _ ty _ _ _ _ => isInt ty
  | .vcmp _ ty _ _ _ mk cond => intOrFloat ty && (cond != .un || isFloat ty) && !mk.mz
  | .vsel _ ty _ _ _ _ => isVec ty
  | .mand _ ty _ _ _ => isVec ty
  | .mor _ ty _ _ _ => isVec ty
  | .mxor _ ty _ _ _ => isVec ty
  | .mnot _ ty _ _ => isVec ty
  | .mcnt _ ty _ _ => isVec ty
  | .vcvt _ ty _ _ _ part src sm rnd => vcvtOk ty src part rnd sm
  | .vscale _ ty _ a b _ side sm _ => isFloat ty && satFloat sm && (!side || (a.isChan && b == 0))
  | .vqnt _ _ a _ sm _ => satE4M3 sm && a ≤ 28
  | .vcbd _ _ _ _ => true
  | .vrcp _ ty _ _ _ sm => isFloat ty && satFloat sm
  | .vrsq _ ty _ _ _ sm => isFloat ty && satFloat sm
  | .vexp2 _ ty _ _ _ sm => isFloat ty && satFloat sm
  | .vlog2 _ ty _ _ _ sm => isFloat ty && satFloat sm
  | .vsum _ ty _ _ mk sm rnd => intOrFloat ty && roundOk ty rnd sm && !mk.mz
  | .vrmax _ ty _ _ mk => intOrFloat ty && !mk.mz
  | .vrmin _ ty _ _ mk => intOrFloat ty && !mk.mz
  | .vdot _ ty _ _ _ mk sm rnd => (isVec ty && (if isInt ty then roundOk ty rnd sm else satFloat sm)) && !mk.mz
  | .vscan _ ty _ _ _ sm rnd => intOrFloat ty && roundOk ty rnd sm
  | .vtopkReset _ _ _ => true
  | .vtopkFeed _ _ _ _ => true
  | .vtopkDrainv _ _ _ _ => true
  | .vtopkDraini _ _ _ _ => true
  | .vperm _ ty _ _ _ => isVec ty
  | .vbcast _ ty _ _ j => isVec ty && j.toNat < ty.lanes
  | .vsplat _ ty _ _ => isVec ty
  | .vins _ ty _ _ j => isVec ty && j.toNat < ty.lanes
  | .vext _ ty _ _ j => isVec ty && j.toNat < ty.lanes
  | .vzip _ ty _ _ _ _ => isVec ty
  | .vunzip _ ty _ _ _ _ => isVec ty
  | .vcomp _ ty _ _ _ => isVec ty
  | .vexpd _ ty _ _ _ => isVec ty
  | .viota _ ty _ _ => isInt ty
  | .vmov _ ty _ _ _ => isVec ty
  | .mzero _ _ => true
  | .mmat _ ty _ _ _ cb => mmatOk ty cb
  | .mrdr _ ty _ _ hi _ sm rnd => mrdOk ty hi rnd sm
  | .mwrr _ ty _ _ hi _ => mwrOk ty hi
  | .mrdc _ ty _ _ hi _ sm rnd => mrdOk ty hi rnd sm
  | .msta _ ty _ _ sm rnd => mstaOk ty rnd sm
  | .mlda _ _ _ => true
  | .mmatComplete _ => true
  | .li _ _ _ => true
  | .lih _ _ _ _ => true
  | .addi _ _ _ _ => true
  | .andi _ _ _ _ => true
  | .ori _ _ _ _ => true
  | .xori _ _ _ _ => true
  | .shli _ _ _ _ => true
  | .shri _ _ _ _ => true
  | .srai _ _ _ _ => true
  | .muli _ _ _ _ => true
  | .cmpi _ _ _ _ _ => true
  | .mini _ _ _ _ => true
  | .maxi _ _ _ _ => true
  | .vbcasti _ ty _ imm => vbcastiOk ty imm
  | .fli _ ty _ _ => scalarFloat ty
  | .ld _ mf _ _ _ => memOk mf .loadSx .acq true true
  | .st _ mf _ _ _ => memOk mf .noSx .rel true true
  | .vld _ mf _ _ _ => memOk mf .noSx .acq true true
  | .vst _ mf _ _ _ => memOk mf .noSx .rel true true
  | .vldg _ mf _ _ _ => memOk mf .noSx .acq true true
  | .vsts _ mf _ _ _ => memOk mf .noSx .rel true true
  | .ldf _ mf _ _ _ => memOk mf .loadSx .acq true false && wide mf.wd
  | .ldfe _ mf _ _ _ => memOk mf .loadSx .acq true false && wide mf.wd
  | .stef _ mf _ _ _ => memOk mf .noSx .rel true false && wide mf.wd
  | .stf _ mf _ _ _ => memOk mf .noSx .rel true false && wide mf.wd
  | .vldf _ mf _ _ _ => memOk mf .noSx .acq true false && wide mf.wd
  | .vstf _ mf _ _ _ => memOk mf .noSx .rel true false && wide mf.wd
  | .feget _ mf _ _ _ => memOk mf .noSx .plain true false && mf.wd == .w
  | .feset _ mf _ _ _ => memOk mf .noSx .plain true false && mf.wd == .w
  | .aadd _ mf _ _ _ _ => memOk mf .wordSx .ar true true && wide mf.wd
  | .amin _ mf _ _ _ _ => memOk mf .wordSx .ar true true && wide mf.wd
  | .amax _ mf _ _ _ _ => memOk mf .wordSx .ar true true && wide mf.wd
  | .aand _ mf _ _ _ _ => memOk mf .wordSx .ar true true && wide mf.wd
  | .aor _ mf _ _ _ _ => memOk mf .wordSx .ar true true && wide mf.wd
  | .axor _ mf _ _ _ _ => memOk mf .wordSx .ar true true && wide mf.wd
  | .aswp _ mf _ _ _ _ => memOk mf .wordSx .ar true true && wide mf.wd
  | .acas _ mf _ _ _ _ => memOk mf .wordSx .ar true true && wide mf.wd
  | .afadd _ mf _ _ _ _ => memOk mf .noSx .ar true true && wide mf.wd
  | .fence _ mf => memOk mf .noSx .ar false false && mf.wd == .b
  | .cwb _ mf _ _ => memOk mf .noSx .plain false true && mf.wd == .b
  | .cinv _ mf _ _ => memOk mf .noSx .plain false true && mf.wd == .b
  | .pref _ mf _ _ => memOk mf .noSx .plain false true && mf.wd == .b
  | .osclm _ mf _ _ => memOk mf .noSx .plain false false && mf.wd == .b
  | .osrel _ mf _ _ => memOk mf .noSx .plain false false && mf.wd == .b
  | .br _ _ => true
  | .brr _ _ _ => true
  | .call _ _ _ => true
  | .ret _ _ => true
  | .loop _ _ _ _ => true
  | .endh _ => true
  | .park _ => true
  | .trap _ _ => true
  | .tret _ _ _ => true
  | .waitc _ _ _ _ _ => true
  | .barw _ _ => true
  | .bara _ _ _ => true
  | .barinit _ exp _ => exp != 0
  | .emit _ _ => true
  | .drop _ _ => true
  | .skipe _ _ => true
  | .pres _ _ _ => true
  | .pops _ _ _ => true
  | .hdr _ _ _ _ => true
  | .ttenq _ _ _ _ _ => true
  | .xsend _ _ _ => true
  | .board _ _ _ => true
  | .unbrd _ _ _ => true
  | .rhold _ _ _ => true
  | .rstat _ _ _ => true
  | .purge _ _ _ _ => true
  | .snap _ _ _ => true
  | .freeze _ _ => true
  | .thaw _ _ => true
  | .qflush _ _ _ => true
  | .sqnew _ _ _ _ => true
  | .sqrsv _ _ _ _ _ => true
  | .sqadr _ _ _ _ => true
  | .sqcmt _ _ _ _ => true
  | .sqlen _ _ _ _ => true
  | .sqwait _ _ _ _ => true
  | .sqfork _ _ _ _ _ => true
  | .sqref _ _ _ => true
  | .sqrel _ _ _ => true
  | .sqld _ _ _ _ _ _ => true
  | .sqvoid _ _ _ _ => true
  | .cntrd _ _ _ => true
  | .owcrd _ _ _ => true
  | .qset _ _ _ => true
  | .cntset _ _ _ => true
  | .cfgld _ _ _ _ => true
  | .cfgarm _ _ _ => true
  | .cfgdis _ _ _ => true
  | .dictld _ _ _ _ => true
  | .cbld _ _ _ _ => true
  | .tlbinv _ _ _ => true
  | .budget => true
  | .contextSelection _ _ => true
  | .oldestWavePromotion _ _ => true
  | .recordArrival _ => true
  | .spillReplay _ _ _ => true
  | .wakeBufferArrival _ => true
  | .tileWake _ => true
  | .clockGatingEntry _ => true
  | .powerGatingEntry _ => true
  | .owcBroadcast _ _ => true
  | .admission _ _ => true
  | .exitPortRecord _ => true
  | .exitAdmissionLeave _ _ => true
  | .counterNodeRecord _ => true
  | .memoryOperatorRecord _ => true
  | .memoryOperatorResult _ _ => true
  | .steerRecord _ => true
  | .mergeRecord _ => true
  | .conversionNodeRecord _ => true
  | .boundaryNodeRecord _ => true
  | .waveAdvanceRecord _ => true
  | .remoteScratchpadRecord _ => true
  | .aRowRecord _ => true
  | .reconfigurationRecord _ => true
  | .waveControlRecord _ => true
  | .circuitBeat _ _ => true
  | .accessResponse _ => true
  | .storePerformed _ => true
  | .chainAccessRelease _ => true
  | .stefWake _ => true
  | .waitEntryRetry _ _ => true
  | .stefResend _ => true
  | .seqWaitRetry _ _ => true
  | .tableWalk _ => true
  | .pageModeInterval => true
  | .sliceMigration _ => true
  | .ownershipSet _ part => decide (part.getD 0 < 16)
  | .doorbell _ _ => true
  | .commandQueueRead _ => true
  | .queueMap _ _ => true
  | .queueUnmap _ => true
  | .hostReadWrite _ _ _ => true
  | .hostAtomic _ _ _ _ _ _ => true
  | .marchPlacement => true
  | .dieReport _ => true
  | .taskResident _ _ => true
  | .taskIssue _ _ => true
  | .taskRetirement _ _ => true
  | .condTask _ _ => true
  | .whileTask _ _ => true
  | .imma _ _ => true
  | .idrain _ _ => true
  | .izero _ _ => true
  | .regionTask _ _ => true
  | .copyTask _ _ => true
  | .copyStart _ _ => true
  | .copyBeat _ _ => true
  | .copyEnd _ _ => true
  | .sqforkCopyEnd _ => true
  | .lapBoundary => true
  | .tileHeadArrival _ _ => true
  | .tileCrcCheck _ _ _ => true
  | .ringHold => true
  | .holdExpiry => true
  | .underrun _ => true
  | .ringImageEntryWrite _ _ => true
  | .ringPaceWrite _ => true
  | .ringPaceMinWrite _ => true
  | .ringLeadWrite _ => true
  | .coderateWrite _ _ _ => true
  | .throtThWrite _ => true
  | .placeThWrite _ => true
  | .timingThWrite _ => true
  | .wdogThWrite _ => true
  | .tileGatingWrite _ _ => true
  | .firmwareRegisterWrite _ _ => true
  | .corrt _ => true
  | .underrunRead _ => true
  | .latedrop _ => true
  | .fragerr _ => true
  | .decfull _ => true
  | .nacks _ => true
  | .retxn _ => true
  | .msglossRead _ => true
  | .portdropRead _ => true
  | .fragmentArrival _ _ _ _ => true
  | .decodeTimeout _ _ => true
  | .retiredFilterExpiry _ _ => true
  | .ackCoalesce _ _ => true
  | .acknowledgement _ _ => true
  | .nack _ _ _ => true
  | .msgloss _ _ => true
  | .throttleSample _ _ _ => true
  | .debtAccrual _ => true
  | .timingReplay _ => true
  | .replayWindowEnd _ => true
  | .watchdog _ _ => true
  | .preemptionRequest _ => true
  | .preemptionSave _ => true
  | .preemptionRestore _ => true
  | .tenantReset _ => true
  | .dieDrop _ => true
  | .snapEnd _ _ => true
  | .powerOn _ _ => true
  | .policyFirmwareImage _ => true
  | .portLinkChange _ _ => true
  | .vmidTableWrite _ _ => true

end Sys2Proof
end

