-- ==== Sys2Proof/Machine/Flags.lean ====
section
/-!
DEFINITION. Machine/Flags.lean: the number formats (spec/04 R79, R80), rounding and overflow (R82 to R86), special
values and flags (R87 to R89), the functions of spec/12 R256, quantisation (R94) and codebook decode (R92). A value is
exact (a sign, an integer and a power of two) until it is rounded once. Flags are five bits in FSTAT's order
(spec/10 R216): DZ 4, NV 3, NX 2, UF 1, OF 0.
-/

namespace Sys2Proof.Machine

abbrev Flags := BitVec 5

def flOF : Flags := 1
def flUF : Flags := 2
def flNX : Flags := 4
def flNV : Flags := 8
def flDZ : Flags := 16

/-- A floating-point format: exponent bits, fraction bits, and whether it is the FN variant without infinities
(spec/04 R79). -/
structure Fmt where
  eb : Nat
  fb : Nat
  fn : Bool
deriving DecidableEq, Repr

def Fmt.f64 : Fmt := ⟨11, 52, false⟩
def Fmt.f32 : Fmt := ⟨8, 23, false⟩
def Fmt.fp16 : Fmt := ⟨5, 10, false⟩
def Fmt.bf16 : Fmt := ⟨8, 7, false⟩
def Fmt.e4m3 : Fmt := ⟨4, 3, true⟩

/-- The format of a floating-point element type; F32 for the others, which are never asked. -/
def Fmt.ofTy : Ty → Fmt
  | .e4m3 => .e4m3
  | .fp16 => .fp16
  | .bf16 => .bf16
  | .f64 => .f64
  | _ => .f32

def Fmt.bias (f : Fmt) : Nat := 2 ^ (f.eb - 1) - 1
/-- Exponent of the largest finite value. -/
def Fmt.emax (f : Fmt) : Nat := if f.fn then f.bias + 1 else f.bias
/-- Exponent of the unit of the smallest subnormal. -/
def Fmt.qmin (f : Fmt) : Int := 1 - (f.bias : Int) - f.fb
def Fmt.signBit (f : Fmt) : Nat := 2 ^ (f.eb + f.fb)
/-- The pattern of +Inf; of no use in the FN variant. -/
def Fmt.inf (f : Fmt) : Nat := (2 ^ f.eb - 1) * 2 ^ f.fb
/-- The canonical NaN (spec/04 R79). -/
def Fmt.nan (f : Fmt) : Nat := if f.fn then 2 ^ (f.eb + f.fb) - 1 else f.inf + 2 ^ (f.fb - 1)
/-- The largest finite value's pattern. -/
def Fmt.max (f : Fmt) : Nat := if f.fn then f.nan - 1 else f.inf - 1

/-- An operand: a NaN (signalling or quiet), an infinity, a zero, or a nonzero finite value m × 2^e. -/
inductive Num where
  | nan (sig : Bool)
  | inf (neg : Bool)
  | zero (neg : Bool)
  | fin (neg : Bool) (m : Nat) (e : Int)
deriving DecidableEq, Repr

/-- The value of a pattern (spec/04 R79, R87). -/
def Fmt.num (f : Fmt) (x : Nat) : Num :=
  let neg := x.testBit (f.eb + f.fb)
  let ex := bits x f.fb f.eb
  let fr := x % 2 ^ f.fb
  if f.fn && x % f.signBit == f.nan then .nan false
  else if !f.fn && ex == 2 ^ f.eb - 1 then (if fr == 0 then .inf neg else .nan (!fr.testBit (f.fb - 1)))
  else if ex == 0 then (if fr == 0 then .zero neg else .fin neg fr f.qmin)
  else .fin neg (fr + 2 ^ f.fb) (f.qmin + ((ex : Int) - 1))

def Num.neg? : Num → Bool
  | .nan _ => false
  | .inf s => s
  | .zero s => s
  | .fin s _ _ => s

def Num.isNan : Num → Bool
  | .nan _ => true
  | _ => false

def Num.isSig : Num → Bool
  | .nan s => s
  | _ => false

def Num.flip : Num → Num
  | .inf s => .inf (!s)
  | .zero s => .zero (!s)
  | .fin s m e => .fin (!s) m e
  | n => n

/-- A result: its pattern and the flags it raises. -/
structure FRes where
  v : Nat
  fl : Flags := 0
deriving DecidableEq, Repr

def signed (f : Fmt) (neg : Bool) (x : Nat) : Nat := if neg then f.signBit + x else x

/-- Whether the mode adds one unit to a magnitude's lower part (spec/04 R82). -/
def roundUp (rnd : Rnd) (neg odd inexact above tie : Bool) : Bool :=
  match rnd with
  | .rne => above || (tie && odd)
  | .rna => above || tie
  | .rz => false
  | .ru => !neg && inexact
  | .rd => neg && inexact
  | .dyn => above || (tie && odd)

/-- What an overflow gives (spec/04 R84, R85). -/
def overflowTo (f : Fmt) (rnd : Rnd) (sm : Sat) (neg : Bool) : Nat :=
  if f.fn then (if sm == .sat then signed f neg f.max else f.nan)
  else if sm == .sat then signed f neg f.max
  else
    match rnd with
    | .rz => signed f neg f.max
    | .ru => if neg then signed f neg f.max else f.inf
    | .rd => if neg then signed f neg f.inf else f.max
    | _ => signed f neg f.inf

/-- The lower part of m × 2^e (plus a nonzero part below it when sticky) in units of 2^q, and its comparison with half a
unit: (lower, inexact, above half, at half). -/
def lowerPart (m : Nat) (e : Int) (sticky : Bool) (q : Int) : Nat × Bool × Bool × Bool :=
  if q ≤ e then (m <<< (e - q).toNat, sticky, false, false)
  else
    let sh := (q - e).toNat
    let rem := m % 2 ^ sh
    let half := 2 ^ (sh - 1)
    (m >>> sh, rem != 0 || sticky, half < rem || (rem == half && sticky), rem == half && !sticky)

/-- Rounds a nonzero exact value once to a format (spec/04 R82, R84, R85, R87, R89). With `sticky` the value lies
strictly between m and m + 1 units of 2^e. -/
def roundFin (f : Fmt) (rnd : Rnd) (sm : Sat) (neg : Bool) (m : Nat) (e : Int) (sticky : Bool) : FRes :=
  let top := e + Nat.log2 m
  let q := Max.max (top - f.fb) f.qmin
  let (lo, inexact, above, tie) := lowerPart m e sticky q
  let r := if roundUp rnd neg (lo % 2 == 1) inexact above tie then lo + 1 else lo
  let nx : Flags := if inexact then flNX else 0
  let uf : Flags := if inexact && top < 1 - (f.bias : Int) then flUF else 0
  let (r1, q1) := if r == 2 ^ (f.fb + 1) then (2 ^ f.fb, q + 1) else (r, q)
  let ovf := (f.emax : Int) < q1 + f.fb || (f.fn && q1 + f.fb == (f.emax : Int) && r1 == 2 ^ (f.fb + 1) - 1)
  if ovf then ⟨overflowTo f rnd sm neg, flOF ||| flNX⟩
  else if r1 < 2 ^ f.fb then ⟨signed f neg r1, nx ||| uf⟩
  else ⟨signed f neg ((q1 - f.qmin + 1).toNat * 2 ^ f.fb + (r1 - 2 ^ f.fb)), nx ||| uf⟩

/-- An infinite value as a result: E4M3 has none (spec/04 R85). -/
def infTo (f : Fmt) (sm : Sat) (neg : Bool) : FRes :=
  if f.fn then ⟨if sm == .sat then signed f neg f.max else f.nan, flNV⟩ else ⟨signed f neg f.inf, 0⟩

/-- A value rounded to a format; a NaN becomes the canonical one (spec/04 R88, R91). -/
def Num.to (f : Fmt) (rnd : Rnd) (sm : Sat) : Num → FRes
  | .nan s => ⟨f.nan, if s then flNV else 0⟩
  | .inf s => infTo f sm s
  | .zero s => ⟨signed f s 0, 0⟩
  | .fin s m e => roundFin f rnd sm s m e false

/-- An exact sum's value from a signed integer; an exact zero of nonzero parts is −0 only under RD. -/
def ofInt (rnd : Rnd) (i : Int) (e : Int) : Num :=
  if i == 0 then .zero (rnd == .rd) else .fin (i < 0) i.natAbs e

/-- The integer of a finite value in units of 2^e0, e0 not above its own. -/
def Num.inUnits (e0 : Int) : Num → Int
  | .fin s m e => let v := (m <<< (e - e0).toNat : Nat); if s then -(v : Int) else v
  | _ => 0

def Num.expo : Num → Int
  | .fin _ _ e => e
  | _ => 0

/-- The exact sum, and NV where it is invalid or a signalling NaN is summed (spec/04 R88). -/
def Num.add (rnd : Rnd) (a b : Num) : Num × Flags :=
  let nv : Flags := if a.isSig || b.isSig then flNV else 0
  if a.isNan || b.isNan then (.nan false, nv)
  else
    match a, b with
    | .inf s, .inf t => if s == t then (.inf s, 0) else (.nan false, flNV)
    | .inf s, _ => (.inf s, 0)
    | _, .inf t => (.inf t, 0)
    | .zero s, .zero t => (.zero (if s == t then s else rnd == .rd), 0)
    | .zero _, y => (y, 0)
    | x, .zero _ => (x, 0)
    | x, y =>
      let e0 := Min.min x.expo y.expo
      (ofInt rnd (x.inUnits e0 + y.inUnits e0) e0, 0)

/-- The exact product, and NV for 0 × Inf or a signalling NaN (spec/04 R88). -/
def Num.mul (a b : Num) : Num × Flags :=
  let nv : Flags := if a.isSig || b.isSig then flNV else 0
  let s := xor a.neg? b.neg?
  if a.isNan || b.isNan then (.nan false, nv)
  else
    match a, b with
    | .inf _, .zero _ => (.nan false, flNV)
    | .zero _, .inf _ => (.nan false, flNV)
    | .inf _, _ => (.inf s, 0)
    | _, .inf _ => (.inf s, 0)
    | .fin _ m e, .fin _ n d => (.fin s (m * n) (e + d), 0)
    | _, _ => (.zero s, 0)

def FRes.also (r : FRes) (fl : Flags) : FRes := { r with fl := r.fl ||| fl }

def fAdd (f : Fmt) (rnd : Rnd) (sm : Sat) (a b : Nat) : FRes :=
  let (x, fl) := (f.num a).add rnd (f.num b)
  (x.to f rnd sm).also fl

def fSub (f : Fmt) (rnd : Rnd) (sm : Sat) (a b : Nat) : FRes :=
  let (x, fl) := (f.num a).add rnd (f.num b).flip
  (x.to f rnd sm).also fl

def fMul (f : Fmt) (rnd : Rnd) (sm : Sat) (a b : Nat) : FRes :=
  let (x, fl) := (f.num a).mul (f.num b)
  (x.to f rnd sm).also fl

/-- a × b + c with one rounding. 0 × Inf + a quiet NaN sets NV, which IEEE 754-2019 leaves to the implementation (DESIGN CHOICE, log
entry 74). -/
def fFma (f : Fmt) (rnd : Rnd) (sm : Sat) (a b c : Nat) : FRes :=
  let (x, fl) := (f.num a).mul (f.num b)
  let (y, fl2) := x.add rnd (f.num c)
  (y.to f rnd sm).also (fl ||| fl2)

/-- Whether a finite or infinite value is below another; −0 equals +0. -/
def Num.lt : Num → Num → Bool
  | .nan _, _ => false
  | _, .nan _ => false
  | .inf s, .inf t => s && !t
  | .inf s, _ => s
  | _, .inf t => !t
  | x, y =>
    let e0 := Min.min x.expo y.expo
    x.inUnits e0 < y.inUnits e0

def Num.eq (a b : Num) : Bool := !a.isNan && !b.isNan && !a.lt b && !b.lt a

/-- NV of a comparison, a minimum or a maximum: a signalling NaN operand (spec/04 R88). -/
def sigFlag (f : Fmt) (a b : Nat) : Flags := if (f.num a).isSig || (f.num b).isSig then flNV else 0

/-- The IEEE minimum or maximum: a NaN gives NaN, and −0 is below +0 (spec/04 R88). -/
def fMinMax (f : Fmt) (max : Bool) (a b : Nat) : FRes :=
  let x := f.num a
  let y := f.num b
  if x.isNan || y.isNan then ⟨f.nan, sigFlag f a b⟩
  else
    let below := x.lt y || (x.eq y && x.neg? && !y.neg?)
    ⟨if below == max then b else a, 0⟩

/-- The conditions of FCMP (spec/11 R228) and VCMP's float forms (spec/12 R250). -/
def fCmp (f : Fmt) (c : VCond) (a b : Nat) : Bool :=
  let x := f.num a
  let y := f.num b
  match c with
  | .eq => x.eq y
  | .ne => !x.eq y
  | .lt => x.lt y
  | .le => x.lt y || x.eq y
  | .gt => y.lt x
  | .ge => y.lt x || x.eq y
  | .un => x.isNan || y.isNan

def FCond.toV : FCond → VCond
  | .eq => .eq | .lt => .lt | .le => .le | .un => .un | .ne => .ne

/-! Integers (spec/04 R80, R86). -/

/-- The value of an integer pattern of a type. -/
def tyInt (t : Ty) (x : Nat) : Int :=
  if t.signed && x.testBit (t.width - 1) then (x % 2 ^ t.width : Nat) - (2 ^ t.width : Nat) else (x % 2 ^ t.width : Nat)

def tyLo (t : Ty) : Int := if t.signed then -(2 ^ (t.width - 1) : Nat) else 0
def tyHi (t : Ty) : Int := if t.signed then (2 ^ (t.width - 1) : Nat) - 1 else (2 ^ t.width : Nat) - 1

/-- The low w bits of an integer. -/
def wrapTo (w : Nat) (i : Int) : Nat := (i % (2 ^ w : Nat)).toNat

def clampTo (t : Ty) (i : Int) : Int := if i < tyLo t then tyLo t else if tyHi t < i then tyHi t else i

/-- An integer result: wrapped, or clamped under sat (spec/04 R86). -/
def intTo (t : Ty) (sm : Sat) (i : Int) : Nat :=
  wrapTo t.width (if sm == .sat then clampTo t i else i)

/-- A conversion from floating point to an integer type (spec/04 R86). -/
def floatToInt (t : Ty) (rnd : Rnd) (x : Num) : FRes :=
  match x with
  | .nan _ => ⟨0, flNV⟩
  | .inf s => ⟨wrapTo t.width (if s then tyLo t else tyHi t), flNV⟩
  | .zero _ => ⟨0, 0⟩
  | .fin s m e =>
    let (lo, inexact, above, tie) := lowerPart m e false 0
    let r := if roundUp rnd s (lo % 2 == 1) inexact above tie then lo + 1 else lo
    let i : Int := if s then -(r : Int) else r
    if i < tyLo t || tyHi t < i then ⟨wrapTo t.width (clampTo t i), flNV⟩
    else ⟨wrapTo t.width i, if inexact then flNX else 0⟩

/-- An integer as an exact value. -/
def intNum (i : Int) : Num := if i == 0 then .zero false else .fin (i < 0) i.natAbs 0

/-- A conversion between element types (spec/11 R229, spec/12 R252, spec/04 R85, R86, R91). To a wider integer it is an extension, which SAT
does not touch; to a wider float it is exact and sets no flag, a NaN included. -/
def convert (dst src : Ty) (rnd : Rnd) (sm : Sat) (x : Nat) : FRes :=
  if WF.isInt src || src == .i64 || src == .n64 then
    if WF.isInt dst || dst == .i64 || dst == .n64 then
      ⟨if src.width < dst.width then wrapTo dst.width (tyInt src x) else intTo dst sm (tyInt src x), 0⟩
    else (intNum (tyInt src x)).to (Fmt.ofTy dst) rnd sm
  else
    let v := (Fmt.ofTy src).num (x % 2 ^ src.width)
    if WF.isInt dst || dst == .i64 || dst == .n64 then floatToInt dst rnd v
    else if src.width < dst.width then ⟨(v.to (Fmt.ofTy dst) rnd sm).v, 0⟩
    else v.to (Fmt.ofTy dst) rnd sm

/-! Functions (spec/12 R256). -/

/-- The integer square root, one bit at a time from bit k − 1 down. -/
def isqrtFrom (n : Nat) : (k root : Nat) → Nat
  | 0, r => r
  | k + 1, r => if (r + 2 ^ k) * (r + 2 ^ k) ≤ n then isqrtFrom n k (r + 2 ^ k) else isqrtFrom n k r

def isqrt (n : Nat) : Nat := isqrtFrom n (Nat.log2 n / 2 + 1) 0

/-- 1/a (spec/12 R256). -/
def fRcp (f : Fmt) (sm : Sat) (a : Nat) : FRes :=
  match f.num a with
  | .nan s => ⟨f.nan, if s then flNV else 0⟩
  | .inf s => ⟨signed f s 0, 0⟩
  | .zero s => ⟨signed f s f.inf, flDZ⟩
  | .fin s m e =>
    let k := Nat.log2 m + f.fb + 8
    roundFin f .rne sm s (2 ^ k / m) (-(k : Int) - e) (2 ^ k % m != 0)

/-- 1/√a (spec/12 R256). -/
def fRsq (f : Fmt) (sm : Sat) (a : Nat) : FRes :=
  match f.num a with
  | .nan s => ⟨f.nan, if s then flNV else 0⟩
  | .inf s => if s then ⟨f.nan, flNV⟩ else ⟨0, 0⟩
  | .zero s => ⟨signed f s f.inf, flDZ⟩
  | .fin true _ _ => ⟨f.nan, flNV⟩
  | .fin false m e =>
    let (m1, e1) := if e % 2 == 0 then (m, e) else (2 * m, e - 1)
    let k := Nat.log2 m1 + f.fb + 8
    let r := isqrt (2 ^ (2 * k) / m1)
    roundFin f .rne sm false r (-(k : Int) - e1 / 2) (r * r * m1 != 2 ^ (2 * k))

/-- Bits of the fixed-point arithmetic below. -/
def fixBits : Nat := 320

/-- ln 2 in units of 2^−320, from 2 × Σ 1 / ((2k + 1) 3^(2k + 1)). -/
def ln2Fix : Nat :=
  ((List.range 120).map (fun k => 2 ^ (fixBits + 1) / ((2 * k + 1) * 3 ^ (2 * k + 1)))).foldl (· + ·) 0

/-- e^x for x in [0, 1) in units of 2^−320, n terms of the series: term and sum. -/
def expFix (x : Nat) : (n i term sum : Nat) → Nat
  | 0, _, _, s => s
  | n + 1, i, t, s =>
    let t1 := t * x / 2 ^ fixBits / i
    expFix x n (i + 1) t1 (s + t1)

/-- ln of m / 2^k for m / 2^k in [1, 2), in units of 2^−320, from 2 × Σ z^(2j + 1) / (2j + 1), z = (v − 1) / (v + 1). -/
def lnFix (m k : Nat) : Nat :=
  let z := (m - 2 ^ k) * 2 ^ fixBits / (m + 2 ^ k)
  let zz := z * z / 2 ^ fixBits
  2 * ((List.range 120).foldl (fun (acc : Nat × Nat) j => (acc.1 * zz / 2 ^ fixBits, acc.2 + acc.1 / (2 * j + 1))) (z, 0)).2

/-- 2^a. A result that is no power of two is irrational and is taken from 320 bits (log entry 12). -/
def fExp2 (f : Fmt) (sm : Sat) (a : Nat) : FRes :=
  match f.num a with
  | .nan s => ⟨f.nan, if s then flNV else 0⟩
  | .inf s => if s then ⟨0, 0⟩ else ⟨f.inf, 0⟩
  | .zero _ => roundFin f .rne sm false 1 0 false
  | .fin s m e =>
    if 13 ≤ e + Nat.log2 m then
      roundFin f .rne sm false 1 (if s then -5000 else 5000) s
    else
      -- a in units of 2^−320: its floor n and fraction x
      let u : Int := (m <<< (e + fixBits).toNat : Nat)
      let v : Int := if s then -u else u
      let n := v / (2 ^ fixBits : Nat)
      let x := (v % (2 ^ fixBits : Nat)).toNat
      if x == 0 then roundFin f .rne sm false 1 n false
      else
        let y := expFix (x * ln2Fix / 2 ^ fixBits) 80 1 (2 ^ fixBits) (2 ^ fixBits)
        roundFin f .rne sm false y (n - fixBits) true

/-- log2 a. -/
def fLog2 (f : Fmt) (sm : Sat) (a : Nat) : FRes :=
  match f.num a with
  | .nan s => ⟨f.nan, if s then flNV else 0⟩
  | .inf s => if s then ⟨f.nan, flNV⟩ else ⟨f.inf, 0⟩
  | .zero _ => ⟨signed f true f.inf, flDZ⟩
  | .fin true _ _ => ⟨f.nan, flNV⟩
  | .fin false m e =>
    let k := Nat.log2 m
    let n := e + k
    if m == 2 ^ k then (intNum n).to f .rne sm
    else
      let l := lnFix m k * 2 ^ fixBits / ln2Fix
      let v : Int := n * (2 ^ fixBits : Nat) + l
      -- a negative value is truncated downwards, so its magnitude lies below
      if v < 0 then roundFin f .rne sm true (v.natAbs - 1) (-(fixBits : Int)) true
      else roundFin f .rne sm false v.natAbs (-(fixBits : Int)) true

/-! Quantisation and codebook (spec/04 R92, R94). -/

/-- Whether |x| ≤ 448 × 2^e. -/
def leScaled (m : Nat) (d : Int) (e : Int) : Bool :=
  let e0 := Min.min d e
  decide (m <<< (d - e0).toNat ≤ 448 <<< (e - e0).toNat)

/-- The scale's exponent for the largest finite magnitude m × 2^d: the smallest e with m 2^d ≤ 448 2^e, at least −126. -/
def quantExp (m : Nat) (d : Int) : Int :=
  -- 448 = 7 × 2^6 and 2^top ≤ |x| < 2^(top + 1), so e is top − 8 or top − 7
  let top := d + Nat.log2 m
  Max.max (-126) (if leScaled m d (top - 8) then top - 8 else top - 7)

/-- e of R94 over the finite lanes. -/
def quantE (xs : List Num) : Int :=
  let mags := xs.filterMap (fun x => match x with
    | .fin _ m e => some (m, e)
    | _ => none)
  match mags with
  | [] => 0
  | h :: t =>
    let big := t.foldl (fun (a : Nat × Int) b => if (Num.fin false a.1 a.2).lt (.fin false b.1 b.2) then b else a) h
    quantExp big.1 big.2

/-- x / 2^e rounded to E4M3. -/
def quantLane (rnd : Rnd) (sm : Sat) (e : Int) (x : Num) : FRes :=
  match x with
  | .fin s m d => roundFin .e4m3 rnd sm s m (d - e) false
  | y => y.to .e4m3 rnd sm

/-- Weight i of a CB2 index through a codebook entry, in units of 0.25: sign and magnitude (spec/04 R92). -/
def cb2 (entry : BitVec 32) (x : BitVec 16) (i : Nat) : Num :=
  let m := (entry.extractLsb' (4 * i) 4).toNat
  let h := if x.getLsbD 0 then 1 else 0
  let neg := if i < 7 then x.getLsbD (1 + i)
    else ((List.range 7).filter (fun k => x.getLsbD (1 + k))).length % 2 == 1
  if 2 * m + h == 0 then .zero false else .fin neg (2 * m + h) (-2)

end Sys2Proof.Machine
end

