-- ==== Sys2Proof/Decode.lean ====
section
/-!
DEFINITION. Decode.lean: the fields of a word, the encoder and the decoder, written from the formats of spec/09.
The decoder is total: a pattern that is no instruction is refused (none), and the fetch traps ILL on it (spec/09 R200).
A word is accepted only if its term is well formed and encodes back to the same word, so a nonzero unused field,
a K bit on a register or an index beyond its kind is refused in one place.
-/

namespace Sys2Proof

/-- The fields of a full word, as format R and layout E cut it (spec/09 R186). Format I and layout C hold IMM32 in
b, c and aux; layout M holds WD, SX and TS in ty, and MO, SC, SEQ, PD and SD in aux (spec/09 R194, R195). -/
structure Fields where
  form : BitVec 2
  op : BitVec 8
  ty : BitVec 4
  ps : BitVec 2
  pn : BitVec 1
  d : BitVec 7
  a : BitVec 8
  b : BitVec 8
  c : BitVec 8
  aux : BitVec 16
deriving DecidableEq, Repr

/-- One bit from a Bool. -/
def bitOf (b : Bool) : BitVec 1 := BitVec.ofBool b

/-- The fields of format I and layout C (spec/09 R194). -/
def Fields.ofImm (form : BitVec 2) (op : BitVec 8) (ty : BitVec 4) (ps : BitVec 2) (pn : BitVec 1) (d : BitVec 7)
    (a : BitVec 8) (imm : BitVec 32) : Fields :=
  ⟨form, op, ty, ps, pn, d, a, imm.extractLsb' 24 8, imm.extractLsb' 16 8, imm.extractLsb' 0 16⟩

/-- IMM32 (spec/09 R194). -/
def Fields.imm (f : Fields) : BitVec 32 := f.b ++ f.c ++ f.aux

/-- The predicate field. -/
def Fields.pred (f : Fields) : Pred := ⟨f.ps, f.pn.getLsbD 0⟩

/-- A word from its fields (spec/09 R186). -/
def Fields.pack (f : Fields) : Word :=
  f.form ++ f.op ++ f.ty ++ f.ps ++ f.pn ++ f.d ++ f.a ++ f.b ++ f.c ++ f.aux

/-- The fields of a word (spec/09 R186). -/
def Fields.unpack (w : Word) : Fields :=
  { form := w.extractLsb' 62 2, op := w.extractLsb' 54 8, ty := w.extractLsb' 50 4, ps := w.extractLsb' 48 2,
    pn := w.extractLsb' 47 1, d := w.extractLsb' 40 7, a := w.extractLsb' 32 8, b := w.extractLsb' 24 8,
    c := w.extractLsb' 16 8, aux := w.extractLsb' 0 16 }

/-! Operand fields (spec/09 R187): a destination is 7 bits with the class on top, a source 8 bits with class and K. -/

def dfS (r : BitVec 6) : BitVec 7 := 0#1 ++ r
def dfV (r : BitVec 5) : BitVec 7 := 0#2 ++ r
def dfP (r : BitVec 2) : BitVec 7 := 0#5 ++ r
def dfM (r : BitVec 3) : BitVec 7 := 0#4 ++ r
def dfA (r : BitVec 2) : BitVec 7 := 0#5 ++ r
def dfC (r : BitVec 6) : BitVec 7 := 1#1 ++ r
def sfS (r : BitVec 6) : BitVec 8 := 0#2 ++ r
def sfV (r : BitVec 5) : BitVec 8 := 0#3 ++ r
def sfP (r : BitVec 2) : BitVec 8 := 0#6 ++ r
def sfM (r : BitVec 3) : BitVec 8 := 0#5 ++ r
def sfA (r : BitVec 2) : BitVec 8 := 0#6 ++ r
def sfK (r : BitVec 6) : BitVec 8 := 3#2 ++ r
def sfQ (r : BitVec 6) : BitVec 8 := 2#2 ++ r
def dS (d : BitVec 7) : BitVec 6 := d.extractLsb' 0 6
def dV (d : BitVec 7) : BitVec 5 := d.extractLsb' 0 5
def dP (d : BitVec 7) : BitVec 2 := d.extractLsb' 0 2
def dM (d : BitVec 7) : BitVec 3 := d.extractLsb' 0 3
def dA (d : BitVec 7) : BitVec 2 := d.extractLsb' 0 2
def sS (s : BitVec 8) : BitVec 6 := s.extractLsb' 0 6
def sV (s : BitVec 8) : BitVec 5 := s.extractLsb' 0 5
def sP (s : BitVec 8) : BitVec 2 := s.extractLsb' 0 2
def sM (s : BitVec 8) : BitVec 3 := s.extractLsb' 0 3
def sA (s : BitVec 8) : BitVec 2 := s.extractLsb' 0 2

def VDst.enc : VDst → BitVec 7
  | .reg r => dfV r
  | .chan c => dfC c

def VDst.dec (d : BitVec 7) : VDst :=
  if d.getLsbD 6 then .chan (dS d) else .reg (dV d)

def VSrc.enc : VSrc → BitVec 8
  | .reg r => sfV r
  | .chan k c => 1#1 ++ bitOf k ++ c

def VSrc.dec (s : BitVec 8) : VSrc :=
  if s.getLsbD 7 then .chan (s.getLsbD 6) (sS s) else .reg (sV s)

def Mask.enc (m : Mask) : BitVec 5 := m.mi ++ bitOf m.men ++ bitOf m.mz

def Mask.dec (b : BitVec 5) : Mask := ⟨b.extractLsb' 2 3, b.getLsbD 1, b.getLsbD 0⟩

/-- TY codes (spec/09 R193). -/
def Ty.enc : Ty → BitVec 4
  | .i8 => 0 | .i16 => 1 | .i32 => 2 | .i64 => 3 | .n8 => 4 | .n16 => 5 | .n32 => 6 | .n64 => 7
  | .e4m3 => 8 | .fp16 => 9 | .bf16 => 10 | .f32 => 11 | .f64 => 12

def Ty.dec (b : BitVec 4) : Option Ty :=
  match b.toNat with
  | 0 => some .i8 | 1 => some .i16 | 2 => some .i32 | 3 => some .i64
  | 4 => some .n8 | 5 => some .n16 | 6 => some .n32 | 7 => some .n64
  | 8 => some .e4m3 | 9 => some .fp16 | 10 => some .bf16 | 11 => some .f32 | 12 => some .f64
  | _ => none

/-- Rounding codes (spec/04 R82). -/
def Rnd.enc : Rnd → BitVec 3
  | .rne => 0 | .rz => 1 | .ru => 2 | .rd => 3 | .rna => 4 | .dyn => 7

def Rnd.dec (b : BitVec 3) : Option Rnd :=
  match b.toNat with
  | 0 => some .rne | 1 => some .rz | 2 => some .ru | 3 => some .rd | 4 => some .rna | 7 => some .dyn
  | _ => none

def Sat.enc : Sat → BitVec 2
  | .none => 0 | .sat => 1 | .nan => 2 | .nosat => 3

def Sat.dec (b : BitVec 2) : Option Sat :=
  match b.toNat with
  | 0 => some .none | 1 => some .sat | 2 => some .nan | _ => some .nosat

/-- Condition codes of CMP (spec/11 R224). -/
def Cond.enc : Cond → BitVec 4
  | .eq => 0 | .ne => 1 | .lt => 2 | .ge => 3 | .le => 4 | .gt => 5 | .ltu => 6 | .geu => 7 | .leu => 8 | .gtu => 9

def Cond.dec (b : BitVec 4) : Option Cond :=
  match b.toNat with
  | 0 => some .eq | 1 => some .ne | 2 => some .lt | 3 => some .ge | 4 => some .le
  | 5 => some .gt | 6 => some .ltu | 7 => some .geu | 8 => some .leu | 9 => some .gtu
  | _ => none

/-- Condition codes of FCMP (spec/11 R228). -/
def FCond.enc : FCond → BitVec 3
  | .eq => 0 | .lt => 1 | .le => 2 | .un => 3 | .ne => 4

def FCond.dec (b : BitVec 3) : Option FCond :=
  match b.toNat with
  | 0 => some .eq | 1 => some .lt | 2 => some .le | 3 => some .un | 4 => some .ne
  | _ => none

/-- Condition codes of VCMP (spec/12 R250). -/
def VCond.enc : VCond → BitVec 3
  | .eq => 0 | .ne => 1 | .lt => 2 | .le => 3 | .gt => 4 | .ge => 5 | .un => 6

def VCond.dec (b : BitVec 3) : Option VCond :=
  match b.toNat with
  | 0 => some .eq | 1 => some .ne | 2 => some .lt | 3 => some .le | 4 => some .gt | 5 => some .ge | 6 => some .un
  | _ => none

/-- Scope codes (spec/02 R56). -/
def SC.enc : SC → BitVec 3
  | .op => 0 | .core => 1 | .region => 2 | .stack => 3 | .device => 4 | .system => 5

def SC.dec (b : BitVec 3) : Option SC :=
  match b.toNat with
  | 0 => some .op | 1 => some .core | 2 => some .region | 3 => some .stack | 4 => some .device | 5 => some .system
  | _ => none

def MO.enc : MO → BitVec 3
  | .plain => 0 | .acq => 1 | .rel => 2 | .ar => 3

def MO.dec (b : BitVec 3) : Option MO :=
  match b.toNat with
  | 0 => some .plain | 1 => some .acq | 2 => some .rel | 3 => some .ar
  | _ => none

def Width.enc : Width → BitVec 2
  | .b => 0 | .h => 1 | .w => 2 | .d => 3

def Width.dec (b : BitVec 2) : Width :=
  match b.toNat with
  | 0 => .b | 1 => .h | 2 => .w | _ => .d

/-- WD, SX and TS (spec/09 R195). -/
def MemF.tyBits (m : MemF) : BitVec 4 := m.wd.enc ++ bitOf m.sx ++ bitOf m.ts

/-- MO, SC, SEQ, PD and SD (spec/09 R195). -/
def MemF.auxBits (m : MemF) : BitVec 16 := m.mo.enc ++ m.sc.enc ++ m.seq ++ m.pd ++ m.sd

def MemF.dec (ty : BitVec 4) (aux : BitVec 16) : Option MemF :=
  (MO.dec (aux.extractLsb' 13 3)).bind fun mo =>
  (SC.dec (aux.extractLsb' 10 3)).bind fun sc =>
  some { wd := Width.dec (ty.extractLsb' 2 2), sx := ty.getLsbD 1, ts := ty.getLsbD 0, mo := mo, sc := sc,
         seq := aux.extractLsb' 4 6, pd := aux.extractLsb' 2 2, sd := aux.extractLsb' 0 2 }

/-- The fields of an instruction's word, from the encoding tables of spec/09 to spec/20; events have none, and a
dictionary code is a parcel and no word. -/
def Instr.fields : Instr → Option Fields
  | .dictionaryCode _ => none
  | .nop p => some ⟨1#2, 0x00#8, 0#4, p.ps, bitOf p.pn, 0#7, 0#8, 0#8, 0#8, 0#16⟩
  | .mov p d a => some ⟨1#2, 0x01#8, 0#4, p.ps, bitOf p.pn, (dfS d), (sfS a), 0#8, 0#8, 0#16⟩
  | .add p d a b => some ⟨1#2, 0x02#8, 0#4, p.ps, bitOf p.pn, (dfS d), (sfS a), (sfS b), 0#8, 0#16⟩
  | .sub p d a b => some ⟨1#2, 0x03#8, 0#4, p.ps, bitOf p.pn, (dfS d), (sfS a), (sfS b), 0#8, 0#16⟩
  | .mul p d a b => some ⟨1#2, 0x04#8, 0#4, p.ps, bitOf p.pn, (dfS d), (sfS a), (sfS b), 0#8, 0#16⟩
  | .mulh p d a b => some ⟨1#2, 0x05#8, 0#4, p.ps, bitOf p.pn, (dfS d), (sfS a), (sfS b), 0#8, 0#16⟩
  | .mulhu p d a b => some ⟨1#2, 0x06#8, 0#4, p.ps, bitOf p.pn, (dfS d), (sfS a), (sfS b), 0#8, 0#16⟩
  | .div p d a b => some ⟨1#2, 0x07#8, 0#4, p.ps, bitOf p.pn, (dfS d), (sfS a), (sfS b), 0#8, 0#16⟩
  | .divu p d a b => some ⟨1#2, 0x08#8, 0#4, p.ps, bitOf p.pn, (dfS d), (sfS a), (sfS b), 0#8, 0#16⟩
  | .rem p d a b => some ⟨1#2, 0x09#8, 0#4, p.ps, bitOf p.pn, (dfS d), (sfS a), (sfS b), 0#8, 0#16⟩
  | .remu p d a b => some ⟨1#2, 0x0A#8, 0#4, p.ps, bitOf p.pn, (dfS d), (sfS a), (sfS b), 0#8, 0#16⟩
  | .and p d a b => some ⟨1#2, 0x0B#8, 0#4, p.ps, bitOf p.pn, (dfS d), (sfS a), (sfS b), 0#8, 0#16⟩
  | .or p d a b => some ⟨1#2, 0x0C#8, 0#4, p.ps, bitOf p.pn, (dfS d), (sfS a), (sfS b), 0#8, 0#16⟩
  | .xor p d a b => some ⟨1#2, 0x0D#8, 0#4, p.ps, bitOf p.pn, (dfS d), (sfS a), (sfS b), 0#8, 0#16⟩
  | .andn p d a b => some ⟨1#2, 0x0E#8, 0#4, p.ps, bitOf p.pn, (dfS d), (sfS a), (sfS b), 0#8, 0#16⟩
  | .shl p d a b => some ⟨1#2, 0x0F#8, 0#4, p.ps, bitOf p.pn, (dfS d), (sfS a), (sfS b), 0#8, 0#16⟩
  | .shr p d a b => some ⟨1#2, 0x10#8, 0#4, p.ps, bitOf p.pn, (dfS d), (sfS a), (sfS b), 0#8, 0#16⟩
  | .sra p d a b => some ⟨1#2, 0x11#8, 0#4, p.ps, bitOf p.pn, (dfS d), (sfS a), (sfS b), 0#8, 0#16⟩
  | .rol p d a b => some ⟨1#2, 0x12#8, 0#4, p.ps, bitOf p.pn, (dfS d), (sfS a), (sfS b), 0#8, 0#16⟩
  | .min p d a b => some ⟨1#2, 0x13#8, 0#4, p.ps, bitOf p.pn, (dfS d), (sfS a), (sfS b), 0#8, 0#16⟩
  | .max p d a b => some ⟨1#2, 0x14#8, 0#4, p.ps, bitOf p.pn, (dfS d), (sfS a), (sfS b), 0#8, 0#16⟩
  | .minu p d a b => some ⟨1#2, 0x15#8, 0#4, p.ps, bitOf p.pn, (dfS d), (sfS a), (sfS b), 0#8, 0#16⟩
  | .maxu p d a b => some ⟨1#2, 0x16#8, 0#4, p.ps, bitOf p.pn, (dfS d), (sfS a), (sfS b), 0#8, 0#16⟩
  | .clz p d a => some ⟨1#2, 0x17#8, 0#4, p.ps, bitOf p.pn, (dfS d), (sfS a), 0#8, 0#8, 0#16⟩
  | .popc p d a => some ⟨1#2, 0x18#8, 0#4, p.ps, bitOf p.pn, (dfS d), (sfS a), 0#8, 0#8, 0#16⟩
  | .brev p d a => some ⟨1#2, 0x19#8, 0#4, p.ps, bitOf p.pn, (dfS d), (sfS a), 0#8, 0#8, 0#16⟩
  | .sel p d a b c => some ⟨1#2, 0x1A#8, 0#4, p.ps, bitOf p.pn, (dfS d), (sfS a), (sfS b), (sfP c), 0#16⟩
  | .cmp p cond d a b => some ⟨1#2, 0x1B#8, cond.enc, p.ps, bitOf p.pn, (dfP d), (sfS a), (sfS b), 0#8, 0#16⟩
  | .lea p d a b sh => some ⟨1#2, 0x1C#8, 0#4, p.ps, bitOf p.pn, (dfS d), (sfS a), (sfS b), 0#8, (0#13 ++ sh)⟩
  | .bfx p ty d a len pos => some ⟨1#2, 0x1D#8, ty.enc, p.ps, bitOf p.pn, (dfS d), (sfS a), 0#8, 0#8, (0#3 ++ len ++ pos)⟩
  | .bfi p d a b len pos => some ⟨1#2, 0x1E#8, 0#4, p.ps, bitOf p.pn, (dfS d), (sfS a), (sfS b), 0#8, (0#3 ++ len ++ pos)⟩
  | .sext p ty d a => some ⟨1#2, 0x1F#8, ty.enc, p.ps, bitOf p.pn, (dfS d), (sfS a), 0#8, 0#8, 0#16⟩
  | .zext p ty d a => some ⟨1#2, 0x20#8, ty.enc, p.ps, bitOf p.pn, (dfS d), (sfS a), 0#8, 0#8, 0#16⟩
  | .mfs p d sr entry => some ⟨1#2, 0x21#8, 0#4, p.ps, bitOf p.pn, (dfS d), (sfS sr), 0#8, 0#8, (0#13 ++ entry)⟩
  | .mts p sr a => some ⟨1#2, 0x22#8, 0#4, p.ps, bitOf p.pn, (dfS sr), (sfS a), 0#8, 0#8, 0#16⟩
  | .fadd p ty d a b sm rnd => some ⟨1#2, 0x30#8, ty.enc, p.ps, bitOf p.pn, (dfS d), (sfS a), (sfS b), 0#8, (0#11 ++ sm.enc ++ rnd.enc)⟩
  | .fsub p ty d a b sm rnd => some ⟨1#2, 0x31#8, ty.enc, p.ps, bitOf p.pn, (dfS d), (sfS a), (sfS b), 0#8, (0#11 ++ sm.enc ++ rnd.enc)⟩
  | .fmul p ty d a b sm rnd => some ⟨1#2, 0x32#8, ty.enc, p.ps, bitOf p.pn, (dfS d), (sfS a), (sfS b), 0#8, (0#11 ++ sm.enc ++ rnd.enc)⟩
  | .ffma p ty d a b c sm rnd => some ⟨1#2, 0x33#8, ty.enc, p.ps, bitOf p.pn, (dfS d), (sfS a), (sfS b), (sfS c), (0#11 ++ sm.enc ++ rnd.enc)⟩
  | .fmin p ty d a b => some ⟨1#2, 0x34#8, ty.enc, p.ps, bitOf p.pn, (dfS d), (sfS a), (sfS b), 0#8, 0#16⟩
  | .fmax p ty d a b => some ⟨1#2, 0x35#8, ty.enc, p.ps, bitOf p.pn, (dfS d), (sfS a), (sfS b), 0#8, 0#16⟩
  | .fcmp p ty d a b cond => some ⟨1#2, 0x36#8, ty.enc, p.ps, bitOf p.pn, (dfP d), (sfS a), (sfS b), 0#8, (0#13 ++ cond.enc)⟩
  | .fcvt p ty d a src sm rnd => some ⟨1#2, 0x37#8, ty.enc, p.ps, bitOf p.pn, (dfS d), (sfS a), 0#8, 0#8, (0#7 ++ src.enc ++ sm.enc ++ rnd.enc)⟩
  | .pand p ia ib d a b => some ⟨1#2, 0x38#8, (0#2 ++ bitOf ib ++ bitOf ia), p.ps, bitOf p.pn, (dfP d), (sfP a), (sfP b), 0#8, 0#16⟩
  | .por p ia ib d a b => some ⟨1#2, 0x39#8, (0#2 ++ bitOf ib ++ bitOf ia), p.ps, bitOf p.pn, (dfP d), (sfP a), (sfP b), 0#8, 0#16⟩
  | .pxor p ia ib d a b => some ⟨1#2, 0x3A#8, (0#2 ++ bitOf ib ++ bitOf ia), p.ps, bitOf p.pn, (dfP d), (sfP a), (sfP b), 0#8, 0#16⟩
  | .pnot p d a => some ⟨1#2, 0x3B#8, 0#4, p.ps, bitOf p.pn, (dfP d), (sfP a), 0#8, 0#8, 0#16⟩
  | .vadd p ty d a b mk sm rnd => some ⟨1#2, 0x40#8, ty.enc, p.ps, bitOf p.pn, (VDst.enc d), (VSrc.enc a), (VSrc.enc b), 0#8, (mk.enc ++ 0#6 ++ sm.enc ++ rnd.enc)⟩
  | .vsub p ty d a b mk sm rnd => some ⟨1#2, 0x41#8, ty.enc, p.ps, bitOf p.pn, (VDst.enc d), (VSrc.enc a), (VSrc.enc b), 0#8, (mk.enc ++ 0#6 ++ sm.enc ++ rnd.enc)⟩
  | .vmul p ty d a b mk sm rnd => some ⟨1#2, 0x42#8, ty.enc, p.ps, bitOf p.pn, (VDst.enc d), (VSrc.enc a), (VSrc.enc b), 0#8, (mk.enc ++ 0#6 ++ sm.enc ++ rnd.enc)⟩
  | .vfma p ty d a b c mk sm rnd => some ⟨1#2, 0x43#8, ty.enc, p.ps, bitOf p.pn, (VDst.enc d), (VSrc.enc a), (VSrc.enc b), (VSrc.enc c), (mk.enc ++ 0#6 ++ sm.enc ++ rnd.enc)⟩
  | .vmin p ty d a b mk => some ⟨1#2, 0x44#8, ty.enc, p.ps, bitOf p.pn, (VDst.enc d), (VSrc.enc a), (VSrc.enc b), 0#8, (mk.enc ++ 0#6 ++ 0#5)⟩
  | .vmax p ty d a b mk => some ⟨1#2, 0x45#8, ty.enc, p.ps, bitOf p.pn, (VDst.enc d), (VSrc.enc a), (VSrc.enc b), 0#8, (mk.enc ++ 0#6 ++ 0#5)⟩
  | .vabs p ty d a mk sm rnd => some ⟨1#2, 0x46#8, ty.enc, p.ps, bitOf p.pn, (VDst.enc d), (VSrc.enc a), 0#8, 0#8, (mk.enc ++ 0#6 ++ sm.enc ++ rnd.enc)⟩
  | .vneg p ty d a mk sm rnd => some ⟨1#2, 0x47#8, ty.enc, p.ps, bitOf p.pn, (VDst.enc d), (VSrc.enc a), 0#8, 0#8, (mk.enc ++ 0#6 ++ sm.enc ++ rnd.enc)⟩
  | .vmulh p ty d a b mk => some ⟨1#2, 0x68#8, ty.enc, p.ps, bitOf p.pn, (VDst.enc d), (VSrc.enc a), (VSrc.enc b), 0#8, (mk.enc ++ 0#6 ++ 0#5)⟩
  | .vand p ty d a b mk => some ⟨1#2, 0x48#8, ty.enc, p.ps, bitOf p.pn, (VDst.enc d), (VSrc.enc a), (VSrc.enc b), 0#8, (mk.enc ++ 0#6 ++ 0#5)⟩
  | .vor p ty d a b mk => some ⟨1#2, 0x49#8, ty.enc, p.ps, bitOf p.pn, (VDst.enc d), (VSrc.enc a), (VSrc.enc b), 0#8, (mk.enc ++ 0#6 ++ 0#5)⟩
  | .vxor p ty d a b mk => some ⟨1#2, 0x4A#8, ty.enc, p.ps, bitOf p.pn, (VDst.enc d), (VSrc.enc a), (VSrc.enc b), 0#8, (mk.enc ++ 0#6 ++ 0#5)⟩
  | .vshl p ty d a b mk => some ⟨1#2, 0x4B#8, ty.enc, p.ps, bitOf p.pn, (VDst.enc d), (VSrc.enc a), (VSrc.enc b), 0#8, (mk.enc ++ 0#6 ++ 0#5)⟩
  | .vshr p ty d a b mk => some ⟨1#2, 0x4C#8, ty.enc, p.ps, bitOf p.pn, (VDst.enc d), (VSrc.enc a), (VSrc.enc b), 0#8, (mk.enc ++ 0#6 ++ 0#5)⟩
  | .vsra p ty d a b mk => some ⟨1#2, 0x4D#8, ty.enc, p.ps, bitOf p.pn, (VDst.enc d), (VSrc.enc a), (VSrc.enc b), 0#8, (mk.enc ++ 0#6 ++ 0#5)⟩
  | .vcmp p ty d a b mk cond => some ⟨1#2, 0x4E#8, ty.enc, p.ps, bitOf p.pn, (dfM d), (VSrc.enc a), (VSrc.enc b), 0#8, (mk.enc ++ 0#3 ++ cond.enc ++ 0#5)⟩
  | .vsel p ty d a b c => some ⟨1#2, 0x4F#8, ty.enc, p.ps, bitOf p.pn, (VDst.enc d), (VSrc.enc a), (VSrc.enc b), (sfM c), 0#16⟩
  | .mand p ty d a b => some ⟨1#2, 0x6A#8, ty.enc, p.ps, bitOf p.pn, (dfM d), (sfM a), (sfM b), 0#8, 0#16⟩
  | .mor p ty d a b => some ⟨1#2, 0x6B#8, ty.enc, p.ps, bitOf p.pn, (dfM d), (sfM a), (sfM b), 0#8, 0#16⟩
  | .mxor p ty d a b => some ⟨1#2, 0x6C#8, ty.enc, p.ps, bitOf p.pn, (dfM d), (sfM a), (sfM b), 0#8, 0#16⟩
  | .mnot p ty d a => some ⟨1#2, 0x6D#8, ty.enc, p.ps, bitOf p.pn, (dfM d), (sfM a), 0#8, 0#8, 0#16⟩
  | .mcnt p ty d a => some ⟨1#2, 0x6E#8, ty.enc, p.ps, bitOf p.pn, (dfS d), (sfM a), 0#8, 0#8, 0#16⟩
  | .vcvt p ty d a mk part src sm rnd => some ⟨1#2, 0x50#8, ty.enc, p.ps, bitOf p.pn, (VDst.enc d), (VSrc.enc a), 0#8, 0#8, (mk.enc ++ part ++ src.enc ++ sm.enc ++ rnd.enc)⟩
  | .vscale p ty d a b mk side sm rnd => some ⟨1#2, 0x65#8, ty.enc, p.ps, bitOf p.pn, (VDst.enc d), (VSrc.enc a), (sfS b), 0#8, (mk.enc ++ 0#5 ++ bitOf side ++ sm.enc ++ rnd.enc)⟩
  | .vqnt p d a b sm rnd => some ⟨1#2, 0x66#8, 8#4, p.ps, bitOf p.pn, (VDst.enc d), (sfV a), (sfS b), 0#8, (0#11 ++ sm.enc ++ rnd.enc)⟩
  | .vcbd p d a part => some ⟨1#2, 0x64#8, 10#4, p.ps, bitOf p.pn, (VDst.enc d), (VSrc.enc a), 0#8, 0#8, (0#8 ++ part ++ 0#5)⟩
  | .vrcp p ty d a mk sm => some ⟨1#2, 0x51#8, ty.enc, p.ps, bitOf p.pn, (VDst.enc d), (VSrc.enc a), 0#8, 0#8, (mk.enc ++ 0#6 ++ sm.enc ++ 0#3)⟩
  | .vrsq p ty d a mk sm => some ⟨1#2, 0x52#8, ty.enc, p.ps, bitOf p.pn, (VDst.enc d), (VSrc.enc a), 0#8, 0#8, (mk.enc ++ 0#6 ++ sm.enc ++ 0#3)⟩
  | .vexp2 p ty d a mk sm => some ⟨1#2, 0x53#8, ty.enc, p.ps, bitOf p.pn, (VDst.enc d), (VSrc.enc a), 0#8, 0#8, (mk.enc ++ 0#6 ++ sm.enc ++ 0#3)⟩
  | .vlog2 p ty d a mk sm => some ⟨1#2, 0x54#8, ty.enc, p.ps, bitOf p.pn, (VDst.enc d), (VSrc.enc a), 0#8, 0#8, (mk.enc ++ 0#6 ++ sm.enc ++ 0#3)⟩
  | .vsum p ty d a mk sm rnd => some ⟨1#2, 0x55#8, ty.enc, p.ps, bitOf p.pn, (VDst.enc d), (VSrc.enc a), 0#8, 0#8, (mk.enc ++ 0#6 ++ sm.enc ++ rnd.enc)⟩
  | .vrmax p ty d a mk => some ⟨1#2, 0x56#8, ty.enc, p.ps, bitOf p.pn, (VDst.enc d), (VSrc.enc a), 0#8, 0#8, (mk.enc ++ 0#6 ++ 0#5)⟩
  | .vrmin p ty d a mk => some ⟨1#2, 0x57#8, ty.enc, p.ps, bitOf p.pn, (VDst.enc d), (VSrc.enc a), 0#8, 0#8, (mk.enc ++ 0#6 ++ 0#5)⟩
  | .vdot p ty d a b mk sm rnd => some ⟨1#2, 0x63#8, ty.enc, p.ps, bitOf p.pn, (VDst.enc d), (VSrc.enc a), (VSrc.enc b), 0#8, (mk.enc ++ 0#6 ++ sm.enc ++ rnd.enc)⟩
  | .vscan p ty d a excl sm rnd => some ⟨1#2, 0x58#8, ty.enc, p.ps, bitOf p.pn, (VDst.enc d), (VSrc.enc a), 0#8, 0#8, (0#10 ++ bitOf excl ++ sm.enc ++ rnd.enc)⟩
  | .vtopkReset p k1 unit => some ⟨1#2, 0x59#8, 0#4, p.ps, bitOf p.pn, 0#7, 0#8, 0#8, 0#8, (k1 ++ unit ++ 0#8)⟩
  | .vtopkFeed p a b unit => some ⟨1#2, 0x59#8, 1#4, p.ps, bitOf p.pn, 0#7, (VSrc.enc a), (VSrc.enc b), 0#8, (0#6 ++ unit ++ 0#8)⟩
  | .vtopkDrainv p d page unit => some ⟨1#2, 0x59#8, 2#4, p.ps, bitOf p.pn, (VDst.enc d), 0#8, 0#8, 0#8, (0#4 ++ page ++ unit ++ 0#8)⟩
  | .vtopkDraini p d page unit => some ⟨1#2, 0x59#8, 3#4, p.ps, bitOf p.pn, (VDst.enc d), 0#8, 0#8, 0#8, (0#4 ++ page ++ unit ++ 0#8)⟩
  | .vperm p ty d a b => some ⟨1#2, 0x5A#8, ty.enc, p.ps, bitOf p.pn, (VDst.enc d), (VSrc.enc a), (VSrc.enc b), 0#8, 0#16⟩
  | .vbcast p ty d a j => some ⟨1#2, 0x5B#8, ty.enc, p.ps, bitOf p.pn, (VDst.enc d), (VSrc.enc a), 0#8, 0#8, (0#5 ++ j ++ 0#5)⟩
  | .vsplat p ty d a => some ⟨1#2, 0x5C#8, ty.enc, p.ps, bitOf p.pn, (VDst.enc d), (sfS a), 0#8, 0#8, 0#16⟩
  | .vins p ty d a j => some ⟨1#2, 0x5D#8, ty.enc, p.ps, bitOf p.pn, (dfV d), (sfS a), 0#8, 0#8, (0#5 ++ j ++ 0#5)⟩
  | .vext p ty d a j => some ⟨1#2, 0x5E#8, ty.enc, p.ps, bitOf p.pn, (dfS d), (VSrc.enc a), 0#8, 0#8, (0#5 ++ j ++ 0#5)⟩
  | .vzip p ty d a b hi => some ⟨1#2, 0x5F#8, ty.enc, p.ps, bitOf p.pn, (VDst.enc d), (VSrc.enc a), (VSrc.enc b), 0#8, (0#10 ++ bitOf hi ++ 0#5)⟩
  | .vunzip p ty d a b hi => some ⟨1#2, 0x60#8, ty.enc, p.ps, bitOf p.pn, (VDst.enc d), (VSrc.enc a), (VSrc.enc b), 0#8, (0#10 ++ bitOf hi ++ 0#5)⟩
  | .vcomp p ty d a c => some ⟨1#2, 0x61#8, ty.enc, p.ps, bitOf p.pn, (VDst.enc d), (VSrc.enc a), 0#8, (sfM c), 0#16⟩
  | .vexpd p ty d a c => some ⟨1#2, 0x62#8, ty.enc, p.ps, bitOf p.pn, (VDst.enc d), (VSrc.enc a), 0#8, (sfM c), 0#16⟩
  | .viota p ty d a => some ⟨1#2, 0x67#8, ty.enc, p.ps, bitOf p.pn, (VDst.enc d), (sfS a), 0#8, 0#8, 0#16⟩
  | .vmov p ty d a mk => some ⟨1#2, 0x69#8, ty.enc, p.ps, bitOf p.pn, (VDst.enc d), (VSrc.enc a), 0#8, 0#8, (mk.enc ++ 0#6 ++ 0#5)⟩
  | .mzero p d => some ⟨1#2, 0xA0#8, 0#4, p.ps, bitOf p.pn, (dfA d), 0#8, 0#8, 0#8, 0#16⟩
  | .mmat p ty d a b cb => some ⟨1#2, 0xA1#8, ty.enc, p.ps, bitOf p.pn, (dfA d), (sfS a), (sfS b), 0#8, (0#10 ++ bitOf cb ++ 0#5)⟩
  | .mrdr p ty d a hi r sm rnd => some ⟨1#2, 0xA2#8, ty.enc, p.ps, bitOf p.pn, (VDst.enc d), (sfA a), 0#8, 0#8, (0#5 ++ bitOf hi ++ r ++ sm.enc ++ rnd.enc)⟩
  | .mwrr p ty d a hi r => some ⟨1#2, 0xA3#8, ty.enc, p.ps, bitOf p.pn, (dfA d), (VSrc.enc a), 0#8, 0#8, (0#5 ++ bitOf hi ++ r ++ 0#5)⟩
  | .mrdc p ty d a hi r sm rnd => some ⟨1#2, 0xA4#8, ty.enc, p.ps, bitOf p.pn, (VDst.enc d), (sfA a), 0#8, 0#8, (0#5 ++ bitOf hi ++ r ++ sm.enc ++ rnd.enc)⟩
  | .msta p ty a b sm rnd => some ⟨1#2, 0xA5#8, ty.enc, p.ps, bitOf p.pn, 0#7, (sfA a), (sfS b), 0#8, (0#11 ++ sm.enc ++ rnd.enc)⟩
  | .mlda p d a => some ⟨1#2, 0xA6#8, 0#4, p.ps, bitOf p.pn, (dfA d), (sfS a), 0#8, 0#8, 0#16⟩
  | .mmatComplete _ => none
  | .li p d imm => some (Fields.ofImm 2#2 0x00#8 0#4 p.ps (bitOf p.pn) (dfS d) 0#8 (imm))
  | .lih p d a imm => some (Fields.ofImm 2#2 0x01#8 0#4 p.ps (bitOf p.pn) (dfS d) (sfS a) (imm))
  | .addi p d a imm => some (Fields.ofImm 2#2 0x02#8 0#4 p.ps (bitOf p.pn) (dfS d) (sfS a) (imm))
  | .andi p d a imm => some (Fields.ofImm 2#2 0x03#8 0#4 p.ps (bitOf p.pn) (dfS d) (sfS a) (imm))
  | .ori p d a imm => some (Fields.ofImm 2#2 0x04#8 0#4 p.ps (bitOf p.pn) (dfS d) (sfS a) (imm))
  | .xori p d a imm => some (Fields.ofImm 2#2 0x05#8 0#4 p.ps (bitOf p.pn) (dfS d) (sfS a) (imm))
  | .shli p d a n => some (Fields.ofImm 2#2 0x06#8 0#4 p.ps (bitOf p.pn) (dfS d) (sfS a) (0#26 ++ n))
  | .shri p d a n => some (Fields.ofImm 2#2 0x07#8 0#4 p.ps (bitOf p.pn) (dfS d) (sfS a) (0#26 ++ n))
  | .srai p d a n => some (Fields.ofImm 2#2 0x08#8 0#4 p.ps (bitOf p.pn) (dfS d) (sfS a) (0#26 ++ n))
  | .muli p d a imm => some (Fields.ofImm 2#2 0x09#8 0#4 p.ps (bitOf p.pn) (dfS d) (sfS a) (imm))
  | .cmpi p cond d a imm => some (Fields.ofImm 2#2 0x0A#8 cond.enc p.ps (bitOf p.pn) (dfP d) (sfS a) (imm))
  | .mini p d a imm => some (Fields.ofImm 2#2 0x0B#8 0#4 p.ps (bitOf p.pn) (dfS d) (sfS a) (imm))
  | .maxi p d a imm => some (Fields.ofImm 2#2 0x0C#8 0#4 p.ps (bitOf p.pn) (dfS d) (sfS a) (imm))
  | .vbcasti p ty d imm => some (Fields.ofImm 2#2 0x0D#8 ty.enc p.ps (bitOf p.pn) (dfV d) 0#8 (imm))
  | .fli p ty d imm => some (Fields.ofImm 2#2 0x0E#8 ty.enc p.ps (bitOf p.pn) (dfS d) 0#8 (imm))
  | .ld p mf d a b => some ⟨3#2, 0x00#8, (mf.tyBits), p.ps, bitOf p.pn, (dfS d), (sfS a), (sfS b), 0#8, (mf.auxBits)⟩
  | .st p mf a b c => some ⟨3#2, 0x01#8, (mf.tyBits), p.ps, bitOf p.pn, 0#7, (sfS a), (sfS b), (sfS c), (mf.auxBits)⟩
  | .vld p mf d a b => some ⟨3#2, 0x02#8, (mf.tyBits), p.ps, bitOf p.pn, (dfV d), (sfS a), (sfS b), 0#8, (mf.auxBits)⟩
  | .vst p mf a b c => some ⟨3#2, 0x03#8, (mf.tyBits), p.ps, bitOf p.pn, 0#7, (sfS a), (sfS b), (sfV c), (mf.auxBits)⟩
  | .vldg p mf d a b => some ⟨3#2, 0x04#8, (mf.tyBits), p.ps, bitOf p.pn, (dfV d), (sfS a), (sfV b), 0#8, (mf.auxBits)⟩
  | .vsts p mf a b c => some ⟨3#2, 0x05#8, (mf.tyBits), p.ps, bitOf p.pn, 0#7, (sfS a), (sfV b), (sfV c), (mf.auxBits)⟩
  | .ldf p mf d a b => some ⟨3#2, 0x06#8, (mf.tyBits), p.ps, bitOf p.pn, (dfS d), (sfS a), (sfS b), 0#8, (mf.auxBits)⟩
  | .ldfe p mf d a b => some ⟨3#2, 0x07#8, (mf.tyBits), p.ps, bitOf p.pn, (dfS d), (sfS a), (sfS b), 0#8, (mf.auxBits)⟩
  | .stef p mf a b c => some ⟨3#2, 0x08#8, (mf.tyBits), p.ps, bitOf p.pn, 0#7, (sfS a), (sfS b), (sfS c), (mf.auxBits)⟩
  | .stf p mf a b c => some ⟨3#2, 0x09#8, (mf.tyBits), p.ps, bitOf p.pn, 0#7, (sfS a), (sfS b), (sfS c), (mf.auxBits)⟩
  | .vldf p mf d a b => some ⟨3#2, 0x0A#8, (mf.tyBits), p.ps, bitOf p.pn, (dfV d), (sfS a), (sfS b), 0#8, (mf.auxBits)⟩
  | .vstf p mf a b c => some ⟨3#2, 0x0B#8, (mf.tyBits), p.ps, bitOf p.pn, 0#7, (sfS a), (sfS b), (sfV c), (mf.auxBits)⟩
  | .feget p mf d a b => some ⟨3#2, 0x0C#8, (mf.tyBits), p.ps, bitOf p.pn, (dfS d), (sfS a), (sfS b), 0#8, (mf.auxBits)⟩
  | .feset p mf a b c => some ⟨3#2, 0x0D#8, (mf.tyBits), p.ps, bitOf p.pn, 0#7, (sfS a), (sfS b), (sfS c), (mf.auxBits)⟩
  | .aadd p mf d a b c => some ⟨3#2, 0x0E#8, (mf.tyBits), p.ps, bitOf p.pn, (dfS d), (sfS a), (sfS b), (sfS c), (mf.auxBits)⟩
  | .amin p mf d a b c => some ⟨3#2, 0x0F#8, (mf.tyBits), p.ps, bitOf p.pn, (dfS d), (sfS a), (sfS b), (sfS c), (mf.auxBits)⟩
  | .amax p mf d a b c => some ⟨3#2, 0x10#8, (mf.tyBits), p.ps, bitOf p.pn, (dfS d), (sfS a), (sfS b), (sfS c), (mf.auxBits)⟩
  | .aand p mf d a b c => some ⟨3#2, 0x11#8, (mf.tyBits), p.ps, bitOf p.pn, (dfS d), (sfS a), (sfS b), (sfS c), (mf.auxBits)⟩
  | .aor p mf d a b c => some ⟨3#2, 0x12#8, (mf.tyBits), p.ps, bitOf p.pn, (dfS d), (sfS a), (sfS b), (sfS c), (mf.auxBits)⟩
  | .axor p mf d a b c => some ⟨3#2, 0x13#8, (mf.tyBits), p.ps, bitOf p.pn, (dfS d), (sfS a), (sfS b), (sfS c), (mf.auxBits)⟩
  | .aswp p mf d a b c => some ⟨3#2, 0x14#8, (mf.tyBits), p.ps, bitOf p.pn, (dfS d), (sfS a), (sfS b), (sfS c), (mf.auxBits)⟩
  | .acas p mf d a b c => some ⟨3#2, 0x15#8, (mf.tyBits), p.ps, bitOf p.pn, (dfS d), (sfS a), (sfS b), (sfS c), (mf.auxBits)⟩
  | .afadd p mf d a b c => some ⟨3#2, 0x16#8, (mf.tyBits), p.ps, bitOf p.pn, (dfS d), (sfS a), (sfS b), (sfS c), (mf.auxBits)⟩
  | .fence p mf => some ⟨3#2, 0x17#8, (mf.tyBits), p.ps, bitOf p.pn, 0#7, 0#8, 0#8, 0#8, (mf.auxBits)⟩
  | .cwb p mf a b => some ⟨3#2, 0x18#8, (mf.tyBits), p.ps, bitOf p.pn, 0#7, (sfS a), (sfS b), 0#8, (mf.auxBits)⟩
  | .cinv p mf a b => some ⟨3#2, 0x19#8, (mf.tyBits), p.ps, bitOf p.pn, 0#7, (sfS a), (sfS b), 0#8, (mf.auxBits)⟩
  | .pref p mf a b => some ⟨3#2, 0x1A#8, (mf.tyBits), p.ps, bitOf p.pn, 0#7, (sfS a), (sfS b), 0#8, (mf.auxBits)⟩
  | .osclm p mf d a => some ⟨3#2, 0x1B#8, (mf.tyBits), p.ps, bitOf p.pn, (dfS d), (sfS a), 0#8, 0#8, (mf.auxBits)⟩
  | .osrel p mf d a => some ⟨3#2, 0x1C#8, (mf.tyBits), p.ps, bitOf p.pn, (dfS d), (sfS a), 0#8, 0#8, (mf.auxBits)⟩
  | .br p imm => some (Fields.ofImm 3#2 0x40#8 0#4 p.ps (bitOf p.pn) 0#7 0#8 (imm))
  | .brr p a imm => some (Fields.ofImm 3#2 0x41#8 0#4 p.ps (bitOf p.pn) 0#7 (sfS a) (imm))
  | .call p d imm => some (Fields.ofImm 3#2 0x42#8 0#4 p.ps (bitOf p.pn) (dfS d) 0#8 (imm))
  | .ret p a => some (Fields.ofImm 3#2 0x43#8 0#4 p.ps (bitOf p.pn) 0#7 (sfS a) (0#32))
  | .loop p d a imm => some (Fields.ofImm 3#2 0x44#8 0#4 p.ps (bitOf p.pn) (dfS d) (sfS a) (imm))
  | .endh p => some (Fields.ofImm 3#2 0x45#8 0#4 p.ps (bitOf p.pn) 0#7 0#8 (0#32))
  | .park p => some (Fields.ofImm 3#2 0x46#8 0#4 p.ps (bitOf p.pn) 0#7 0#8 (0#32))
  | .trap p n => some (Fields.ofImm 3#2 0x47#8 0#4 p.ps (bitOf p.pn) 0#7 0#8 (0#16 ++ n))
  | .tret p a skip => some (Fields.ofImm 3#2 0x48#8 0#4 p.ps (bitOf p.pn) 0#7 (sfS a) (0#31 ++ bitOf skip))
  | .waitc p tok tom stm ldm => some (Fields.ofImm 3#2 0x49#8 0#4 p.ps (bitOf p.pn) 0#7 0#8 (0#8 ++ tok ++ tom ++ stm ++ ldm))
  | .barw p bar => some (Fields.ofImm 3#2 0x4A#8 0#4 p.ps (bitOf p.pn) 0#7 0#8 (0#27 ++ bar))
  | .bara p d bar => some (Fields.ofImm 3#2 0x4B#8 0#4 p.ps (bitOf p.pn) (dfS d) 0#8 (0#27 ++ bar))
  | .barinit p exp bar => some (Fields.ofImm 3#2 0x4C#8 0#4 p.ps (bitOf p.pn) 0#7 0#8 (0#4 ++ exp ++ 0#11 ++ bar))
  | .emit p d => some ⟨3#2, 0x50#8, 0#4, p.ps, bitOf p.pn, (dfC d), 0#8, 0#8, 0#8, 0#16⟩
  | .drop p d => some ⟨3#2, 0x51#8, 0#4, p.ps, bitOf p.pn, (dfC d), 0#8, 0#8, 0#8, 0#16⟩
  | .skipe p d => some ⟨3#2, 0x52#8, 0#4, p.ps, bitOf p.pn, (dfC d), 0#8, 0#8, 0#8, 0#16⟩
  | .pres p d a => some ⟨3#2, 0x53#8, 0#4, p.ps, bitOf p.pn, (dfS d), (sfK a), 0#8, 0#8, 0#16⟩
  | .pops p d a => some ⟨3#2, 0x54#8, 0#4, p.ps, bitOf p.pn, (dfS d), (sfQ a), 0#8, 0#8, 0#16⟩
  | .hdr p d a fm => some ⟨3#2, 0x55#8, 0#4, p.ps, bitOf p.pn, (dfC d), (sfS a), 0#8, 0#8, (0#11 ++ fm)⟩
  | .ttenq p d a rcore src => some ⟨3#2, 0x56#8, 0#4, p.ps, bitOf p.pn, (dfS d), (sfS a), 0#8, 0#8, (0#11 ++ rcore ++ bitOf src)⟩
  | .xsend p d a => some ⟨3#2, 0x57#8, 0#4, p.ps, bitOf p.pn, (dfC d), (sfS a), 0#8, 0#8, 0#16⟩
  | .board p d a => some ⟨3#2, 0x58#8, 0#4, p.ps, bitOf p.pn, (dfS d), (sfS a), 0#8, 0#8, 0#16⟩
  | .unbrd p d a => some ⟨3#2, 0x59#8, 0#4, p.ps, bitOf p.pn, (dfS d), (sfS a), 0#8, 0#8, 0#16⟩
  | .rhold p a b => some ⟨3#2, 0x5A#8, 0#4, p.ps, bitOf p.pn, 0#7, (sfS a), (sfS b), 0#8, 0#16⟩
  | .rstat p d a => some ⟨3#2, 0x5B#8, 0#4, p.ps, bitOf p.pn, (dfS d), (sfS a), 0#8, 0#8, 0#16⟩
  | .purge p d a b => some ⟨3#2, 0xC6#8, 0#4, p.ps, bitOf p.pn, (dfS d), (sfS a), (sfS b), 0#8, 0#16⟩
  | .snap p a b => some ⟨3#2, 0xC8#8, 0#4, p.ps, bitOf p.pn, 0#7, (sfS a), (sfS b), 0#8, 0#16⟩
  | .freeze p a => some ⟨3#2, 0xC9#8, 0#4, p.ps, bitOf p.pn, 0#7, (sfS a), 0#8, 0#8, 0#16⟩
  | .thaw p a => some ⟨3#2, 0xCA#8, 0#4, p.ps, bitOf p.pn, 0#7, (sfS a), 0#8, 0#8, 0#16⟩
  | .qflush p d a => some ⟨3#2, 0xCC#8, 0#4, p.ps, bitOf p.pn, (dfS d), (sfS a), 0#8, 0#8, 0#16⟩
  | .sqnew p d a b => some ⟨3#2, 0x70#8, 0#4, p.ps, bitOf p.pn, (dfS d), (sfS a), (sfS b), 0#8, 0#16⟩
  | .sqrsv p d a b fault => some ⟨3#2, 0x71#8, 0#4, p.ps, bitOf p.pn, (dfS d), (sfS a), (sfS b), 0#8, (0#15 ++ bitOf fault)⟩
  | .sqadr p d a b => some ⟨3#2, 0x72#8, 0#4, p.ps, bitOf p.pn, (dfS d), (sfS a), (sfS b), 0#8, 0#16⟩
  | .sqcmt p a b sc => some ⟨3#2, 0x73#8, 0#4, p.ps, bitOf p.pn, 0#7, (sfS a), (sfS b), 0#8, (0#3 ++ sc.enc ++ 0#10)⟩
  | .sqlen p d a sc => some ⟨3#2, 0x74#8, 0#4, p.ps, bitOf p.pn, (dfS d), (sfS a), 0#8, 0#8, (0#3 ++ sc.enc ++ 0#10)⟩
  | .sqwait p a b sc => some ⟨3#2, 0x75#8, 0#4, p.ps, bitOf p.pn, 0#7, (sfS a), (sfS b), 0#8, (0#3 ++ sc.enc ++ 0#10)⟩
  | .sqfork p d a b c => some ⟨3#2, 0x76#8, 0#4, p.ps, bitOf p.pn, (dfS d), (sfS a), (sfS b), (sfS c), 0#16⟩
  | .sqref p d a => some ⟨3#2, 0x77#8, 0#4, p.ps, bitOf p.pn, (dfS d), (sfS a), 0#8, 0#8, 0#16⟩
  | .sqrel p d a => some ⟨3#2, 0x78#8, 0#4, p.ps, bitOf p.pn, (dfS d), (sfS a), 0#8, 0#8, 0#16⟩
  | .sqld p d a b c sc => some ⟨3#2, 0x79#8, 0#4, p.ps, bitOf p.pn, (dfS d), (sfS a), (sfS b), (sfS c), (0#3 ++ sc.enc ++ 0#10)⟩
  | .sqvoid p a b sc => some ⟨3#2, 0x7A#8, 0#4, p.ps, bitOf p.pn, 0#7, (sfS a), (sfS b), 0#8, (0#3 ++ sc.enc ++ 0#10)⟩
  | .cntrd p d a => some ⟨3#2, 0x7B#8, 0#4, p.ps, bitOf p.pn, (dfS d), (sfS a), 0#8, 0#8, 0#16⟩
  | .owcrd p d a => some ⟨3#2, 0x7C#8, 0#4, p.ps, bitOf p.pn, (dfS d), (sfS a), 0#8, 0#8, 0#16⟩
  | .qset p a b => some ⟨3#2, 0xC7#8, 0#4, p.ps, bitOf p.pn, 0#7, (sfS a), (sfS b), 0#8, 0#16⟩
  | .cntset p a b => some ⟨3#2, 0xCB#8, 0#4, p.ps, bitOf p.pn, 0#7, (sfS a), (sfS b), 0#8, 0#16⟩
  | .cfgld p d a b => some ⟨3#2, 0xC0#8, 0#4, p.ps, bitOf p.pn, (dfS d), (sfS a), (sfS b), 0#8, 0#16⟩
  | .cfgarm p d a => some ⟨3#2, 0xC1#8, 0#4, p.ps, bitOf p.pn, (dfS d), (sfS a), 0#8, 0#8, 0#16⟩
  | .cfgdis p d a => some ⟨3#2, 0xC2#8, 0#4, p.ps, bitOf p.pn, (dfS d), (sfS a), 0#8, 0#8, 0#16⟩
  | .dictld p d a b => some ⟨3#2, 0xC3#8, 0#4, p.ps, bitOf p.pn, (dfS d), (sfS a), (sfS b), 0#8, 0#16⟩
  | .cbld p d a b => some ⟨3#2, 0xC4#8, 0#4, p.ps, bitOf p.pn, (dfS d), (sfS a), (sfS b), 0#8, 0#16⟩
  | .tlbinv p a b => some ⟨3#2, 0xC5#8, 0#4, p.ps, bitOf p.pn, 0#7, (sfS a), (sfS b), 0#8, 0#16⟩
  | .budget => none
  | .contextSelection _ _ => none
  | .oldestWavePromotion _ _ => none
  | .recordArrival _ => none
  | .spillReplay _ _ _ => none
  | .wakeBufferArrival _ => none
  | .tileWake _ => none
  | .clockGatingEntry _ => none
  | .powerGatingEntry _ => none
  | .owcBroadcast _ _ => none
  | .admission _ _ => none
  | .exitPortRecord _ => none
  | .exitAdmissionLeave _ _ => none
  | .counterNodeRecord _ => none
  | .memoryOperatorRecord _ => none
  | .memoryOperatorResult _ _ => none
  | .steerRecord _ => none
  | .mergeRecord _ => none
  | .conversionNodeRecord _ => none
  | .boundaryNodeRecord _ => none
  | .waveAdvanceRecord _ => none
  | .remoteScratchpadRecord _ => none
  | .aRowRecord _ => none
  | .reconfigurationRecord _ => none
  | .waveControlRecord _ => none
  | .circuitBeat _ _ => none
  | .accessResponse _ => none
  | .storePerformed _ => none
  | .chainAccessRelease _ => none
  | .stefWake _ => none
  | .waitEntryRetry _ _ => none
  | .stefResend _ => none
  | .seqWaitRetry _ _ => none
  | .tableWalk _ => none
  | .pageModeInterval => none
  | .sliceMigration _ => none
  | .ownershipSet _ _ => none
  | .doorbell _ _ => none
  | .commandQueueRead _ => none
  | .queueMap _ _ => none
  | .queueUnmap _ => none
  | .hostReadWrite _ _ _ => none
  | .hostAtomic _ _ _ _ _ _ => none
  | .marchPlacement => none
  | .dieReport _ => none
  | .taskResident _ _ => none
  | .taskIssue _ _ => none
  | .taskRetirement _ _ => none
  | .condTask _ _ => none
  | .whileTask _ _ => none
  | .imma _ _ => none
  | .idrain _ _ => none
  | .izero _ _ => none
  | .regionTask _ _ => none
  | .copyTask _ _ => none
  | .copyStart _ _ => none
  | .copyBeat _ _ => none
  | .copyEnd _ _ => none
  | .sqforkCopyEnd _ => none
  | .lapBoundary => none
  | .tileHeadArrival _ _ => none
  | .tileCrcCheck _ _ _ => none
  | .ringHold => none
  | .holdExpiry => none
  | .underrun _ => none
  | .ringImageEntryWrite _ _ => none
  | .ringPaceWrite _ => none
  | .ringPaceMinWrite _ => none
  | .ringLeadWrite _ => none
  | .coderateWrite _ _ _ => none
  | .throtThWrite _ => none
  | .placeThWrite _ => none
  | .timingThWrite _ => none
  | .wdogThWrite _ => none
  | .tileGatingWrite _ _ => none
  | .firmwareRegisterWrite _ _ => none
  | .corrt _ => none
  | .underrunRead _ => none
  | .latedrop _ => none
  | .fragerr _ => none
  | .decfull _ => none
  | .nacks _ => none
  | .retxn _ => none
  | .msglossRead _ => none
  | .portdropRead _ => none
  | .fragmentArrival _ _ _ _ => none
  | .decodeTimeout _ _ => none
  | .retiredFilterExpiry _ _ => none
  | .ackCoalesce _ _ => none
  | .acknowledgement _ _ => none
  | .nack _ _ _ => none
  | .msgloss _ _ => none
  | .throttleSample _ _ _ => none
  | .debtAccrual _ => none
  | .timingReplay _ => none
  | .replayWindowEnd _ => none
  | .watchdog _ _ => none
  | .preemptionRequest _ => none
  | .preemptionSave _ => none
  | .preemptionRestore _ => none
  | .tenantReset _ => none
  | .dieDrop _ => none
  | .snapEnd _ _ => none
  | .powerOn _ _ => none
  | .policyFirmwareImage _ => none
  | .portLinkChange _ _ => none
  | .vmidTableWrite _ _ => none

/-- The word of an instruction. -/
def encode (i : Instr) : Option Word := i.fields.map Fields.pack

def ofR (f : Fields) : Option Instr :=
  match f.op.toNat with
  | 0x00 => some (.nop f.pred)
  | 0x01 => some (.mov f.pred (dS f.d) (sS f.a))
  | 0x02 => some (.add f.pred (dS f.d) (sS f.a) (sS f.b))
  | 0x03 => some (.sub f.pred (dS f.d) (sS f.a) (sS f.b))
  | 0x04 => some (.mul f.pred (dS f.d) (sS f.a) (sS f.b))
  | 0x05 => some (.mulh f.pred (dS f.d) (sS f.a) (sS f.b))
  | 0x06 => some (.mulhu f.pred (dS f.d) (sS f.a) (sS f.b))
  | 0x07 => some (.div f.pred (dS f.d) (sS f.a) (sS f.b))
  | 0x08 => some (.divu f.pred (dS f.d) (sS f.a) (sS f.b))
  | 0x09 => some (.rem f.pred (dS f.d) (sS f.a) (sS f.b))
  | 0x0A => some (.remu f.pred (dS f.d) (sS f.a) (sS f.b))
  | 0x0B => some (.and f.pred (dS f.d) (sS f.a) (sS f.b))
  | 0x0C => some (.or f.pred (dS f.d) (sS f.a) (sS f.b))
  | 0x0D => some (.xor f.pred (dS f.d) (sS f.a) (sS f.b))
  | 0x0E => some (.andn f.pred (dS f.d) (sS f.a) (sS f.b))
  | 0x0F => some (.shl f.pred (dS f.d) (sS f.a) (sS f.b))
  | 0x10 => some (.shr f.pred (dS f.d) (sS f.a) (sS f.b))
  | 0x11 => some (.sra f.pred (dS f.d) (sS f.a) (sS f.b))
  | 0x12 => some (.rol f.pred (dS f.d) (sS f.a) (sS f.b))
  | 0x13 => some (.min f.pred (dS f.d) (sS f.a) (sS f.b))
  | 0x14 => some (.max f.pred (dS f.d) (sS f.a) (sS f.b))
  | 0x15 => some (.minu f.pred (dS f.d) (sS f.a) (sS f.b))
  | 0x16 => some (.maxu f.pred (dS f.d) (sS f.a) (sS f.b))
  | 0x17 => some (.clz f.pred (dS f.d) (sS f.a))
  | 0x18 => some (.popc f.pred (dS f.d) (sS f.a))
  | 0x19 => some (.brev f.pred (dS f.d) (sS f.a))
  | 0x1A => some (.sel f.pred (dS f.d) (sS f.a) (sS f.b) (sP f.c))
  | 0x1B => (Cond.dec f.ty).bind fun cond => some (.cmp f.pred cond (dP f.d) (sS f.a) (sS f.b))
  | 0x1C => some (.lea f.pred (dS f.d) (sS f.a) (sS f.b) (f.aux.extractLsb' 0 3))
  | 0x1D => (Ty.dec f.ty).bind fun ty => some (.bfx f.pred ty (dS f.d) (sS f.a) (f.aux.extractLsb' 6 7) (f.aux.extractLsb' 0 6))
  | 0x1E => some (.bfi f.pred (dS f.d) (sS f.a) (sS f.b) (f.aux.extractLsb' 6 7) (f.aux.extractLsb' 0 6))
  | 0x1F => (Ty.dec f.ty).bind fun ty => some (.sext f.pred ty (dS f.d) (sS f.a))
  | 0x20 => (Ty.dec f.ty).bind fun ty => some (.zext f.pred ty (dS f.d) (sS f.a))
  | 0x21 => some (.mfs f.pred (dS f.d) (sS f.a) (f.aux.extractLsb' 0 3))
  | 0x22 => some (.mts f.pred (dS f.d) (sS f.a))
  | 0x30 => (Ty.dec f.ty).bind fun ty => (Sat.dec (f.aux.extractLsb' 3 2)).bind fun sm => (Rnd.dec (f.aux.extractLsb' 0 3)).bind fun rnd => some (.fadd f.pred ty (dS f.d) (sS f.a) (sS f.b) sm rnd)
  | 0x31 => (Ty.dec f.ty).bind fun ty => (Sat.dec (f.aux.extractLsb' 3 2)).bind fun sm => (Rnd.dec (f.aux.extractLsb' 0 3)).bind fun rnd => some (.fsub f.pred ty (dS f.d) (sS f.a) (sS f.b) sm rnd)
  | 0x32 => (Ty.dec f.ty).bind fun ty => (Sat.dec (f.aux.extractLsb' 3 2)).bind fun sm => (Rnd.dec (f.aux.extractLsb' 0 3)).bind fun rnd => some (.fmul f.pred ty (dS f.d) (sS f.a) (sS f.b) sm rnd)
  | 0x33 => (Ty.dec f.ty).bind fun ty => (Sat.dec (f.aux.extractLsb' 3 2)).bind fun sm => (Rnd.dec (f.aux.extractLsb' 0 3)).bind fun rnd => some (.ffma f.pred ty (dS f.d) (sS f.a) (sS f.b) (sS f.c) sm rnd)
  | 0x34 => (Ty.dec f.ty).bind fun ty => some (.fmin f.pred ty (dS f.d) (sS f.a) (sS f.b))
  | 0x35 => (Ty.dec f.ty).bind fun ty => some (.fmax f.pred ty (dS f.d) (sS f.a) (sS f.b))
  | 0x36 => (Ty.dec f.ty).bind fun ty => (FCond.dec (f.aux.extractLsb' 0 3)).bind fun cond => some (.fcmp f.pred ty (dP f.d) (sS f.a) (sS f.b) cond)
  | 0x37 => (Ty.dec f.ty).bind fun ty => (Ty.dec (f.aux.extractLsb' 5 4)).bind fun src => (Sat.dec (f.aux.extractLsb' 3 2)).bind fun sm => (Rnd.dec (f.aux.extractLsb' 0 3)).bind fun rnd => some (.fcvt f.pred ty (dS f.d) (sS f.a) src sm rnd)
  | 0x38 => some (.pand f.pred (f.ty.getLsbD 0) (f.ty.getLsbD 1) (dP f.d) (sP f.a) (sP f.b))
  | 0x39 => some (.por f.pred (f.ty.getLsbD 0) (f.ty.getLsbD 1) (dP f.d) (sP f.a) (sP f.b))
  | 0x3A => some (.pxor f.pred (f.ty.getLsbD 0) (f.ty.getLsbD 1) (dP f.d) (sP f.a) (sP f.b))
  | 0x3B => some (.pnot f.pred (dP f.d) (sP f.a))
  | 0x40 => (Ty.dec f.ty).bind fun ty => (Sat.dec (f.aux.extractLsb' 3 2)).bind fun sm => (Rnd.dec (f.aux.extractLsb' 0 3)).bind fun rnd => some (.vadd f.pred ty (VDst.dec f.d) (VSrc.dec f.a) (VSrc.dec f.b) (Mask.dec (f.aux.extractLsb' 11 5)) sm rnd)
  | 0x41 => (Ty.dec f.ty).bind fun ty => (Sat.dec (f.aux.extractLsb' 3 2)).bind fun sm => (Rnd.dec (f.aux.extractLsb' 0 3)).bind fun rnd => some (.vsub f.pred ty (VDst.dec f.d) (VSrc.dec f.a) (VSrc.dec f.b) (Mask.dec (f.aux.extractLsb' 11 5)) sm rnd)
  | 0x42 => (Ty.dec f.ty).bind fun ty => (Sat.dec (f.aux.extractLsb' 3 2)).bind fun sm => (Rnd.dec (f.aux.extractLsb' 0 3)).bind fun rnd => some (.vmul f.pred ty (VDst.dec f.d) (VSrc.dec f.a) (VSrc.dec f.b) (Mask.dec (f.aux.extractLsb' 11 5)) sm rnd)
  | 0x43 => (Ty.dec f.ty).bind fun ty => (Sat.dec (f.aux.extractLsb' 3 2)).bind fun sm => (Rnd.dec (f.aux.extractLsb' 0 3)).bind fun rnd => some (.vfma f.pred ty (VDst.dec f.d) (VSrc.dec f.a) (VSrc.dec f.b) (VSrc.dec f.c) (Mask.dec (f.aux.extractLsb' 11 5)) sm rnd)
  | 0x44 => (Ty.dec f.ty).bind fun ty => some (.vmin f.pred ty (VDst.dec f.d) (VSrc.dec f.a) (VSrc.dec f.b) (Mask.dec (f.aux.extractLsb' 11 5)))
  | 0x45 => (Ty.dec f.ty).bind fun ty => some (.vmax f.pred ty (VDst.dec f.d) (VSrc.dec f.a) (VSrc.dec f.b) (Mask.dec (f.aux.extractLsb' 11 5)))
  | 0x46 => (Ty.dec f.ty).bind fun ty => (Sat.dec (f.aux.extractLsb' 3 2)).bind fun sm => (Rnd.dec (f.aux.extractLsb' 0 3)).bind fun rnd => some (.vabs f.pred ty (VDst.dec f.d) (VSrc.dec f.a) (Mask.dec (f.aux.extractLsb' 11 5)) sm rnd)
  | 0x47 => (Ty.dec f.ty).bind fun ty => (Sat.dec (f.aux.extractLsb' 3 2)).bind fun sm => (Rnd.dec (f.aux.extractLsb' 0 3)).bind fun rnd => some (.vneg f.pred ty (VDst.dec f.d) (VSrc.dec f.a) (Mask.dec (f.aux.extractLsb' 11 5)) sm rnd)
  | 0x48 => (Ty.dec f.ty).bind fun ty => some (.vand f.pred ty (VDst.dec f.d) (VSrc.dec f.a) (VSrc.dec f.b) (Mask.dec (f.aux.extractLsb' 11 5)))
  | 0x49 => (Ty.dec f.ty).bind fun ty => some (.vor f.pred ty (VDst.dec f.d) (VSrc.dec f.a) (VSrc.dec f.b) (Mask.dec (f.aux.extractLsb' 11 5)))
  | 0x4A => (Ty.dec f.ty).bind fun ty => some (.vxor f.pred ty (VDst.dec f.d) (VSrc.dec f.a) (VSrc.dec f.b) (Mask.dec (f.aux.extractLsb' 11 5)))
  | 0x4B => (Ty.dec f.ty).bind fun ty => some (.vshl f.pred ty (VDst.dec f.d) (VSrc.dec f.a) (VSrc.dec f.b) (Mask.dec (f.aux.extractLsb' 11 5)))
  | 0x4C => (Ty.dec f.ty).bind fun ty => some (.vshr f.pred ty (VDst.dec f.d) (VSrc.dec f.a) (VSrc.dec f.b) (Mask.dec (f.aux.extractLsb' 11 5)))
  | 0x4D => (Ty.dec f.ty).bind fun ty => some (.vsra f.pred ty (VDst.dec f.d) (VSrc.dec f.a) (VSrc.dec f.b) (Mask.dec (f.aux.extractLsb' 11 5)))
  | 0x4E => (Ty.dec f.ty).bind fun ty => (VCond.dec (f.aux.extractLsb' 5 3)).bind fun cond => some (.vcmp f.pred ty (dM f.d) (VSrc.dec f.a) (VSrc.dec f.b) (Mask.dec (f.aux.extractLsb' 11 5)) cond)
  | 0x4F => (Ty.dec f.ty).bind fun ty => some (.vsel f.pred ty (VDst.dec f.d) (VSrc.dec f.a) (VSrc.dec f.b) (sM f.c))
  | 0x50 => (Ty.dec f.ty).bind fun ty => (Ty.dec (f.aux.extractLsb' 5 4)).bind fun src => (Sat.dec (f.aux.extractLsb' 3 2)).bind fun sm => (Rnd.dec (f.aux.extractLsb' 0 3)).bind fun rnd => some (.vcvt f.pred ty (VDst.dec f.d) (VSrc.dec f.a) (Mask.dec (f.aux.extractLsb' 11 5)) (f.aux.extractLsb' 9 2) src sm rnd)
  | 0x51 => (Ty.dec f.ty).bind fun ty => (Sat.dec (f.aux.extractLsb' 3 2)).bind fun sm => some (.vrcp f.pred ty (VDst.dec f.d) (VSrc.dec f.a) (Mask.dec (f.aux.extractLsb' 11 5)) sm)
  | 0x52 => (Ty.dec f.ty).bind fun ty => (Sat.dec (f.aux.extractLsb' 3 2)).bind fun sm => some (.vrsq f.pred ty (VDst.dec f.d) (VSrc.dec f.a) (Mask.dec (f.aux.extractLsb' 11 5)) sm)
  | 0x53 => (Ty.dec f.ty).bind fun ty => (Sat.dec (f.aux.extractLsb' 3 2)).bind fun sm => some (.vexp2 f.pred ty (VDst.dec f.d) (VSrc.dec f.a) (Mask.dec (f.aux.extractLsb' 11 5)) sm)
  | 0x54 => (Ty.dec f.ty).bind fun ty => (Sat.dec (f.aux.extractLsb' 3 2)).bind fun sm => some (.vlog2 f.pred ty (VDst.dec f.d) (VSrc.dec f.a) (Mask.dec (f.aux.extractLsb' 11 5)) sm)
  | 0x55 => (Ty.dec f.ty).bind fun ty => (Sat.dec (f.aux.extractLsb' 3 2)).bind fun sm => (Rnd.dec (f.aux.extractLsb' 0 3)).bind fun rnd => some (.vsum f.pred ty (VDst.dec f.d) (VSrc.dec f.a) (Mask.dec (f.aux.extractLsb' 11 5)) sm rnd)
  | 0x56 => (Ty.dec f.ty).bind fun ty => some (.vrmax f.pred ty (VDst.dec f.d) (VSrc.dec f.a) (Mask.dec (f.aux.extractLsb' 11 5)))
  | 0x57 => (Ty.dec f.ty).bind fun ty => some (.vrmin f.pred ty (VDst.dec f.d) (VSrc.dec f.a) (Mask.dec (f.aux.extractLsb' 11 5)))
  | 0x58 => (Ty.dec f.ty).bind fun ty => (Sat.dec (f.aux.extractLsb' 3 2)).bind fun sm => (Rnd.dec (f.aux.extractLsb' 0 3)).bind fun rnd => some (.vscan f.pred ty (VDst.dec f.d) (VSrc.dec f.a) (f.aux.getLsbD 5) sm rnd)
  | 0x59 =>
    match f.ty.toNat with
    | 0 => some (.vtopkReset f.pred (f.aux.extractLsb' 10 6) (f.aux.extractLsb' 8 2))
    | 1 => some (.vtopkFeed f.pred (VSrc.dec f.a) (VSrc.dec f.b) (f.aux.extractLsb' 8 2))
    | 2 => some (.vtopkDrainv f.pred (VDst.dec f.d) (f.aux.extractLsb' 10 2) (f.aux.extractLsb' 8 2))
    | 3 => some (.vtopkDraini f.pred (VDst.dec f.d) (f.aux.extractLsb' 10 2) (f.aux.extractLsb' 8 2))
    | _ => none
  | 0x5A => (Ty.dec f.ty).bind fun ty => some (.vperm f.pred ty (VDst.dec f.d) (VSrc.dec f.a) (VSrc.dec f.b))
  | 0x5B => (Ty.dec f.ty).bind fun ty => some (.vbcast f.pred ty (VDst.dec f.d) (VSrc.dec f.a) (f.aux.extractLsb' 5 6))
  | 0x5C => (Ty.dec f.ty).bind fun ty => some (.vsplat f.pred ty (VDst.dec f.d) (sS f.a))
  | 0x5D => (Ty.dec f.ty).bind fun ty => some (.vins f.pred ty (dV f.d) (sS f.a) (f.aux.extractLsb' 5 6))
  | 0x5E => (Ty.dec f.ty).bind fun ty => some (.vext f.pred ty (dS f.d) (VSrc.dec f.a) (f.aux.extractLsb' 5 6))
  | 0x5F => (Ty.dec f.ty).bind fun ty => some (.vzip f.pred ty (VDst.dec f.d) (VSrc.dec f.a) (VSrc.dec f.b) (f.aux.getLsbD 5))
  | 0x60 => (Ty.dec f.ty).bind fun ty => some (.vunzip f.pred ty (VDst.dec f.d) (VSrc.dec f.a) (VSrc.dec f.b) (f.aux.getLsbD 5))
  | 0x61 => (Ty.dec f.ty).bind fun ty => some (.vcomp f.pred ty (VDst.dec f.d) (VSrc.dec f.a) (sM f.c))
  | 0x62 => (Ty.dec f.ty).bind fun ty => some (.vexpd f.pred ty (VDst.dec f.d) (VSrc.dec f.a) (sM f.c))
  | 0x63 => (Ty.dec f.ty).bind fun ty => (Sat.dec (f.aux.extractLsb' 3 2)).bind fun sm => (Rnd.dec (f.aux.extractLsb' 0 3)).bind fun rnd => some (.vdot f.pred ty (VDst.dec f.d) (VSrc.dec f.a) (VSrc.dec f.b) (Mask.dec (f.aux.extractLsb' 11 5)) sm rnd)
  | 0x64 => some (.vcbd f.pred (VDst.dec f.d) (VSrc.dec f.a) (f.aux.extractLsb' 5 3))
  | 0x65 => (Ty.dec f.ty).bind fun ty => (Sat.dec (f.aux.extractLsb' 3 2)).bind fun sm => (Rnd.dec (f.aux.extractLsb' 0 3)).bind fun rnd => some (.vscale f.pred ty (VDst.dec f.d) (VSrc.dec f.a) (sS f.b) (Mask.dec (f.aux.extractLsb' 11 5)) (f.aux.getLsbD 5) sm rnd)
  | 0x66 => (Sat.dec (f.aux.extractLsb' 3 2)).bind fun sm => (Rnd.dec (f.aux.extractLsb' 0 3)).bind fun rnd => some (.vqnt f.pred (VDst.dec f.d) (sV f.a) (sS f.b) sm rnd)
  | 0x67 => (Ty.dec f.ty).bind fun ty => some (.viota f.pred ty (VDst.dec f.d) (sS f.a))
  | 0x68 => (Ty.dec f.ty).bind fun ty => some (.vmulh f.pred ty (VDst.dec f.d) (VSrc.dec f.a) (VSrc.dec f.b) (Mask.dec (f.aux.extractLsb' 11 5)))
  | 0x69 => (Ty.dec f.ty).bind fun ty => some (.vmov f.pred ty (VDst.dec f.d) (VSrc.dec f.a) (Mask.dec (f.aux.extractLsb' 11 5)))
  | 0x6A => (Ty.dec f.ty).bind fun ty => some (.mand f.pred ty (dM f.d) (sM f.a) (sM f.b))
  | 0x6B => (Ty.dec f.ty).bind fun ty => some (.mor f.pred ty (dM f.d) (sM f.a) (sM f.b))
  | 0x6C => (Ty.dec f.ty).bind fun ty => some (.mxor f.pred ty (dM f.d) (sM f.a) (sM f.b))
  | 0x6D => (Ty.dec f.ty).bind fun ty => some (.mnot f.pred ty (dM f.d) (sM f.a))
  | 0x6E => (Ty.dec f.ty).bind fun ty => some (.mcnt f.pred ty (dS f.d) (sM f.a))
  | 0xA0 => some (.mzero f.pred (dA f.d))
  | 0xA1 => (Ty.dec f.ty).bind fun ty => some (.mmat f.pred ty (dA f.d) (sS f.a) (sS f.b) (f.aux.getLsbD 5))
  | 0xA2 => (Ty.dec f.ty).bind fun ty => (Sat.dec (f.aux.extractLsb' 3 2)).bind fun sm => (Rnd.dec (f.aux.extractLsb' 0 3)).bind fun rnd => some (.mrdr f.pred ty (VDst.dec f.d) (sA f.a) (f.aux.getLsbD 10) (f.aux.extractLsb' 5 5) sm rnd)
  | 0xA3 => (Ty.dec f.ty).bind fun ty => some (.mwrr f.pred ty (dA f.d) (VSrc.dec f.a) (f.aux.getLsbD 10) (f.aux.extractLsb' 5 5))
  | 0xA4 => (Ty.dec f.ty).bind fun ty => (Sat.dec (f.aux.extractLsb' 3 2)).bind fun sm => (Rnd.dec (f.aux.extractLsb' 0 3)).bind fun rnd => some (.mrdc f.pred ty (VDst.dec f.d) (sA f.a) (f.aux.getLsbD 10) (f.aux.extractLsb' 5 5) sm rnd)
  | 0xA5 => (Ty.dec f.ty).bind fun ty => (Sat.dec (f.aux.extractLsb' 3 2)).bind fun sm => (Rnd.dec (f.aux.extractLsb' 0 3)).bind fun rnd => some (.msta f.pred ty (sA f.a) (sS f.b) sm rnd)
  | 0xA6 => some (.mlda f.pred (dA f.d) (sS f.a))
  | _ => none

def ofI (f : Fields) : Option Instr :=
  match f.op.toNat with
  | 0x00 => some (.li f.pred (dS f.d) (f.imm.extractLsb' 0 32))
  | 0x01 => some (.lih f.pred (dS f.d) (sS f.a) (f.imm.extractLsb' 0 32))
  | 0x02 => some (.addi f.pred (dS f.d) (sS f.a) (f.imm.extractLsb' 0 32))
  | 0x03 => some (.andi f.pred (dS f.d) (sS f.a) (f.imm.extractLsb' 0 32))
  | 0x04 => some (.ori f.pred (dS f.d) (sS f.a) (f.imm.extractLsb' 0 32))
  | 0x05 => some (.xori f.pred (dS f.d) (sS f.a) (f.imm.extractLsb' 0 32))
  | 0x06 => some (.shli f.pred (dS f.d) (sS f.a) (f.imm.extractLsb' 0 6))
  | 0x07 => some (.shri f.pred (dS f.d) (sS f.a) (f.imm.extractLsb' 0 6))
  | 0x08 => some (.srai f.pred (dS f.d) (sS f.a) (f.imm.extractLsb' 0 6))
  | 0x09 => some (.muli f.pred (dS f.d) (sS f.a) (f.imm.extractLsb' 0 32))
  | 0x0A => (Cond.dec f.ty).bind fun cond => some (.cmpi f.pred cond (dP f.d) (sS f.a) (f.imm.extractLsb' 0 32))
  | 0x0B => some (.mini f.pred (dS f.d) (sS f.a) (f.imm.extractLsb' 0 32))
  | 0x0C => some (.maxi f.pred (dS f.d) (sS f.a) (f.imm.extractLsb' 0 32))
  | 0x0D => (Ty.dec f.ty).bind fun ty => some (.vbcasti f.pred ty (dV f.d) (f.imm.extractLsb' 0 32))
  | 0x0E => (Ty.dec f.ty).bind fun ty => some (.fli f.pred ty (dS f.d) (f.imm.extractLsb' 0 32))
  | _ => none

def ofM (f : Fields) : Option Instr :=
  match f.op.toNat with
  | 0x00 => (MemF.dec f.ty f.aux).bind fun mf => some (.ld f.pred mf (dS f.d) (sS f.a) (sS f.b))
  | 0x01 => (MemF.dec f.ty f.aux).bind fun mf => some (.st f.pred mf (sS f.a) (sS f.b) (sS f.c))
  | 0x02 => (MemF.dec f.ty f.aux).bind fun mf => some (.vld f.pred mf (dV f.d) (sS f.a) (sS f.b))
  | 0x03 => (MemF.dec f.ty f.aux).bind fun mf => some (.vst f.pred mf (sS f.a) (sS f.b) (sV f.c))
  | 0x04 => (MemF.dec f.ty f.aux).bind fun mf => some (.vldg f.pred mf (dV f.d) (sS f.a) (sV f.b))
  | 0x05 => (MemF.dec f.ty f.aux).bind fun mf => some (.vsts f.pred mf (sS f.a) (sV f.b) (sV f.c))
  | 0x06 => (MemF.dec f.ty f.aux).bind fun mf => some (.ldf f.pred mf (dS f.d) (sS f.a) (sS f.b))
  | 0x07 => (MemF.dec f.ty f.aux).bind fun mf => some (.ldfe f.pred mf (dS f.d) (sS f.a) (sS f.b))
  | 0x08 => (MemF.dec f.ty f.aux).bind fun mf => some (.stef f.pred mf (sS f.a) (sS f.b) (sS f.c))
  | 0x09 => (MemF.dec f.ty f.aux).bind fun mf => some (.stf f.pred mf (sS f.a) (sS f.b) (sS f.c))
  | 0x0A => (MemF.dec f.ty f.aux).bind fun mf => some (.vldf f.pred mf (dV f.d) (sS f.a) (sS f.b))
  | 0x0B => (MemF.dec f.ty f.aux).bind fun mf => some (.vstf f.pred mf (sS f.a) (sS f.b) (sV f.c))
  | 0x0C => (MemF.dec f.ty f.aux).bind fun mf => some (.feget f.pred mf (dS f.d) (sS f.a) (sS f.b))
  | 0x0D => (MemF.dec f.ty f.aux).bind fun mf => some (.feset f.pred mf (sS f.a) (sS f.b) (sS f.c))
  | 0x0E => (MemF.dec f.ty f.aux).bind fun mf => some (.aadd f.pred mf (dS f.d) (sS f.a) (sS f.b) (sS f.c))
  | 0x0F => (MemF.dec f.ty f.aux).bind fun mf => some (.amin f.pred mf (dS f.d) (sS f.a) (sS f.b) (sS f.c))
  | 0x10 => (MemF.dec f.ty f.aux).bind fun mf => some (.amax f.pred mf (dS f.d) (sS f.a) (sS f.b) (sS f.c))
  | 0x11 => (MemF.dec f.ty f.aux).bind fun mf => some (.aand f.pred mf (dS f.d) (sS f.a) (sS f.b) (sS f.c))
  | 0x12 => (MemF.dec f.ty f.aux).bind fun mf => some (.aor f.pred mf (dS f.d) (sS f.a) (sS f.b) (sS f.c))
  | 0x13 => (MemF.dec f.ty f.aux).bind fun mf => some (.axor f.pred mf (dS f.d) (sS f.a) (sS f.b) (sS f.c))
  | 0x14 => (MemF.dec f.ty f.aux).bind fun mf => some (.aswp f.pred mf (dS f.d) (sS f.a) (sS f.b) (sS f.c))
  | 0x15 => (MemF.dec f.ty f.aux).bind fun mf => some (.acas f.pred mf (dS f.d) (sS f.a) (sS f.b) (sS f.c))
  | 0x16 => (MemF.dec f.ty f.aux).bind fun mf => some (.afadd f.pred mf (dS f.d) (sS f.a) (sS f.b) (sS f.c))
  | 0x17 => (MemF.dec f.ty f.aux).bind fun mf => some (.fence f.pred mf)
  | 0x18 => (MemF.dec f.ty f.aux).bind fun mf => some (.cwb f.pred mf (sS f.a) (sS f.b))
  | 0x19 => (MemF.dec f.ty f.aux).bind fun mf => some (.cinv f.pred mf (sS f.a) (sS f.b))
  | 0x1A => (MemF.dec f.ty f.aux).bind fun mf => some (.pref f.pred mf (sS f.a) (sS f.b))
  | 0x1B => (MemF.dec f.ty f.aux).bind fun mf => some (.osclm f.pred mf (dS f.d) (sS f.a))
  | 0x1C => (MemF.dec f.ty f.aux).bind fun mf => some (.osrel f.pred mf (dS f.d) (sS f.a))
  | _ => none

def ofC (f : Fields) : Option Instr :=
  match f.op.toNat with
  | 0x40 => some (.br f.pred (f.imm.extractLsb' 0 32))
  | 0x41 => some (.brr f.pred (sS f.a) (f.imm.extractLsb' 0 32))
  | 0x42 => some (.call f.pred (dS f.d) (f.imm.extractLsb' 0 32))
  | 0x43 => some (.ret f.pred (sS f.a))
  | 0x44 => some (.loop f.pred (dS f.d) (sS f.a) (f.imm.extractLsb' 0 32))
  | 0x45 => some (.endh f.pred)
  | 0x46 => some (.park f.pred)
  | 0x47 => some (.trap f.pred (f.imm.extractLsb' 0 16))
  | 0x48 => some (.tret f.pred (sS f.a) (f.imm.getLsbD 0))
  | 0x49 => some (.waitc f.pred (f.imm.extractLsb' 16 8) (f.imm.extractLsb' 12 4) (f.imm.extractLsb' 6 6) (f.imm.extractLsb' 0 6))
  | 0x4A => some (.barw f.pred (f.imm.extractLsb' 0 5))
  | 0x4B => some (.bara f.pred (dS f.d) (f.imm.extractLsb' 0 5))
  | 0x4C => some (.barinit f.pred (f.imm.extractLsb' 16 12) (f.imm.extractLsb' 0 5))
  | _ => none

def ofE (f : Fields) : Option Instr :=
  match f.op.toNat with
  | 0x50 => some (.emit f.pred (dS f.d))
  | 0x51 => some (.drop f.pred (dS f.d))
  | 0x52 => some (.skipe f.pred (dS f.d))
  | 0x53 => some (.pres f.pred (dS f.d) (sS f.a))
  | 0x54 => some (.pops f.pred (dS f.d) (sS f.a))
  | 0x55 => some (.hdr f.pred (dS f.d) (sS f.a) (f.aux.extractLsb' 0 5))
  | 0x56 => some (.ttenq f.pred (dS f.d) (sS f.a) (f.aux.extractLsb' 1 4) (f.aux.getLsbD 0))
  | 0x57 => some (.xsend f.pred (dS f.d) (sS f.a))
  | 0x58 => some (.board f.pred (dS f.d) (sS f.a))
  | 0x59 => some (.unbrd f.pred (dS f.d) (sS f.a))
  | 0x5A => some (.rhold f.pred (sS f.a) (sS f.b))
  | 0x5B => some (.rstat f.pred (dS f.d) (sS f.a))
  | 0x70 => some (.sqnew f.pred (dS f.d) (sS f.a) (sS f.b))
  | 0x71 => some (.sqrsv f.pred (dS f.d) (sS f.a) (sS f.b) (f.aux.getLsbD 0))
  | 0x72 => some (.sqadr f.pred (dS f.d) (sS f.a) (sS f.b))
  | 0x73 => (SC.dec (f.aux.extractLsb' 10 3)).bind fun sc => some (.sqcmt f.pred (sS f.a) (sS f.b) sc)
  | 0x74 => (SC.dec (f.aux.extractLsb' 10 3)).bind fun sc => some (.sqlen f.pred (dS f.d) (sS f.a) sc)
  | 0x75 => (SC.dec (f.aux.extractLsb' 10 3)).bind fun sc => some (.sqwait f.pred (sS f.a) (sS f.b) sc)
  | 0x76 => some (.sqfork f.pred (dS f.d) (sS f.a) (sS f.b) (sS f.c))
  | 0x77 => some (.sqref f.pred (dS f.d) (sS f.a))
  | 0x78 => some (.sqrel f.pred (dS f.d) (sS f.a))
  | 0x79 => (SC.dec (f.aux.extractLsb' 10 3)).bind fun sc => some (.sqld f.pred (dS f.d) (sS f.a) (sS f.b) (sS f.c) sc)
  | 0x7A => (SC.dec (f.aux.extractLsb' 10 3)).bind fun sc => some (.sqvoid f.pred (sS f.a) (sS f.b) sc)
  | 0x7B => some (.cntrd f.pred (dS f.d) (sS f.a))
  | 0x7C => some (.owcrd f.pred (dS f.d) (sS f.a))
  | 0xC0 => some (.cfgld f.pred (dS f.d) (sS f.a) (sS f.b))
  | 0xC1 => some (.cfgarm f.pred (dS f.d) (sS f.a))
  | 0xC2 => some (.cfgdis f.pred (dS f.d) (sS f.a))
  | 0xC3 => some (.dictld f.pred (dS f.d) (sS f.a) (sS f.b))
  | 0xC4 => some (.cbld f.pred (dS f.d) (sS f.a) (sS f.b))
  | 0xC5 => some (.tlbinv f.pred (sS f.a) (sS f.b))
  | 0xC6 => some (.purge f.pred (dS f.d) (sS f.a) (sS f.b))
  | 0xC7 => some (.qset f.pred (sS f.a) (sS f.b))
  | 0xC8 => some (.snap f.pred (sS f.a) (sS f.b))
  | 0xC9 => some (.freeze f.pred (sS f.a))
  | 0xCA => some (.thaw f.pred (sS f.a))
  | 0xCB => some (.cntset f.pred (sS f.a) (sS f.b))
  | 0xCC => some (.qflush f.pred (dS f.d) (sS f.a))
  | _ => none

/-- The instruction that the fields name, before the checks of WellFormed (spec/09 R185, R199). -/
def ofFields (f : Fields) : Option Instr :=
  match f.form.toNat with
  | 1 => ofR f
  | 2 => ofI f
  | 3 => if f.op.toNat < 0x40 then ofM f else if f.op.toNat < 0x50 then ofC f else ofE f
  | _ => none

/-- The instruction of a full word; none where the word traps ILL (spec/09 R200). -/
def decodeWord (w : Word) : Option Instr :=
  match ofFields (Fields.unpack w) with
  | some i => if i.wf && encode i == some w then some i else none
  | none => none

/-- A dictionary code's index; none where the parcel traps DICT for its reserved bits (spec/09 R182). -/
def decodeCode (p : Parcel) : Option Instr :=
  if p.extractLsb' 10 6 == 0 then some (.dictionaryCode (p.extractLsb' 0 10)) else none

/-- The instruction of four parcels, the first fetched first (spec/09 R180, R181). -/
def decodeParcels (p0 p1 p2 p3 : Parcel) : Option Instr :=
  if p0.extractLsb' 14 2 == 0 then decodeCode p0 else decodeWord (p0 ++ p1 ++ p2 ++ p3)

/-- The instruction whose bits are w, numbered as spec/opcode_table.json numbers them: bit 0 is the least
significant bit of the first parcel, and every bit above nbits is 0. -/
def decodeTableWord (nbits w : Nat) : Option Instr :=
  let v := w % 2 ^ nbits
  decodeParcels (BitVec.ofNat 16 v) (BitVec.ofNat 16 (v >>> 16)) (BitVec.ofNat 16 (v >>> 32)) (BitVec.ofNat 16 (v >>> 48))

end Sys2Proof
end

