-- ==== Sys2Proof/Machine/Base.lean ====
section
/-!
DEFINITION. Machine/Base.lean: reading and writing the parts of State: contexts and their registers, frames, tiles,
cores, regions with their tables, partitions. Special behaviour of a register lives here (s0 reads zero, p0 reads 1).
-/

namespace Sys2Proof.Machine

namespace State

def ctx (s : State) (k : Nat) : Ctx := lget {} s.ctxs k
def setCtx (s : State) (k : Nat) (c : Ctx) : State := { s with ctxs := lset s.ctxs k c }
def frame (s : State) (k : Nat) : Frame := lget {} s.frames k
def setFrame (s : State) (k : Nat) (f : Frame) : State := { s with frames := lset s.frames k f }
def tile (s : State) (t : Nat) : Tile := lget {} s.tiles t
def setTile (s : State) (t : Nat) (x : Tile) : State := { s with tiles := lset s.tiles t x }
def core (s : State) (c : Nat) : Core := lget {} s.cores c
def setCore (s : State) (c : Nat) (x : Core) : State := { s with cores := lset s.cores c x }
def region (s : State) (r : Nat) : Region := lget {} s.regions r
def setRegion (s : State) (r : Nat) (x : Region) : State := { s with regions := lset s.regions r x }
def part (s : State) (p : Nat) : Part := lget {} s.parts p
def setPart (s : State) (p : Nat) (x : Part) : State := { s with parts := lset s.parts p x }
def fab (s : State) (d : Nat) : Fabric := lget {} s.fabric d
def setFab (s : State) (d : Nat) (x : Fabric) : State := { s with fabric := lset s.fabric d x }

/-- CODERATE[n] of a die (spec/08 R166): DECTO, KMAX and M at their reset values until firmware writes them. -/
def coderate (s : State) (d n : Nat) : BitVec 32 :=
  lget (if n ≤ 1 then 0x00140201 else if n ≤ 4 then 0x00140802 else 0x00C81004) (s.fab d).coderate n
/-- Decode timeout of a class in nominal clk (spec/08 R166, R171). -/
def decto (s : State) (d n : Nat) : Nat := ((s.coderate d n).extractLsb' 16 16).toNat * 2700
/-- The context whose instruction is performed. -/
def cur (s : State) : Ctx := s.ctx s.focus
def setCur (s : State) (c : Ctx) : State := s.setCtx s.focus c
def curTile (s : State) : Nat := s.focus / 4
def curCore (s : State) : Nat := s.focus / 128
def curDie (s : State) : Nat := s.focus / 2048
def curFrameKey (s : State) : Nat := s.curTile * 128 + s.cur.frame
def curFrame (s : State) : Frame := s.frame s.curFrameKey
/-- The region of the context's core; a core of no region stands for itself. -/
def curRegion (s : State) : Nat := ((s.core s.curCore).region).getD s.curCore
/-- The partition that owns a core (spec/14 R290); 16 where none does. -/
def partOf (s : State) (c : Nat) : Nat := lget 16 s.ownCore c
def curPart (s : State) : Nat := s.partOf s.curCore

/-! Registers of the context (spec/10 R205). -/

/-- A scalar register: s0 reads zero; one not yet written reads 0 after reset, and is undefined in an activation. -/
def rdS (s : State) (r : SReg) : Word :=
  if r = 0 then 0
  else match lget? s.cur.sregs r.toNat with
    | some v => v
    | none => if s.cur.epoch = 0 then 0 else Config.freeWord s.cur.epoch r.toNat

/-- A write of a scalar register: s0 ignores it (spec/09 R188). An outstanding load of the register no longer writes it
(spec/11 R220). -/
def wrS (s : State) (r : SReg) (v : Word) : State :=
  if r = 0 then s
  else s.setCur { s.cur with sregs := lset s.cur.sregs r.toNat v, pendS := ldel s.cur.pendS r.toNat }

def rdV (s : State) (r : VReg) : Vec :=
  match lget? s.cur.vregs r.toNat with
  | some v => v
  | none => if s.cur.epoch = 0 then 0 else Config.freeVec s.cur.epoch r.toNat

def wrV (s : State) (r : VReg) (v : Vec) : State :=
  s.setCur { s.cur with vregs := lset s.cur.vregs r.toNat v, pendV := ldel s.cur.pendV r.toNat }

/-- A predicate: p0 reads 1 (spec/10 R205). -/
def rdP (s : State) (r : PReg) : Bool :=
  if r = 0 then true
  else match lget? s.cur.preds r.toNat with
    | some v => v
    | none => if s.cur.epoch = 0 then false else Config.freePred s.cur.epoch r.toNat

/-- A write of a predicate: p0 ignores it. -/
def wrP (s : State) (r : PReg) (v : Bool) : State :=
  if r = 0 then s else s.setCur { s.cur with preds := lset s.cur.preds r.toNat v }

def rdM (s : State) (r : MReg) : Word :=
  match lget? s.cur.masks r.toNat with
  | some v => v
  | none => if s.cur.epoch = 0 then 0 else Config.freeMask s.cur.epoch r.toNat

def wrM (s : State) (r : MReg) (v : Word) : State :=
  s.setCur { s.cur with masks := lset s.cur.masks r.toNat v }

/-- The predicate of an instruction (spec/09 R191). -/
def holds (s : State) (p : Pred) : Bool := xor (s.rdP p.ps) p.pn

/-! Tile memory (spec/14 R282, R284). -/

def tread (s : State) (t off n : Nat) : Nat := mread s.tmem (t * 0x80000 + off) n
def twrite (s : State) (t off n v : Nat) : State := { s with tmem := mwrite s.tmem (t * 0x80000 + off) n v }

/-! Free values, numbers. -/

/-- Clk of a core's own clock: nominal clk less what throttling has taken (spec/00 R4). -/
def clkOf (s : State) (c : Nat) : Nat := s.now - (s.core c).lost / 16

/-- The agent that the context in focus is. -/
def byCur (s : State) : By := { part := s.curPart, col := s.cur.col, rtag := s.cur.rtag, die := s.curDie }

/-- A fresh number for an activation or an access. -/
def fresh (s : State) : Nat × State := (s.nextId, { s with nextId := s.nextId + 1 })

/-- Nominal clk since a die's reset (spec/10 R217). -/
def cycOf (s : State) (d : Nat) : Word := lget 0 s.cyc d

/-- The barrier, colour and other tables by their number. -/
def barrier (s : State) (c b : Nat) : Barrier := lget {} (s.core c).barriers b
def setBarrier (s : State) (c b : Nat) (x : Barrier) : State :=
  s.setCore c { s.core c with barriers := lset (s.core c).barriers b x }
def colour (s : State) (r c : Nat) : Colour := lget {} (s.region r).cols c
def setColour (s : State) (r c : Nat) (x : Colour) : State :=
  s.setRegion r { s.region r with cols := lset (s.region r).cols c x }
def island (s : State) (c i : Nat) : Island := lget {} (s.core c).islands i
def setIsland (s : State) (c i : Nat) (x : Island) : State :=
  s.setCore c { s.core c with islands := lset (s.core c).islands i x }
def copies (s : State) (c ch : Nat) : List Copy := lget [] (s.core c).copies ch
def setCopies (s : State) (c ch : Nat) (x : List Copy) : State :=
  s.setCore c { s.core c with copies := lset (s.core c).copies ch x }
def tokenOf (s : State) (t k : Nat) : BitVec 2 := lget 0 (s.tile t).tokens k
def setToken (s : State) (t k : Nat) (v : BitVec 2) : State :=
  s.setTile t { s.tile t with tokens := lset (s.tile t).tokens k v }

end State

/-- A boarding's request for a hold is withdrawn: a hold that nothing asks for any more ends (spec/07 R152). -/
def RingSt.unask (r : RingSt) (board : Nat) : RingSt :=
  let holders := r.holders.filter (· != board)
  let r1 := { r with want := r.want.filter (fun w => w.1 != board), holders := holders }
  if r.hold.isSome && holders.isEmpty then { r1 with hold := none, heldAt := some r.pos } else r1

/-! Entries of the region's tables (spec/18 R353 to R357). -/

/-- Whether an effective wave governs a record or activation (spec/02 R59). -/
def Reconf.governs (x : Reconf) (c : BitVec 5) (w : BitVec 16) : Bool :=
  x.cmask.getLsbD c.toNat && 0 ≤ waveDiff w (x.eff.extractLsb' (16 * c.toNat) 16)

/-- The latest accepted change of one table entry that governs a colour's wave. -/
def Region.changed (r : Region) (c : BitVec 5) (w : BitVec 16) (table rcore tile idx : Nat) : Option (BitVec 256) :=
  (r.reconfs.reverse.findSome? fun x =>
    if x.governs c w then
      (x.entries.reverse.find? fun e => e.1 == table && e.2.1 == rcore && e.2.2.1 == tile && e.2.2.2.1 == idx).map
        (fun e => e.2.2.2.2)
    else none)

/-- RCORE of a core in its region (spec/07 R145 numbering). -/
def Region.rcoreOf (r : Region) (c : Nat) : Nat := (firstIdx (· == c) r.cores).getD 0

/-- The core of an RCORE. -/
def Region.coreAt (r : Region) (k : Nat) : Option Nat := r.cores[k]?

namespace State

/-- The handler table entry of a slot in force for a colour's wave (spec/02 R59, spec/18 R353). -/
def handler (s : State) (t slot : Nat) (c : BitVec 5) (w : BitVec 16) : BitVec 64 :=
  let r := s.region (((s.core (t / 32)).region).getD (t / 32))
  match r.changed c w 3 (r.rcoreOf (t / 32)) (t % 32) slot with
  | some e => e.setWidth 64
  | none => lget 0 (s.tile t).handlers slot

/-- The channel table entry in force for a colour's wave (spec/18 R354); an unwritten entry is invalid, CONV 0xFF. -/
def chan (s : State) (t n : Nat) (c : BitVec 5) (w : BitVec 16) : BitVec 64 :=
  let r := s.region (((s.core (t / 32)).region).getD (t / 32))
  match r.changed c w 4 (r.rcoreOf (t / 32)) (t % 32) n with
  | some e => e.setWidth 64
  | none => lget 0xFF00000#64 (s.tile t).chans n

/-- The colour table entry in force for a wave (spec/02 R59, spec/09 R204, spec/18 R356). -/
def colourEntry (s : State) (r : Nat) (c : BitVec 5) (w : BitVec 16) : BitVec 256 :=
  let base := lget 0 (s.region r).colours c.toNat
  match (s.region r).changed c w 2 0 0 c.toNat with
  | some e => e
  | none => base

end State

/-! Fields of table entries. -/

def hV (h : BitVec 64) : Bool := h.getLsbD 63
def hTrapOp (h : BitVec 64) : Bool := h.getLsbD 62
def hAcc (h : BitVec 64) : BitVec 4 := h.extractLsb' 58 4
def hSub (h : BitVec 64) : Nat := (h.extractLsb' 54 4).toNat
def hFilter (h : BitVec 64) : BitVec 8 := h.extractLsb' 46 8
def hFire (h : BitVec 64) : BitVec 16 := h.extractLsb' 30 16
def hEntry (h : BitVec 64) : BitVec 15 := h.extractLsb' 0 15

def cIV (e : BitVec 64) : Bool := e.getLsbD 63
def cISlot (e : BitVec 64) : BitVec 4 := e.extractLsb' 59 4
def cOV (e : BitVec 64) : Bool := e.getLsbD 58
def cOSlot (e : BitVec 64) : BitVec 4 := e.extractLsb' 54 4
def cFmt (e : BitVec 64) : BitVec 3 := e.extractLsb' 51 3
def cBeats (e : BitVec 64) : Nat := (e.extractLsb' 45 6).toNat + 1
def cBase (e : BitVec 64) : Nat := (e.extractLsb' 41 4).toNat
def cRpw (e : BitVec 64) : Nat := (e.extractLsb' 33 8).toNat
def cSkipz (e : BitVec 64) : Bool := e.getLsbD 32
def cSub (e : BitVec 64) : Nat := (e.extractLsb' 28 4).toNat
def cConv (e : BitVec 64) : Nat := (e.extractLsb' 20 8).toNat
def cRkind (e : BitVec 64) : Nat := (e.extractLsb' 18 2).toNat

/-- Whether a channel stands at this entry: one end of it, or both by fixed operators (spec/18 R354). An entry that says neither is that of
no channel of the graph. -/
def cHere (e : BitVec 64) : Bool := cIV e || cOV e || cRkind e == 2
def cRoute (e : BitVec 64) : BitVec 18 := e.extractLsb' 0 18

def kValid (e : BitVec 256) : Bool := e.getLsbD 0
def kArmreq (e : BitVec 256) : Bool := e.getLsbD 1
def kSys (e : BitVec 256) : Bool := e.getLsbD 2
def kArmed (e : BitVec 256) : Bool := e.getLsbD 3
def kVmid (e : BitVec 256) : Nat := (e.extractLsb' 8 8).toNat
def kAsid (e : BitVec 256) : Nat := (e.extractLsb' 16 8).toNat
def kClass (e : BitVec 256) : Nat := (e.extractLsb' 24 2).toNat
/-- LOGW, 0 to 6; a table that holds 7 makes W 128 (DESIGN CHOICE, log entry 68). -/
def kLogW (e : BitVec 256) : Nat := (e.extractLsb' 26 3).toNat
def kW (e : BitVec 256) : Nat := 2 ^ kLogW e
def kQ (e : BitVec 256) : Nat := (e.extractLsb' 32 16).toNat
def kSpilln (e : BitVec 256) : Nat := (e.extractLsb' 48 16).toNat
def kSpillpa (e : BitVec 256) : Nat := (e.extractLsb' 64 48).toNat
def kEntrym (e : BitVec 256) : BitVec 16 := e.extractLsb' 128 16
def kExitm (e : BitVec 256) : BitVec 16 := e.extractLsb' 144 16
def kNpeer (e : BitVec 256) : Nat := (e.extractLsb' 160 8).toNat
def kPeers (e : BitVec 256) : Nat := (e.extractLsb' 192 64).toNat

def oKind (e : BitVec 256) : Nat := (e.extractLsb' 0 8).toNat
def oPlace (e : BitVec 256) : Nat := (e.extractLsb' 8 4).toNat
def oSub (e : BitVec 256) : Nat := (e.extractLsb' 16 4).toNat
def oColour (e : BitVec 256) : BitVec 5 := e.extractLsb' 24 5
/-- Channel of a port; 0xFF for none (spec/18 R357). -/
def oPort (e : BitVec 256) (k : Nat) : Nat := (e.extractLsb' (32 + 8 * k) 8).toNat
def oP0 (e : BitVec 256) : BitVec 32 := e.extractLsb' 64 32
def oP1 (e : BitVec 256) : Nat := (e.extractLsb' 96 32).toNat
def oP2 (e : BitVec 256) : Nat := (e.extractLsb' 128 64).toNat

namespace State

/-- The fixed operator's entry. -/
def opEntry (s : State) (r n : Nat) : BitVec 256 := lget 0 (s.region r).fixed n

/-- Whether the context's activation runs in trap-operator mode (spec/09 R203). -/
def trapMode (s : State) : Bool :=
  hTrapOp (s.handler s.curTile s.cur.opsl.toNat s.cur.col s.cur.wave)

/-- The colour entry of the context's activation. -/
def curColour (s : State) : BitVec 256 := s.colourEntry s.curRegion s.cur.col s.cur.wave

/-- The privilege of spec/09 R203: SYS of the colour in force for the wave, or trap-operator mode. -/
def priv (s : State) : Bool := kSys s.curColour || s.trapMode

/-- Waves of an admission's span (spec/02 R31). -/
def ws (s : State) (r : Nat) : Nat := 2 ^ (s.region r).logws

/-- Tiles of a region, in ascending (RCORE, tile) order. -/
def tilesOf (s : State) (r : Nat) : List Nat :=
  (s.region r).cores.flatMap (fun c => (List.range 32).map (fun t => c * 32 + t))

/-- Tiles of a region that a table lists, in ascending order: the others hold no state. -/
def usedTiles (s : State) (r : Nat) : List Nat :=
  (s.tiles.map (·.1)).filter (fun t => (s.region r).cores.contains (t / 32))

/-- The frames of a region's tiles that are listed. -/
def framesOf (s : State) (r : Nat) : List Nat :=
  (s.frames.map (·.1)).filter (fun k => (s.region r).cores.contains (k / 4096))

/-- The contexts of a region's tiles that are listed. -/
def ctxsOf (s : State) (r : Nat) : List Nat :=
  (s.ctxs.map (·.1)).filter (fun k => (s.region r).cores.contains (k / 128))

end State

/-! Headers of records (spec/02 R35). -/

def rhCol (h : BitVec 64) : BitVec 5 := h.extractLsb' 0 5
def rhWave (h : BitVec 64) : BitVec 16 := h.extractLsb' 5 16
def rhRtag (h : BitVec 64) : BitVec 16 := h.extractLsb' 21 16
def rhFmt (h : BitVec 64) : BitVec 3 := h.extractLsb' 37 3
def rhChan (h : BitVec 64) : BitVec 6 := h.extractLsb' 40 6
def rhKind (h : BitVec 64) : BitVec 2 := h.extractLsb' 46 2
def rhPoison (h : BitVec 64) : Bool := h.getLsbD 48
def rhBeats (h : BitVec 64) : Nat := (h.extractLsb' 49 6).toNat + 1
def rhSkip (h : BitVec 64) : BitVec 8 := h.extractLsb' 55 8
/-- Whether the parity bit is the XOR of the others (spec/02 R35, R37). -/
def rhParityOk (h : BitVec 64) : Bool := !parity h.toNat 64

/-- A header from its fields, with its parity (spec/02 R35). -/
def mkHdr (skip : BitVec 8) (beats1 : BitVec 6) (poison : Bool) (kind : BitVec 2) (ch : BitVec 6) (fmt : BitVec 3)
    (rtag wave : BitVec 16) (col : BitVec 5) : BitVec 64 :=
  let low : BitVec 63 := skip ++ beats1 ++ BitVec.ofBool poison ++ kind ++ ch ++ fmt ++ rtag ++ wave ++ col
  BitVec.ofBool (parity low.toNat 63) ++ low

/-- A header with its wave changed (spec/02 R32). -/
def hdrSetWave (h : BitVec 64) (w : BitVec 16) : BitVec 64 :=
  mkHdr (rhSkip h) (h.extractLsb' 49 6) (rhPoison h) (rhKind h) (rhChan h) (rhFmt h) (rhRtag h) w (rhCol h)

/-- A header with its skip count changed (spec/04 R95). -/
def hdrSetSkip (h : BitVec 64) (k : BitVec 8) : BitVec 64 :=
  mkHdr k (h.extractLsb' 49 6) (rhPoison h) (rhKind h) (rhChan h) (rhFmt h) (rhRtag h) (rhWave h) (rhCol h)

/-- A header bound for another channel, with that channel's format tag. -/
def hdrSetChan (h : BitVec 64) (ch : BitVec 6) (fmt : BitVec 3) : BitVec 64 :=
  mkHdr (rhSkip h) (h.extractLsb' 49 6) (rhPoison h) (rhKind h) ch fmt (rhRtag h) (rhWave h) (rhCol h)

/-! Counts of an activation (spec/19 R380, R381). -/

/-- Loads and state reads, which write a register when answered. -/
def AccKind.isLoad : AccKind → Bool
  | .ld | .vld | .vldg | .feget => true
  | _ => false

/-- Whether an access counts in OST until it is performed at its home: a store or state write, and every chain access and null entry
(spec/15 R305, spec/19 R380). -/
def Access.inOst (a : Access) : Bool :=
  a.seq != 0 || (a.kind != .sync && !a.kind.isLoad)

namespace State

/-- Loads and state reads not yet answered, those whose value is on its way back among them (spec/19 R380). A synchronising load or atomic
holds its activation until it is answered, so that nothing reads the count meanwhile. -/
def oldCount (s : State) (aid : Nat) : Nat :=
  (s.accesses.filter (fun a => a.aid == aid && a.kind.isLoad)).length + (s.replies.filter (fun x => x.acc.aid == aid)).length
def ostCount (s : State) (aid : Nat) : Nat := (s.accesses.filter (fun a => a.aid == aid && a.inOst)).length

/-- MMATs accepted, tasks not retired, forks whose copy runs (spec/19 R380). -/
def otoCount (s : State) (aid : Nat) : Nat :=
  ((s.tiles.map (fun e => (e.2.mmats.filter (fun m => m.aid == aid)).length)).foldl (· + ·) 0) +
  ((s.cores.map (fun e => (e.2.tcbs.filter
      (fun b => b.2.aid == aid && b.2.st != .named && b.2.st != .retired)).length)).foldl (· + ·) 0) +
  (s.forks.filter (fun f => f.aid == aid)).length

/-- The accesses of an activation that are not yet performed: what a send, a fence and a release wait for (spec/15 R305, R311, spec/17
R332). A null entry makes no access (spec/09 R192). -/
def pendingOf (s : State) (aid : Nat) : List Nat :=
  (s.accesses.filter (fun a => a.aid == aid && a.kind != .sync && a.kind != .null)).map (·.id)

/-- Whether every one of some accesses has been performed. -/
def performed (s : State) (ids : List Nat) : Bool :=
  ids.all (fun i => s.accesses.all (fun a => a.id != i))

end State

end Sys2Proof.Machine
end

