-- ==== Sys2Proof/Machine/Message.lean ====
section
/-!
DEFINITION. Machine/Message.lean: messages as their sources encode and spray them (spec/08 R161 to R169): the code, the header and check
of a fragment, stripes, paths, and the retransmit buffer.
-/

namespace Sys2Proof.Machine

/-! GF(2^8) on x^8 + x^4 + x^3 + x^2 + 1 (spec/08 R162). -/

/-- Product by α = 0x02. -/
def gfDouble (a : Byte) : Byte := if a.getLsbD 7 then (a <<< 1) ^^^ 0x1D else a <<< 1

/-- Product, over the low n bits of the second factor. -/
def gfMulN (a : Byte) : Nat → Byte → Byte
  | 0, _ => 0
  | n + 1, b => (if b.getLsbD 0 then a else 0) ^^^ gfMulN (gfDouble a) n (b >>> 1)

def gfMul (a b : Byte) : Byte := gfMulN a 8 b

/-- α to a power. -/
def gfAlpha : Nat → Byte
  | 0 => 1
  | n + 1 => gfDouble (gfAlpha n)

/-- The inverse: the power 254. -/
def gfInv (a : Byte) : Byte :=
  let a2 := gfMul a a
  let a4 := gfMul a2 a2
  let a8 := gfMul a4 a4
  let a16 := gfMul a8 a8
  let a32 := gfMul a16 a16
  let a64 := gfMul a32 a32
  let a128 := gfMul a64 a64
  gfMul a128 (gfMul a64 (gfMul a32 (gfMul a16 (gfMul a8 (gfMul a4 a2)))))

/-- A fragment's bytes times a factor. -/
def gfScale (a : Byte) (v : Vec) : Vec :=
  BitVec.ofNat 512 ((List.range 64).foldr (fun i acc => (gfMul a (v.extractLsb' (8 * i) 8)).toNat + 256 * acc) 0)

/-- Parity fragment j of some data fragments: their evaluation at α^j (spec/08 R162). -/
def parityFrag (ds : List Vec) (j : Nat) : Vec :=
  ((List.range ds.length).zip ds).foldl (fun acc x => acc ^^^ gfScale (gfAlpha (x.1 * j % 255)) x.2) 0

/-! Fragments (spec/08 R163). -/

/-- CRC-32C over the low n bits of a number, bit 0 first, from a state of the register. -/
def crcBits : (n v : Nat) → BitVec 32 → BitVec 32
  | 0, _, c => c
  | n + 1, v, c => crcBits n (v / 2) (if xor (c.getLsbD 0) (v.testBit 0) then (c >>> 1) ^^^ 0x82F63B78 else c >>> 1)

/-- The check of a fragment: over header bits [126:0], then the 64 payload bytes, each from its lowest bit, with the register all ones at
first and inverted at the end (DEDUCED, log entry 77). -/
def fragCrc (hdr : BitVec 128) (data : Vec) : BitVec 32 := ~~~(crcBits 512 data.toNat (crcBits 127 hdr.toNat 0xFFFFFFFF))

/-- The header of fragment `index` of a stripe of k data fragments of a message, with its parity. -/
def fragHdr (x : Msg) (index k last : Nat) (retx : Bool) (stripe : Nat) : BitVec 128 :=
  let v := x.id % 2 ^ 32 + x.dst % 4096 * 2 ^ 32 + x.src % 4096 * 2 ^ 44 + x.col.toNat * 2 ^ 59 + x.rtag.toNat * 2 ^ 64 +
    stripe % 4096 * 2 ^ 84 + (if retx then 2 ^ 98 else 0) + (last - 1) % 64 * 2 ^ 99 + (x.m - 1) % 8 * 2 ^ 105 + (k - 1) % 256 * 2 ^ 108 +
    index % 256 * 2 ^ 116 + x.cls % 8 * 2 ^ 124
  BitVec.ofNat 128 (v + if parity v 127 then 2 ^ 127 else 0)

/-- Beats in groups of n. -/
def groups (n : Nat) : (fuel : Nat) → List Vec → List (List Vec)
  | 0, _ => []
  | f + 1, l => if l.isEmpty then [] else l.take n :: groups n f (l.drop n)

namespace Msg

/-- Stripes of KMAX data fragments; only the last may hold fewer (spec/08 R165). -/
def stripes (x : Msg) : List (List Vec) := groups (max 1 x.kmax) x.payload.length x.payload

/-- Valid bytes in the last data fragment of the message. -/
def lastBytes (x : Msg) : Nat := (x.bytes + 63) % 64 + 1

/-- The fragments of a message, data before parity in each stripe (spec/08 R162, R165). -/
def frags (x : Msg) (retx : Bool) : List (BitVec 128 × Vec) :=
  let ss := x.stripes
  ((List.range ss.length).zip ss).flatMap (fun (j, ds) =>
    let last := if j + 1 == ss.length then x.lastBytes else 64
    (List.range (ds.length + x.m)).map (fun i =>
      (fragHdr x i ds.length last retx j, if i < ds.length then ds.getD i 0 else parityFrag ds (i - ds.length))))

end Msg

namespace State

/-- The disjoint paths of a (source, destination) pair: what firmware's spray table entry lists, and where it lists none the loops 0 to 2
on die, the link modules 0 to 7 between dies; to a peer, of its entry's ports those that the table lists, or all of them (spec/08 R169,
R170, spec/22 R434; the entry's layout is DESIGN CHOICE, log entry 79). -/
def paths (s : State) (d src dst ports : Nat) : List Nat :=
  let e := (lget 0 (s.fab d).spray (src * 4096 + dst)).toNat
  let own := (List.range (min 8 (bits e 56 4))).map (fun i => bits e (7 * i) 7)
  if ports != 0 then
    let l := own.filter (bit ports)
    if l.isEmpty then ((List.range 12).filter (bit ports)).take 8 else l
  else if !own.isEmpty then own
  else if src / 512 == dst / 512 then List.range 3 else List.range 8

/-- Fragment i of a message with id x takes path (i + x) mod P (spec/08 R169). -/
def spray (s : State) (d : Nat) (x : Msg) (i : Nat) : Nat :=
  let ps := s.paths d x.src x.dst x.ports
  ps.getD ((i + x.id) % max 1 ps.length) 0

/-- The fragments of a message leave its source. -/
def sendFrags (s : State) (d : Nat) (x : Msg) (retx : Bool) : State :=
  { s with flights := s.flights ++ (x.frags retx).map (fun f =>
      { hdr := f.1, data := f.2, crc := fragCrc f.1 f.2, at_ := d, path := s.spray d x (f.1.extractLsb' 116 8).toNat }) }

/-- Sends a message (spec/08 R162 to R169): it takes its id and its code, its fragments leave, and it stands in the source's retransmit
buffer until it is acknowledged. -/
def sendMsg (s : State) (x : Msg) : State :=
  let d := x.src / 512
  let f := s.fab d
  let key := x.src * 8 + x.cls
  let id := lget 0 f.nextMsg key
  let cr := s.coderate d x.cls
  let y : Msg := { x with
    num := s.nextId, id := id.toNat, kmax := (cr.extractLsb' 8 8).toNat, m := if f.lean then 1 else (cr.extractLsb' 0 4).toNat, sentAt := s.now,
    decto := s.decto d x.cls, dectoAt := s.decto (x.dst / 512) x.cls }
  let s1 : State := { s with nextId := s.nextId + 1 }
  (s1.setFab d { f with nextMsg := lset f.nextMsg key (id + 1), msgs := f.msgs ++ [y] }).sendFrags d y false

/-- Whether a message has been sent and not yet delivered. -/
def onWay (s : State) (num : Nat) : Bool := s.fabric.any (fun f => f.2.msgs.any (fun m => m.num == num && !m.done))

/-- Whether what rides the fabric has come to its destination, or never needed to. -/
def rideDone (s : State) (x : Ride) : Bool :=
  match x with
  | .none => true
  | .fresh => false
  | .on ns => ns.all (fun n => !s.onWay n)
  | .lost => false

/-- Node of a core (spec/08 R161). -/
def coreNode (c : Nat) : Nat := c / 16 * 512 + c % 16

end State

end Sys2Proof.Machine
end

