-- ==== Sys2Proof/Machine/Xlat.lean ====
section
/-!
DEFINITION. Machine/Xlat.lean: the physical map and ownership (spec/14 R288 to R290), the two-stage walk and the
TLBs (spec/14 R291 to R294, spec/18 R367, R368), and reads and writes at a home.
-/

namespace Sys2Proof.Machine

/-! Cause codes (spec/21 R413). -/
namespace Cause
def ill : BitVec 8 := 0x01
def dict : BitVec 8 := 0x02
def priv : BitVec 8 := 0x03
def align : BitVec 8 := 0x04
def attr : BitVec 8 := 0x05
def page : BitVec 8 := 0x06
def page2 : BitVec 8 := 0x07
def perm : BitVec 8 := 0x08
def seqro : BitVec 8 := 0x09
def seqrange : BitVec 8 := 0x0A
def seqfull : BitVec 8 := 0x0B
def barclob : BitVec 8 := 0x0C
def ovf : BitVec 8 := 0x0D
def inv : BitVec 8 := 0x0E
def divz : BitVec 8 := 0x0F
def budget : BitVec 8 := 0x10
def poison : BitVec 8 := 0x11
def slot : BitVec 8 := 0x12
def chan : BitVec 8 := 0x13
def cfg : BitVec 8 := 0x14
def swtrap : BitVec 8 := 0x15
def copyerr : BitVec 8 := 0x20
def islerr : BitVec 8 := 0x21
def corruptTile : BitVec 8 := 0x22
def missed : BitVec 8 := 0x23
def msgloss : BitVec 8 := 0x24
def qerr : BitVec 8 := 0x25
def notSysatom : BitVec 8 := 0x26
def uce : BitVec 8 := 0x30
def timing : BitVec 8 := 0x31
def therm : BitVec 8 := 0x32
def watchdog : BitVec 8 := 0x3F
end Cause

/-- What stands at a physical address (spec/14 R288). -/
inductive Place where
  | hbm
  | sram (stack off : Nat)
  | scratch (core off : Nat)
  | aperture (core ch off : Nat)
  | hole
deriving DecidableEq, Repr

def placeOf (pa : Nat) : Place :=
  if pa < 0x8000000000 then .hbm
  else if 0x100000000000 ≤ pa && pa < 0x100400000000 then
    let o := pa - 0x100000000000
    if o % 0x100000000 < 0x80000000 then .sram (o / 0x100000000) (o % 0x100000000) else .hole
  else if 0x200000000000 ≤ pa && pa < 0x200040000000 then
    let o := pa - 0x200000000000
    if o % 0x1000000 < 0x800000 then .scratch (o / 0x10000000 * 16 + o / 0x1000000 % 16) (o % 0x1000000) else .hole
  else if 0x300000000000 ≤ pa && pa < 0x300040000000 then
    let o := pa - 0x300000000000
    let c := o % 0x1000000
    if c < 0x10000 then .aperture (o / 0x10000000 * 16 + o / 0x1000000 % 16) (c / 0x1000) (c % 0x1000) else .hole
  else .hole

/-- Physical address of a scratchpad byte (spec/14 R288). -/
def scratchPa (core off : Nat) : Nat := 0x200000000000 + core / 16 * 0x10000000 + core % 16 * 0x1000000 + off

/-- Physical address of a stack SRAM byte (spec/14 R288). -/
def sramPa (stack off : Nat) : Nat := 0x100000000000 + stack * 0x100000000 + off

/-- The level of spec/05 R99 an address lies in, for the page test of spec/15 R301. -/
def Place.level : Place → Nat
  | .hbm => 0 | .sram _ _ => 1 | .scratch _ _ => 2 | .aperture _ _ _ => 3 | .hole => 4

/-- Die of an address's home (spec/14 R288, R289). -/
def homeDie (pa : Nat) : Nat :=
  match placeOf pa with
  | .hbm => bits pa 37 2
  | .sram st _ => st
  | .scratch c _ => c / 16
  | .aperture c _ _ => c / 16
  | .hole => 0

/-- Node of the unit that homes an address of HBM or stack SRAM (spec/08 R161); none for one within a core. -/
def homeNode (pa : Nat) : Option Nat :=
  match placeOf pa with
  | .hbm => some (bits pa 37 2 * 512 + 32 + bits pa 32 5)
  | .sram st _ => some (st * 512 + 64)
  | _ => none

/-- The HBM stack behind an address: 2 × die + s div 16 for home slice s (spec/14 R289). -/
def hbmStack (pa : Nat) : Nat := 2 * bits pa 37 2 + bits pa 32 5 / 16

/-- The pseudo-channel of that stack that holds an address: one of the four of its slice, chosen by a[8:7] (spec/14 R289). -/
def pseudoChannel (pa : Nat) : Nat := 4 * (bits pa 32 5 % 16) + bits pa 7 2

namespace State

/-- The partition that owns the unit an address is homed at; 16 where none does (spec/14 R290). -/
def ownerOf (s : State) (pa : Nat) : Nat :=
  match placeOf pa with
  | .hbm => lget 16 s.ownSlice (bits pa 37 2 * 32 + bits pa 32 5)
  | .sram st off => lget 16 s.ownSram (st * 32 + off / 0x4000000)
  | .scratch c _ => lget 16 s.ownCore c
  | .aperture c _ _ => lget 16 s.ownCore c
  | .hole => 17

end State

namespace State

/-- Where an access to a page that has migrated is performed: the old home forwards it (spec/14 R296). -/
def forward (s : State) (pa : Nat) : Nat :=
  match s.migs.find? (fun m => m.committed && m.src ≤ pa && pa < m.src + m.size) with
  | some m => m.dst + (pa - m.src)
  | none => pa

/-- n bytes at their home. -/
def rmem (s : State) (pa n : Nat) : Nat := mread s.mem (s.forward pa) n

/-! The lines of L2 slices and gateway caches (spec/14 R282, R286, R287, R295). -/

/-- The 32 B sectors of a line that n bytes from an address touch. -/
def sectorsOf (num pa n : Nat) : BitVec 4 :=
  (List.range 4).foldl (fun m i =>
    if pa < num * 128 + 32 * i + 32 && num * 128 + 32 * i < pa + n then m ||| (1#4 <<< i) else m) 0

/-- The lines that n bytes from an address touch. -/
def linesOf (pa n : Nat) : List Nat := if n = 0 then [] else (List.range ((pa % 128 + n + 127) / 128)).map (fun i => pa / 128 + i)

/-- Whether a byte of n from an address is uncorrectable (spec/21 R424). -/
def hasUce (s : State) (pa n : Nat) : Bool := s.uce.any (fun a => pa ≤ a && a < pa + n)

/-- A line leaves its cache: a dirty one goes back to its home, and an error that this reveals is charged to its owner (spec/14 R287,
spec/21 R424). -/
def dropLine (s : State) (n : Nat) : State :=
  match s.lines[n]? with
  | none => s
  | some x =>
    { s with lines := dropAt s.lines n, reveals := if x.dirty && s.hasUce (x.num * 128) 128 then s.reveals ++ [x] else s.reveals }

/-- The cache that holds a line: a die's gateway, or the slice of its home. -/
def Line.unit (x : Line) : Nat :=
  match x.gw with
  | some d => 128 + d
  | none => x.num / 0x2000000

/-- Lines that a cache holds: 8 MiB of a slice, 32 MiB of a gateway (spec/14 R282). -/
def Line.capacity (x : Line) : Nat :=
  match x.gw with
  | some _ => 262144
  | none => 65536

/-- A line filled or written: merged with the one its cache holds; where the cache is full, the line filled first goes (log entry
28). -/
def fillLine (s : State) (x : Line) : State :=
  let same := fun (y : Line) => y.gw == x.gw && y.num == x.num
  if s.lines.any same then
    { s with lines := s.lines.map (fun y => if same y then
        { (if x.dirty then x else y) with dirty := y.dirty || x.dirty, sectors := y.sectors ||| x.sectors } else y) }
  else
    let s1 := if Line.capacity x ≤ (s.lines.filter (fun y => Line.unit y == Line.unit x)).length then
        s.dropLine ((firstIdx (fun y => Line.unit y == Line.unit x) s.lines).getD 0)
      else s
    { s1 with lines := s1.lines ++ [x] }

/-- Whether the slice of its home holds a line. -/
def inL2 (s : State) (num : Nat) : Bool := s.lines.any (fun y => y.gw == none && y.num == num)

/-- What a read or write at a home does to the lines it touches: a page marked NC allocates none; a write takes a line away from the
gateway caches; a read of a replicated page from another die leaves a replica in the reader's gateway (spec/14 R286, R295). -/
def touchLine (s : State) (pa n : Nat) (b : By) (write : Bool) (num : Nat) : State :=
  let x : Line := if write then
      { num := num, dirty := true, sectors := sectorsOf num pa n, part := b.part, col := b.col, rtag := b.rtag }
    else { num := num, sectors := sectorsOf num pa n }
  let s1 := if write then { s with lines := s.lines.filter (fun y => !(y.gw != none && y.num == num)) } else s
  let s2 := if !b.nc || s1.inL2 num then s1.fillLine x else s1
  if !write && !b.nc && (lget {} s.pages (num / 512)).replicated && homeDie pa != b.die && b.die < 4 then
    s2.fillLine { x with gw := some b.die, sectors := 0xF }
  else s2

def touchLines (s : State) (pa n : Nat) (b : By) (write : Bool) : State :=
  if placeOf pa = .hbm then (linesOf pa n).foldl (fun st num => st.touchLine pa n b write num) s else s

/-- Counts of remote reads and writes of an HBM page, and the collapse of replicas by a write from any agent. A read through a mapping marked
NC does not count towards replication: a page so marked stays memory-side (spec/14 R295). -/
def countPage (s : State) (pa : Nat) (b : By) (write : Bool) : State :=
  if placeOf pa = .hbm then
    let p := lget {} s.pages (pa / 0x10000)
    let rem := homeDie pa != b.die
    let q : PageMode :=
      if write then
        if p.replicated then { replicated := false, reads := 0, writes := 0 }
        else { p with writes := if rem then min 4095 (p.writes + 1) else p.writes }
      else { p with reads := if rem && !b.nc then min 4095 (p.reads + 1) else p.reads }
    if q = p then s
    else { s with pages := lset s.pages (pa / 0x10000) q,
                  lines := if write && p.replicated then s.lines.filter (fun y => !(y.gw != none && y.num / 512 == pa / 0x10000))
                           else s.lines }
  else s

/-- A page on its way to another slice notes the lines that must be copied again (spec/14 R296). -/
def noteDirty (s : State) (pa n : Nat) : State :=
  { s with migs := s.migs.map (fun m =>
      if !m.committed && m.src < pa + n && pa < m.src + m.size then
        let ls := ((linesOf pa n).filter (fun k => m.src / 128 ≤ k && k < (m.src + m.size) / 128)).map (· - m.src / 128)
        { m with dirty := ls ++ m.dirty.filter (fun k => !ls.contains k) }
      else m) }

/-- What follows from n bytes written at their home: their errors go, their lines take the writer, and a page on its way to another slice
notes the write (spec/14 R287, R296). -/
def written (s : State) (pa n : Nat) (b : By) : State :=
  (({ s with uce := s.uce.filter (fun a => !(pa ≤ a && a < pa + n)) } : State).noteDirty pa n).touchLines pa n b true

/-- A write at a home, by any agent: replicas collapse before it (spec/14 R295). -/
def homeWrite (s : State) (pa0 n v : Nat) (b : By) : State :=
  let pa := s.forward pa0
  let s1 := s.countPage pa b true
  ({ s1 with mem := mwrite s1.mem pa n v } : State).written pa n b

/-- Bytes copied from one place to another by one agent, as a write at their new home; the errors that they hold go with them. -/
def homeCopy (s : State) (src0 dst0 n : Nat) (b : By) : State :=
  let pa := s.forward dst0
  let src := s.forward src0
  let s1 := s.countPage pa b true
  let s2 := ({ s1 with mem := mcopy s1.mem src pa n } : State).written pa n b
  { s2 with uce := s2.uce ++ (s.uce.filter (fun x => src ≤ x && x < src + n)).map (fun x => pa + (x - src)) }

/-- What a read at a home does beside giving its value. -/
def homeRead (s : State) (pa n : Nat) (b : By) : State := (s.countPage (s.forward pa) b false).touchLines (s.forward pa) n b false

end State

/-! Page tables (spec/18 R368). -/

def pteV (e : Nat) : Bool := bit e 0
def pteLeaf (e : Nat) : Bool := bit e 1
def pteRo (e : Nat) : Bool := bit e 2
def pteNc (e : Nat) : Bool := bit e 3
def pteSysatom (e : Nat) : Bool := bit e 4
def pteSeq (e : Nat) : Bool := bit e 5
/-- Output address of a leaf. -/
def pteOut (e : Nat) : Nat := bits e 16 36 * 0x10000
/-- Address of the next table. -/
def pteNext (e : Nat) : Nat := bits e 13 39 * 0x2000
/-- Reserved bits are zero; a set one acts as V clear. In stage 2, and in a stage-1 leaf with SEQ, [51:48] are zero. -/
def pteOk (stage2 : Bool) (e : Nat) : Bool :=
  bits e 52 12 == 0 && bits e 8 5 == 0 &&
  (if pteLeaf e then bits e 13 3 == 0 && (!(stage2 || pteSeq e) || bits e 48 4 == 0)
   else bits e 2 6 == 0 && (!stage2 || bits e 48 4 == 0))

/-- A leaf found by a walk: its entry, the physical address of the entry, and the size of its page. -/
structure Leaf where
  entry : Nat := 0
  entryPa : Nat := 0
  size : Nat := 0x10000
  /-- the page that holds the entry is marked NC -/
  nc : Bool := false
deriving DecidableEq, Repr

/-- Bytes that a leaf of a level maps (spec/14 R291). -/
def pageSize (level : Nat) : Nat := 2 ^ (46 - 10 * level)

/-- Whether a leaf's output is aligned to its page (spec/14 R292). -/
def leafAligned (e size : Nat) : Bool := pteOut e % size == 0

namespace State

/-- Stage 2 from a table at a level (spec/14 R291): levels left, level, physical address of the table, guest physical address. -/
def walk2From (s : State) : (fuel level table gpa : Nat) → Option Leaf
  | 0, _, _, _ => none
  | fuel + 1, level, table, gpa =>
    let idx := bits gpa (46 - 10 * level) 10
    let pa := table + 8 * idx
    let e := s.rmem pa 8
    if !pteV e || !pteOk true e || (level == 0 && 64 ≤ idx) then none
    else if pteLeaf e then
      if level == 0 || !leafAligned e (pageSize level) then none
      else some { entry := e, entryPa := pa, size := pageSize level }
    else if level == 3 then none
    else walk2From s fuel (level + 1) (pteNext e) gpa

/-- The VMID table's entry (spec/18 R367). -/
def vmEntry (s : State) (vmid : Nat) : Nat := (lget 0 s.vmids vmid).toNat

/-- Stage 2 of a guest physical address: its leaf and physical address. A V bit clear in the VMID table, a fault of
the walk, and an output in a hole are PAGE2 (spec/14 R288, R292, spec/18 R367). -/
def stage2 (s : State) (vmid gpa : Nat) : Except (BitVec 8) (Leaf × Nat) :=
  if !bit (s.vmEntry vmid) 0 || 2 ^ 52 ≤ gpa then .error Cause.page2
  else match s.walk2From 4 0 (bits (s.vmEntry vmid) 13 51 * 0x2000) gpa with
    | none => .error Cause.page2
    | some l =>
      let pa := pteOut l.entry + gpa % l.size
      if placeOf pa = .hole then .error Cause.page2 else .ok (l, pa)

/-- The entries of a table that hold a nonzero byte. -/
def tableIdx (s : State) (table : Nat) : List Nat :=
  ((s.mem.filter (fun e => s.forward table ≤ e.1 && e.1 < s.forward table + 0x2000)).map (fun e => (e.1 - s.forward table) / 8)).eraseDups

/-- The stage-2 leaves below a table at a level: guest physical base, output, size. -/
def leaves2From (s : State) : (fuel level table gpa : Nat) → List (Nat × Nat × Nat)
  | 0, _, _, _ => []
  | fuel + 1, level, table, gpa =>
    (s.tableIdx table).flatMap (fun idx =>
      let e := s.rmem (table + 8 * idx) 8
      let g := gpa + idx * pageSize level
      if !pteV e || !pteOk true e || (level == 0 && 64 ≤ idx) then []
      else if pteLeaf e then (if level == 0 || !leafAligned e (pageSize level) then [] else [(g, pteOut e, pageSize level)])
      else if level == 3 then []
      else leaves2From s fuel (level + 1) (pteNext e) g)

/-- Every stage-2 leaf of a guest. -/
def leaves2 (s : State) (vmid : Nat) : List (Nat × Nat × Nat) :=
  if bit (s.vmEntry vmid) 0 then s.leaves2From 4 0 (bits (s.vmEntry vmid) 13 51 * 0x2000) 0 else []

/-- A guest physical address that the stage-2 tables of a guest map to a physical one. -/
def gpaOf (s : State) (vmid pa : Nat) : Option Nat :=
  ((s.leaves2 vmid).find? (fun l => l.2.1 ≤ pa && pa < l.2.1 + l.2.2)).map (fun l => l.1 + (pa - l.2.1))

/-- Stage 1 from a table at a level; every table address is a guest physical address (spec/14 R291). Answers the leaf
with the guest physical address it gives. -/
def walk1From (s : State) (vmid : Nat) : (fuel level table gva : Nat) → Except (BitVec 8) (Leaf × Nat)
  | 0, _, _, _ => .error Cause.page
  | fuel + 1, level, table, gva =>
    let idx := bits gva (46 - 10 * level) 10
    match s.stage2 vmid (table + 8 * idx) with
    | .error c => .error c
    | .ok (l2, pa) =>
      let e := s.rmem pa 8
      if !pteV e || !pteOk false e then .error Cause.page
      else if pteLeaf e then
        if level == 0 || !leafAligned e (pageSize level) then .error Cause.page
        else .ok ({ entry := e, entryPa := pa, size := pageSize level, nc := pteNc l2.entry }, pteOut e + gva % pageSize level)
      else if level == 3 then .error Cause.page
      else walk1From s vmid fuel (level + 1) (pteNext e) gva

/-- The stage-1 root of (VMID, ASID) (spec/18 R367). -/
def root1 (s : State) (vmid asid : Nat) : Except (BitVec 8) Nat :=
  if !bit (s.vmEntry vmid) 0 then .error Cause.page2
  else match s.stage2 vmid (bits (s.vmEntry vmid) 64 64 + 8 * asid) with
    | .error c => .error c
    | .ok (_, pa) =>
      let e := s.rmem pa 8
      if bit e 0 then .ok (bits e 13 39 * 0x2000) else .error Cause.page

/-- The two-stage walk: the combined translation, and the physical addresses of the two leaves, that of stage 1 with the NC mark of its page
(spec/14 R291, R292). -/
def walk (s : State) (vmid asid gva : Nat) : Except (BitVec 8) (TlbEntry × (Nat × Bool) × Nat) :=
  if 2 ^ 56 ≤ gva then .error Cause.page
  else match s.root1 vmid asid with
    | .error c => .error c
    | .ok root =>
      match s.walk1From vmid 4 0 root gva with
      | .error c => .error c
      | .ok (l1, gpa) =>
        match s.stage2 vmid gpa with
        | .error c => .error c
        | .ok (l2, pa) =>
          let size := min l1.size l2.size
          let off := gva % size
          .ok ({ vmid := vmid, asid := asid, gva := gva - off, gpa := gpa - off, pa := pa - off, size := size, size2 := l2.size,
                 ro := pteRo l1.entry || pteRo l2.entry, nc := pteNc l1.entry || pteNc l2.entry,
                 seq := pteSeq l1.entry || pteSeq l2.entry, sysatom := pteSysatom l1.entry && pteSysatom l2.entry,
                 dirty := bit l1.entry 7 && bit l2.entry 7 }, (l1.entryPa, l1.nc), l2.entryPa)

/-! The entries that a walk reads, as reads at their homes by the die's walker (spec/14 R286, R291, R295), each with the NC mark of the
page it stands in. -/

/-- Entries of stage 2, from a table at a level. -/
def reads2From (s : State) : (fuel level table gpa : Nat) → List Nat
  | 0, _, _, _ => []
  | fuel + 1, level, table, gpa =>
    let pa := table + 8 * bits gpa (46 - 10 * level) 10
    let e := s.rmem pa 8
    pa :: (if !pteV e || !pteOk true e || pteLeaf e || level == 3 then [] else reads2From s fuel (level + 1) (pteNext e) gpa)

def reads2 (s : State) (vmid gpa : Nat) : List (Nat × Bool) :=
  if !bit (s.vmEntry vmid) 0 || 2 ^ 52 ≤ gpa then []
  else (s.reads2From 4 0 (bits (s.vmEntry vmid) 13 51 * 0x2000) gpa).map (fun pa => (pa, false))

/-- Entries of stage 1, from a table at a level, and those of stage 2 that lead to them. -/
def reads1From (s : State) (vmid : Nat) : (fuel level table gva : Nat) → List (Nat × Bool)
  | 0, _, _, _ => []
  | fuel + 1, level, table, gva =>
    let g := table + 8 * bits gva (46 - 10 * level) 10
    s.reads2 vmid g ++ (match s.stage2 vmid g with
      | .error _ => []
      | .ok (l2, pa) =>
        let e := s.rmem pa 8
        (pa, pteNc l2.entry) ::
          (if !pteV e || !pteOk false e || level == 3 then []
           else if pteLeaf e then s.reads2 vmid (pteOut e + gva % pageSize level)
           else reads1From s vmid fuel (level + 1) (pteNext e) gva))

/-- Every entry that a walk reads. -/
def walkReads (s : State) (vmid asid gva : Nat) : List (Nat × Bool) :=
  if 2 ^ 56 ≤ gva then []
  else match s.root1 vmid asid with
    | .error _ => []
    | .ok root => s.reads1From vmid 4 0 root gva

/-- The reads of a walk at the homes of the entries. -/
def walkTouch (s : State) (die vmid asid gva : Nat) : State :=
  (s.walkReads vmid asid gva).foldl (fun st x => st.homeRead x.1 8 { die := die, nc := x.2 }) s

/-- An atomic OR of bits into a byte of an entry at its home, by the walker of a die (spec/14 R292). -/
def orByte (s : State) (die pa v : Nat) (nc : Bool) : State :=
  let old := s.rmem pa 1
  if old ||| v = old then s else s.homeWrite pa 1 (old ||| v) { part := s.ownerOf (s.forward pa), die := die, nc := nc }

/-- A walk that completes: A set in both leaves, D too on a write (spec/14 R292). -/
def walkMark (s : State) (die : Nat) (e1 : Nat × Bool) (e2 : Nat) (write : Bool) : State :=
  (s.orByte die e1.1 (if write then 0xC0 else 0x40) e1.2).orByte die e2 (if write then 0xC0 else 0x40) false

/-- An engine's translation: a walk of its die's walker, whose A and D settings are made at once. Engines hold no TLB of their own. -/
def xlateEng (s : State) (die vmid asid gva : Nat) (write : Bool) : Except (BitVec 8) (TlbEntry × Nat × State) :=
  match s.walk vmid asid gva with
  | .error c => .error c
  | .ok (t, e1, e2) =>
    if write && t.ro then .error Cause.perm
    else .ok (t, t.pa + gva % t.size, (s.walkTouch die vmid asid gva).walkMark die e1 e2 write)

/-- Whether a TLB entry answers a lookup. -/
def tlbHits (e : TlbEntry) (vmid asid gva : Nat) : Bool :=
  e.vmid == vmid && e.asid == asid && e.gva ≤ gva && gva < e.gva + e.size

/-- A lookup: the tile's TLB, then the core's (spec/14 R293). A write needs an entry through which D has been set. -/
def lookup (s : State) (t vmid asid gva : Nat) (write : Bool) : Option TlbEntry :=
  let ok := fun (e : TlbEntry) => tlbHits e vmid asid gva && (!write || e.dirty || e.ro)
  match (s.tile t).tlb.find? ok with
  | some e => some e
  | none => (s.core (t / 32)).tlb.find? ok

end State

/-! Full/empty state (spec/05 R107), kept per 32-bit word of scratchpad by its physical address / 4. -/
namespace State

def feOf (s : State) (pa : Nat) : BitVec 2 := lget 0 s.fe (pa / 4)
def setFe (s : State) (pa : Nat) (v : BitVec 2) : State := { s with fe := lset s.fe (pa / 4) v }

def isScratch (pa : Nat) : Bool :=
  match placeOf pa with
  | .scratch _ _ => true
  | _ => false

/-- The words that n bytes from an address touch. -/
def wordsOf (pa n : Nat) : List Nat := (List.range ((pa % 4 + n + 3) / 4)).map (fun i => pa / 4 * 4 + 4 * i)

/-- The pool-map entry of the segment that holds an address: SEALED and RLIM; zero outside the pool (spec/18 R366). -/
def sealOf (s : State) (p pa : Nat) : Nat × Nat :=
  let x := s.part p
  if x.poolBase ≤ pa && pa < x.poolBase + x.poolSegs * 0x10000 then
    let e := x.poolMap + 16 * ((pa - x.poolBase) / 0x10000)
    (s.rmem (e + 4) 3 % 0x20000, s.rmem (e + 8) 3 % 0x20000)
  else (0, 0)

/-- The check of a store to a page with SEQ (spec/15 R302). -/
def seqCheck (s : State) (p pa n : Nat) : Option (BitVec 8) :=
  let (sealed, rlim) := s.sealOf p pa
  let off := pa % 0x10000
  if off < sealed then some Cause.seqro
  else if rlim < off + n then some Cause.seqrange
  else none

end State

end Sys2Proof.Machine
end

