-- ==== Sys2Proof/Machine/Trip.lean ====
section
/-!
DEFINITION. Machine/Trip.lean: what engines, and instructions that hold their activation, ask of units outside their core: the requests and
answers that ride the fabric (spec/01 R18, spec/08 R162). A request acts at its homes in one event once every part of it has come there; the
one who asked goes on once the answers have come back (log entry 78).
-/

namespace Sys2Proof.Machine

/-- n bytes at a physical address that a request reads, or writes with a value. -/
structure Piece where
  pa : Nat
  n : Nat
  v : Nat := 0
  wr : Bool := false
deriving DecidableEq, Repr

/-- A message to one unit. -/
structure Leg where
  node : Nat
  payload : List Vec
  bytes : Nat
deriving DecidableEq, Repr

/-- Bytes packed into fragments of 64, the last padded with zeros (spec/08 R162). -/
def packBytes : (fuel : Nat) → List Byte → List Vec
  | 0, _ => []
  | f + 1, l =>
    if l.isEmpty then []
    else BitVec.ofNat 512 ((l.take 64).foldr (fun b acc => b.toNat + 256 * acc) 0) :: packBytes f (l.drop 64)

/-- The payload of bytes; without any, a beat of a free value (log entry 78). -/
def legOf (node : Nat) (l : List Byte) (free : Nat) : Leg :=
  if l.isEmpty then { node := node, payload := [Config.requestBeat free], bytes := 64 }
  else { node := node, payload := packBytes l.length l, bytes := l.length }

/-- The bytes of an access's elements, with their part of a number of lanes. -/
def Access.pieces (a : Access) (v : Nat) (wr : Bool) : List Piece :=
  a.elems.map (fun e => { pa := e.pa, n := a.bytes, v := v / 2 ^ (8 * a.bytes * e.lane) % 2 ^ (8 * a.bytes), wr := wr })

/-- The access as one who asks. -/
def Access.trip (a : Access) : Trip :=
  { src := State.coreNode (a.tile / 32), region := some a.region, aid := a.aid, part := a.part, col := a.col, wave := a.wave, rtag := a.rtag }

namespace State

/-- Nodes of the homes outside a core of some pieces. -/
def homesOf (s : State) (ps : List Piece) : List Nat := (ps.filterMap (fun p => homeNode (s.forward p.pa))).eraseDups

/-- The pieces at one home. -/
def piecesAt (s : State) (node : Nat) (ps : List Piece) : List Piece := ps.filter (fun p => homeNode (s.forward p.pa) == some node)

/-- The requests of some pieces: one to each home, with the data to be written there. -/
def requests (s : State) (ps : List Piece) : List Leg :=
  (s.homesOf ps).map (fun h => legOf h (((s.piecesAt h ps).filter (fun p => p.wr)).flatMap (fun p => toBytes p.n p.v)) s.nextId)

/-- The answers of the homes, with the data read there. -/
def replyLegs (s : State) (ps : List Piece) : List Leg :=
  (s.homesOf ps).map (fun h => legOf h (((s.piecesAt h ps).filter (fun p => !p.wr)).flatMap (fun p => toBytes p.n (s.rmem p.pa p.n))) s.nextId)

/-- Class of a message between two nodes: hub traffic, memory or control, on a die or between dies (spec/08 R166). -/
def classBetween (a b : Nat) (ctl : Bool) : Nat :=
  if a / 512 == 4 || b / 512 == 4 then 4
  else if a / 512 == b / 512 then (if ctl then 1 else 0)
  else if ctl then 3 else 2

/-- Messages leave, one for each leg, from a node or, as answers, to it: their numbers, and the state. -/
def sendLegs (s : State) (t : Trip) (ctl out : Bool) (w : What) : List Leg → List Nat × State
  | [] => ([], s)
  | l :: ls =>
    let src := if out then t.src else l.node
    let dst := if out then l.node else t.src
    let s1 := s.sendMsg { cls := classBetween src dst ctl, src := src, dst := dst, region := t.region, aid := t.aid, col := t.col, wave := t.wave,
                          rtag := t.rtag, payload := l.payload, bytes := l.bytes, what := w }
    let (ns, s2) := sendLegs s1 t ctl out w ls
    (s.nextId :: ns, s2)

/-- What one asks for stands among the trips. -/
def tripOfKey (s : State) (who : List Nat) : Option Trip := s.trips.find? (fun t => t.who == who)

/-- Whether every message of a trip has been delivered. -/
def tripDone (s : State) (t : Trip) : Bool := !t.lost && t.nums.all (fun n => !s.onWay n)

/-- Whether one waits for what it has asked for: for its request to come, or for the answers. -/
def tripBusy (s : State) (who : List Nat) : Bool :=
  match s.tripOfKey who with
  | none => false
  | some x => x.back || !s.tripDone x

/-- A request leaves. -/
def startTrip (s : State) (t : Trip) (ctl : Bool) (ls : List Leg) : State :=
  let (ns, s1) := s.sendLegs t ctl true .request ls
  { s1 with trips := s1.trips ++ [{ t with nums := ns }] }

/-- The answers to a request leave for the one who asked. -/
def turnTrip (s : State) (t : Trip) (ctl : Bool) (ls : List Leg) : State :=
  let (ns, s1) := s.sendLegs t ctl false .reply ls
  { s1 with trips := s1.trips.map (fun x => if x.who == t.who then { x with nums := ns, back := true } else x) }

/-- Trips whose answers have come are over. -/
def endTrips (s : State) : State := { s with trips := s.trips.filter (fun t => !(t.back && s.tripDone t)) }

/-- One engine's request to homes outside its core: it leaves, it acts once it has come to every home, and the engine waits for the answers.
A request to none acts at once. -/
def viaFabric (s : State) (t : Trip) (ps : List Piece) (act : State → State) : State :=
  match s.tripOfKey t.who with
  | some x => if x.back || !s.tripDone x then s else (act s).turnTrip x false (s.replyLegs ps)
  | none => if (s.homesOf ps).isEmpty then act s else s.startTrip t false (s.requests ps)

end State

end Sys2Proof.Machine
end

