-- ==== Sys2Proof/Machine/Records.lean ====
section
/-!
DEFINITION. Machine/Records.lean: where a record goes, how it is sent by a fixed operator, how it lands in a frame
(spec/02 R43 to R49), poison marks (spec/21 R419, R420), trap records and the partition log (spec/21 R414 to R417,
R422, R423).
-/

namespace Sys2Proof.Machine

/-- How many incoming and outgoing ports a kind of fixed operator has, in the order of spec/03 R76: an entry port feeds the channels that
it names, an exit port takes them; a conversion node serves channels that name it and has no port; the ports of island, streamer and
boarding nodes go either way. R76 gives the ports of entry, exit, island, streamer and boarding operators no number and no direction of
their own: up to 4 outgoing ones, up to 4 incoming ones, and any of the PORTS bytes in either direction (DESIGN CHOICE, log entry 86). -/
def opPorts : Nat → Nat × Nat
  | 1 => (0, 4)
  | 2 => (4, 0)
  | 3 => (1, 3)
  | 4 | 5 | 6 | 13 => (1, 1)
  | 7 => (2, 2)
  | 8 => (2, 1)
  | _ => (0, 0)

/-- Channels of a fixed operator's incoming ports. -/
def opInPorts (e : BitVec 256) : List Nat := ((List.range (opPorts (oKind e)).1).map (oPort e)).filter (· != 0xFF)

/-- Outgoing port k of a fixed operator: its channel (spec/03 R76, spec/18 R357). -/
def opOut (e : BitVec 256) (k : Nat) : Option Nat :=
  let (n, m) := opPorts (oKind e)
  if k < m then (if oPort e (n + k) == 0xFF then none else some (oPort e (n + k))) else none

/-! Skip coding (spec/04 R95, spec/17 R333). -/

/-- Whether every element of a beat is +0 or −0 in a channel's format (spec/02 R36, spec/04 R95). -/
def State.beatZero (fmt : Nat) (b : Vec) : Bool :=
  let clear := fun (w : Nat) => (List.range (512 / w)).all (fun i => (b.toNat >>> (w * i)) % 2 ^ (w - 1) == 0)
  match fmt with
  | 1 => clear 32
  | 2 | 3 => clear 16
  | 5 => clear 8
  | _ => b == 0

/-- Whether a record of a SKIPZ channel of a format may be suppressed, by its contents. -/
def State.skippable (fmt : Nat) (h : BitVec 64) (beats : List Vec) : Bool :=
  beats.all (State.beatZero fmt) && rhKind h == 0 && !rhPoison h && fmt != 7

/-- The outcome of the rule of R333 for one send: the new state, and the skip count where the record is sent. -/
def State.skipRule (k : Skip) (wave : BitVec 16) (rpw : Nat) (zero : Bool) : Skip × Option Nat :=
  let k1 : Skip := if wave != k.cwave then { skc := 0, nrec := 0, cwave := wave } else k
  let n := k1.nrec + 1
  let last := n == rpw
  let n1 := if last then 0 else n % 65536
  if zero && !last && k1.skc < 255 then ({ k1 with nrec := n1, skc := k1.skc + 1 }, none)
  else ({ k1 with nrec := n1, skc := 0 }, some k1.skc)

/-- Skip state that has taken over the skip count of a record which a fixed operator forwards: the records suppressed before it count as
suppressed on the outgoing channel too. -/
def State.skipCarry (k : Skip) (wave : BitVec 16) (n : Nat) : Skip :=
  let k1 : Skip := if wave != k.cwave then { cwave := wave } else k
  { k1 with skc := min 255 (k1.skc + n), nrec := k1.nrec + n }

/-- Effective waves and colour mask of a reconfiguration record (spec/18 R358). -/
def rcEff (rc : Rec) (c : Nat) : BitVec 16 := (rc.beats.headD 0).extractLsb' (16 * c) 16

def rcMask (rc : Rec) : BitVec 32 := ((rc.beats[1]?).getD 0).setWidth 32

namespace State

/-- Whether some effective wave is earlier than NXW (spec/02 R60). -/
def rcEarly (s : State) (r : Nat) (rc : Rec) : Bool :=
  (List.range 32).any (fun c => (rcMask rc).getLsbD c && waveDiff (rcEff rc c) (s.colour r c).nxw < 0)

/-- Whether a wave of a colour is governed by a reconfiguration that is still on its way (spec/02 R59). -/
def awaitsReconf (s : State) (r : Nat) (c : BitVec 5) (w : BitVec 16) : Bool :=
  s.transit.any (fun x => x.dst = .reconf r && !x.early && (rcMask x.rc).getLsbD c.toNat && 0 ≤ waveDiff w (rcEff x.rc c.toNat))

/-- The tile whose channel table holds an entry of a channel, a consumer's before a producer's (spec/18 R354). -/
def chanTile (s : State) (r ch : Nat) : Option Nat :=
  match (s.usedTiles r).find? (fun t => cIV (lget 0 (s.tile t).chans ch)) with
  | some t => some t
  | none => (s.usedTiles r).find? (fun t => (lget? (s.tile t).chans ch).any cHere)

/-- The entry of a channel of the region. -/
def chanOf (s : State) (r ch : Nat) (c : BitVec 5) (w : BitVec 16) : BitVec 64 :=
  match s.chanTile r ch with
  | some t => s.chan t ch c w
  | none => 0xFF00000#64

/-- The consumer of a channel for a colour (spec/02 R25, spec/03 R75, R76): a handler slot, or a fixed operator that
takes the channel; an island, streamer or boarding node takes a channel that nothing else takes. -/
def destOf (s : State) (r ch : Nat) (c : BitVec 5) : Option Dest :=
  match (s.usedTiles r).find? (fun t => cIV (lget 0 (s.tile t).chans ch)) with
  | some t => some (.slot t ch)
  | none =>
    match (s.region r).fixed.find? (fun e => (opInPorts e.2).contains ch && (oKind e.2 != 2 || oColour e.2 == c)) with
    | some e => some (.op r e.1 ch)
    | none =>
      match (s.region r).fixed.find? (fun e => 10 ≤ oKind e.2 && oKind e.2 ≤ 12 &&
          [oPort e.2 0, oPort e.2 1, oPort e.2 2, oPort e.2 3].contains ch) with
      | some e => some (.op r e.1 ch)
      | none => none

/-- Beats that have still to cross a circuit when producer and consumer stand on different cores (spec/08 R157). -/
def circuitBeats (s : State) (r fromCore : Nat) (d : Dest) (n : Nat) : Nat :=
  let c := match d with
    | .slot t _ => t / 32
    | .op _ k _ => ((s.region r).coreAt (oPlace (s.opEntry r k))).getD fromCore
    | _ => fromCore
  if c == fromCore then 0 else n

/-- Puts a record on its way. The spec does not say what becomes of a record whose colour no exit port of its channel names: it is
discarded without effect (DESIGN CHOICE, log entry 72). -/
def launchRec (s : State) (r ch fromCore : Nat) (rc : Rec) (waits : List Nat) : State :=
  match s.destOf r ch (rhCol rc.hdr) with
  | none => s
  | some d =>
    { s with transit := s.transit ++ [{ rc := rc, dst := d, cherr := ((s.chanTile r ch).getD 0, ch), waits := waits,
                                        left := s.circuitBeats r fromCore d rc.beats.length }] }

/-- Key of the skip state of a fixed operator's channel, for a colour and wave mod W. -/
def prodKey (s : State) (r ch : Nat) (c : BitVec 5) (w : BitVec 16) : Nat :=
  (ch * 32 + c.toNat) * 64 + w.toNat % kW (s.colourEntry r c w)

/-- A producer other than a handler sends a record: on a SKIPZ channel under skip coding (spec/04 R95); the skip count that a forwarded
record brings is carried on (DESIGN CHOICE, log entry 76). -/
def prodSend (s : State) (r ch fromCore : Nat) (rc : Rec) : State :=
  let h := rc.hdr
  let e := s.chanOf r ch (rhCol h) (rhWave h)
  if cSkipz e then
    let key := s.prodKey r ch (rhCol h) (rhWave h)
    let k0 := skipCarry (lget {} (s.region r).skips key) (rhWave h) (rhSkip h).toNat
    let (k, n) := skipRule k0 (rhWave h) (cRpw e) (skippable (cFmt e).toNat h rc.beats)
    let s1 := s.setRegion r { s.region r with skips := lset (s.region r).skips key k }
    match n with
    | none => s1
    | some c => s1.launchRec r ch fromCore { rc with hdr := hdrSetSkip h (BitVec.ofNat 8 c) } []
  else s.launchRec r ch fromCore rc []

/-- A fixed operator sends a record on one of its outgoing ports; an unconnected port sends nothing (spec/02 R26 for a counter; for the other
kinds DESIGN CHOICE, log entry 86). -/
def opSend (s : State) (r n port : Nat) (rc : Rec) : State :=
  match opOut (s.opEntry r n) port with
  | none => s
  | some ch =>
    s.prodSend r ch (((s.region r).coreAt (oPlace (s.opEntry r n))).getD r)
      { rc with hdr := hdrSetChan rc.hdr (BitVec.ofNat 6 ch) (rhFmt rc.hdr) }

/-- A one-beat record from 32-bit lanes (spec/02 R26, spec/17 R339). -/
def lanesBeat (l : List Nat) : Vec :=
  BitVec.ofNat 512 ((l.map (· % 2 ^ 32)).foldr (fun x acc => x + 2 ^ 32 * acc) 0)

def mkRec (col : BitVec 5) (wave rtag : BitVec 16) (fmt : BitVec 3) (kind : BitVec 2) (poison : Bool) (ch : Nat)
    (beats : List Vec) : Rec :=
  { hdr := mkHdr 0 (BitVec.ofNat 6 (beats.length - 1)) poison kind (BitVec.ofNat 6 ch) fmt rtag wave col,
    beats := beats, scales := beats.map (fun _ => 0) }

/-! The partition log and the fault report ring (spec/21 R422, R423). -/

/-- Adds an item to a hub ring: written at the head, an overwritten unread item counted; the tail is firmware's (spec/21 R422). A ring not
yet set has no places: each item is counted and lost. -/
def ringPut (s : State) (p : Nat) (x : Ring16) (item n : Nat) (v : Nat) : State × Ring16 :=
  let s1 := if x.size == 0 then s else s.homeWrite (x.base + x.head.toNat % x.size * item) n v { part := p }
  let h := x.head + 1
  let full := x.size < (h - x.tail).toNat
  (s1, { x with head := h, lost := if full then min (2 ^ 32 - 1) (x.lost + 1) else x.lost })

/-- A log entry: bytes 0x00 to 0x37 of a trap record, then CYC of the die that raised it (spec/21 R423). -/
def logPut (s : State) (p : Nat) (rb : Nat) (die : Nat) : State :=
  let (s1, x) := s.ringPut p (s.part p).log 64 64 (rb % 2 ^ 448 + (s.cycOf die).toNat * 2 ^ 448)
  s1.setPart p { s1.part p with log := x }

/-- A report item (spec/17 R348). -/
def rptPut (s : State) (p : Nat) (kind : Nat) (cause : BitVec 8) (rtag : BitVec 16) (col : BitVec 5) (die : Nat)
    (wave : BitVec 16) (ident : Nat) : State :=
  let v := kind + cause.toNat * 2 ^ 8 + rtag.toNat * 2 ^ 16 + col.toNat * 2 ^ 32 + die * 2 ^ 40 + wave.toNat * 2 ^ 48 +
    ident % 2 ^ 64 * 2 ^ 64
  let (s1, x) := s.ringPut p (s.part p).rpt 16 16 v
  s1.setPart p { s1.part p with rpt := x }

/-! Trap records (spec/21 R414, R415). -/

/-- A continuation handle (spec/21 R415). -/
def handleOf (gen : BitVec 8) (wave : BitVec 16) (col : BitVec 5) (rcore tile frame opsl : Nat) : Nat :=
  gen.toNat * 2 ^ 48 + wave.toNat * 2 ^ 32 + col.toNat * 2 ^ 27 + rcore % 16 * 2 ^ 23 + tile % 32 * 2 ^ 18 +
    frame % 128 * 2 ^ 11 + opsl % 16 * 2 ^ 7 + 1

/-- The first 64 bytes of a trap record as a number; the bytes after it are DETAIL (spec/21 R414). -/
def trapBytes (i : TrapInfo) (rtag wave : BitVec 16) (col : BitVec 5) (opsl : BitVec 4) (tile rcore die : Nat)
    (handle cframe : Nat) : Nat :=
  i.cause.toNat + i.flags.toNat * 2 ^ 8 + i.lane.toNat * 2 ^ 16 + i.fl.toNat * 2 ^ 24 + rtag.toNat * 2 ^ 32 +
  wave.toNat * 2 ^ 48 + col.toNat * 2 ^ 64 + opsl.toNat * 2 ^ 72 + tile % 32 * 2 ^ 80 +
  (rcore % 16 + die % 4 * 16) * 2 ^ 88 + i.ip.toNat * 2 ^ 96 + handle * 2 ^ 128 + i.word.toNat * 2 ^ 192 +
  i.dindex.toNat * 2 ^ 256 + i.arg.toNat * 2 ^ 272 + i.parts.toNat * 2 ^ 288 + i.addr.toNat * 2 ^ 320 +
  i.under.toNat * 2 ^ 384 + cframe % 128 * 2 ^ 448

/-- The record on channel 63 that carries a 256 B trap record: four I32 beats (spec/21 R414, R416). -/
def trapRecord (bytes : Nat) (rtag wave : BitVec 16) (col : BitVec 5) : Rec :=
  mkRec col wave rtag 0 0 false 63
    ((List.range 4).map (fun i => BitVec.ofNat 512 (bytes >>> (512 * i))))

/-- Tile of a region's trap operator (spec/18 R355). -/
def trapTileOf (s : State) (r : Nat) : Nat :=
  let x := s.region r
  (x.coreAt x.trapCore).getD r * 32 + x.trapTile

/-- The core whose RCORE a trap record names (spec/21 R414). -/
def trapCoreOf (s : State) (r bytes : Nat) : Nat := ((s.region r).coreAt (bits bytes 88 4)).getD r

/-- Sends a trap record's bytes to the region's trap operator (spec/21 R417): from another core it rides the fabric (spec/08 R162). -/
def trapSend (s : State) (r : Nat) (bytes : Nat) (rtag wave : BitVec 16) (col : BitVec 5) (waits : List Nat) : State :=
  let t := s.trapTileOf r
  { s with transit := s.transit ++ [{ rc := trapRecord bytes rtag wave col, dst := .slot t 63, cherr := (t, 63), waits := waits, left := 0,
                                      ride := if s.trapCoreOf r bytes == t / 32 then .none else .fresh }] }

/-! Poison marks (spec/21 R419, R420). -/

def marked (s : State) (r : Nat) (fixed : Bool) (tile op : Nat) (c : BitVec 5) (w : BitVec 16) : Bool :=
  (s.region r).marks.any (fun m => m.fixed == fixed && (fixed || m.tile == tile) && m.op == op && m.col == c && m.wave == w)

/-- Tiles of the region that host a handler, in ascending (RCORE, tile) order (spec/18 R355). -/
def heapTiles (s : State) (r : Nat) : List Nat :=
  (s.usedTiles r).filter (fun t => (s.tile t).handlers.any (fun h => hV h.2))

/-- Physical base of a HEAP or SPILL area (spec/18 R355). -/
def areaPa (s : State) (r : Nat) (w : BitVec 64) : Nat :=
  let off := (w.extractLsb' 12 20).toNat * 0x1000
  if w.getLsbD 0 then sramPa (s.region r).die off
  else scratchPa (((s.region r).cores.head?).getD r) off

/-- Heap address of a frame of a tile (spec/18 R355). -/
def heapAddr (s : State) (r t f : Nat) : Nat :=
  s.areaPa r (s.region r).heap + ((firstIdx (· == t) (s.heapTiles r)).getD 0) * 0x41000 + f * 0x800

/-- Heap address of a frame's presence word (spec/18 R355). -/
def presenceAddr (s : State) (r t f : Nat) : Nat :=
  s.areaPa r (s.region r).heap + ((firstIdx (· == t) (s.heapTiles r)).getD 0) * 0x41000 + 0x40000 + f * 4

/-- The presence word: presence bits, OST and OTO (spec/19 R380). -/
def presenceWord (s : State) (k : Nat) : Nat :=
  let f := s.frame k
  f.present.toNat + (s.ostCount f.aid % 64) * 2 ^ 16 + (s.otoCount f.aid % 16) * 2 ^ 22

/-- Writes a frame and its presence word back to their heap addresses (spec/21 R420, spec/14 R283). -/
def frameToHeap (s : State) (r k : Nat) : State :=
  let f := s.frame k
  if f.inHeap then s
  else
    let t := k / 128
    let b : By := { part := s.partOf (t / 32), col := f.col, rtag := f.rtag, die := t / 512 }
    let s1 := s.homeWrite (s.heapAddr r t (k % 128)) 0x800 (s.tread t (k % 128 * 0x800) 0x800) b
    (s1.homeWrite (s.presenceAddr r t (k % 128)) 4 (s.presenceWord k) b).setFrame k { f with inHeap := true }

/-- Brings a frame back from the heap to the frame cache. -/
def frameFromHeap (s : State) (r k : Nat) : State :=
  let f := s.frame k
  if !f.inHeap then s
  else
    let t := k / 128
    let v := s.rmem (s.heapAddr r t (k % 128)) 0x800
    (s.twrite t (k % 128 * 0x800) 0x800 v).setFrame k { f with inHeap := false }

/-- Bytes of a frame where it stands: in the cache, or at its heap address. -/
def frameRead (s : State) (r k off n : Nat) : Nat :=
  if (s.frame k).inHeap then s.rmem (s.heapAddr r (k / 128) (k % 128) + off) n
  else s.tread (k / 128) (k % 128 * 0x800 + off) n

/-- Writes bytes of a frame where it stands. -/
def frameWrite (s : State) (r k off n v : Nat) : State :=
  if (s.frame k).inHeap then
    s.homeWrite (s.heapAddr r (k / 128) (k % 128) + off) n v
      { part := s.partOf (k / 4096), col := (s.frame k).col, rtag := (s.frame k).rtag, die := k / 65536 }
  else s.twrite (k / 128) (k % 128 * 0x800 + off) n v

/-- The region of a tile; a core of no region stands for itself. -/
def regOfTile (s : State) (t : Nat) : Nat := ((s.core (t / 32)).region).getD (t / 32)

/-- Whether a wave is poisoned at any operator of a region (spec/21 R419). -/
def waveMarked (s : State) (r : Nat) (c : BitVec 5) (w : BitVec 16) : Bool :=
  (s.region r).marks.any (fun m => m.col == c && m.wave == w)

/-- Tile memory of a tile as its activations reach it: an element of a frame that stands at its heap address is read there. -/
def tsRead (s : State) (t off n : Nat) : Nat :=
  if off < Config.dataHalf && (s.frame (t * 128 + off / 0x800)).inHeap && off % 0x800 + n ≤ 0x800 then
    s.frameRead (s.regOfTile t) (t * 128 + off / 0x800) (off % 0x800) n
  else s.tread t off n

/-- Whether a frame may leave the frame cache: no activation runs on it, and no trapped one is pinned there (spec/14 R283, spec/21
R456). -/
def evictable (s : State) (k : Nat) : Bool :=
  let f := s.frame k
  f.alloc && !f.inHeap && f.cont != .running && f.cont != .trapped && !f.lateMark

/-- The least recently used frame of a tile that is not pinned goes to the heap (spec/14 R283). -/
def evictLru (s : State) (t : Nat) : State :=
  let ks := (s.frames.map (·.1)).filter (fun k => k / 128 == t && s.evictable k)
  match ks.foldl (fun best k => match best with
    | none => some k
    | some b => if (s.frame k).used < (s.frame b).used then some k else some b) none with
  | some k => s.frameToHeap (s.regOfTile t) k
  | none => s

/-- Pins a frame of a poisoned wave at the heap, unless an activation runs on it (spec/21 R420: a wave poisoned at any operator has
all its frames pinned, as the walk of spec/26 shows). -/
def pinFrame (s : State) (r k : Nat) : State :=
  let f := s.frame k
  if f.alloc && f.cont != .running && s.waveMarked r f.col f.wave then s.frameToHeap r k
  else s

/-- Outgoing channels of an operator slot of a tile. -/
def outChans (s : State) (t slot : Nat) : List Nat :=
  ((s.tile t).chans.filter (fun e => cOV e.2 && (cOSlot e.2).toNat == slot)).map (·.1)

/-- Outgoing channels of a fixed operator; of an island, streamer or boarding node those that another operator takes. -/
def opOuts (s : State) (r n : Nat) (c : BitVec 5) : List Nat :=
  let e := s.opEntry r n
  if 10 ≤ oKind e && oKind e ≤ 12 then
    ((List.range 4).map (oPort e)).filter (fun ch => ch != 0xFF && (match s.destOf r ch c with
      | none => false
      | some d => d != .op r n ch))
  else (List.range 4).filterMap (opOut e)

/-- Marks an operator for (colour, wave); at the first mark, each outgoing channel sends one beat of zeros with the poison
bit (spec/21 R419), and the wave's frames are pinned at the heap (R420). -/
def poisonOp (s : State) (r : Nat) (m : Mark) (rtag : BitVec 16) : State :=
  if s.marked r m.fixed m.tile m.op m.col m.wave then s
  else
    let s1 := s.setRegion r { s.region r with marks := (s.region r).marks ++ [m] }
    let outs := if m.fixed then s.opOuts r m.op m.col else s.outChans m.tile m.op
    let core := if m.fixed then ((s.region r).coreAt (oPlace (s.opEntry r m.op))).getD r else m.tile / 32
    let s2 := outs.foldl (fun st ch =>
      st.launchRec r ch core (mkRec m.col m.wave rtag (cFmt (st.chanOf r ch m.col m.wave)) 0 true ch [0]) []) s1
    (s2.framesOf r).foldl (fun st k => st.pinFrame r k) s2

/-- A store that touches a region's frame heap: only an activation of that region in trap-operator mode may make one, and never to
the continuation word of a frame (spec/21 R420, R456). -/
def heapGuard (s : State) (r : Nat) (trapOp : Bool) (pa n : Nat) : Bool :=
  s.regions.any (fun x => x.2.st != 0 &&
    (let b := s.areaPa x.1 x.2.heap
     let m := (s.heapTiles x.1).length
     b < pa + n && pa < b + m * 0x41000 &&
     (!(trapOp && x.1 == r) || (List.range n).any (fun i =>
       let o := (pa + i - b) % 0x41000
       b ≤ pa + i && o < 0x40000 && 0x698 ≤ o % 0x800 && o % 0x800 < 0x6A0))))

/-- A store or a copy to the memory of a spill ring (spec/16 R320). -/
def spillGuard (s : State) (pa n : Nat) : Bool :=
  s.regions.any (fun r => r.2.st != 0 && r.2.colours.any (fun e =>
    kValid e.2 && kSpillpa e.2 < pa + n && pa < kSpillpa e.2 + kSpilln e.2 * 5120))

/-- Memory that hardware owns: no host, hub unit or engine may write it (spec/16 R320, spec/21 R420). -/
def hwBad (s : State) (pa n : Nat) : Bool := s.spillGuard (s.forward pa) n || s.heapGuard 0 false (s.forward pa) n

/-! Landing (spec/02 R43 to R49, spec/16 R317, R318). -/

/-- Counts a header's parity failure or a discarded wave control record (spec/19 R380). -/
def countCherr (s : State) (t ch : Nat) : State :=
  s.setTile t { s.tile t with cherr := lset (s.tile t).cherr ch (min 0xFFFF (lget 0 (s.tile t).cherr ch + 1)) }

/-- Counts a record of a stale wave (spec/02 R43). -/
def countStale (s : State) (r : Nat) (c : BitVec 5) : State :=
  s.setColour r c.toNat { s.colour r c.toNat with stalew := min 0xFFFF ((s.colour r c.toNat).stalew + 1) }

/-- Whether records bound for two places keep their order: of one channel to one consumer, on the way round by a conversion node too (spec/02
R34, R49); into one exit port by any channel (spec/22 R442, spec/24 R444). -/
def sameWay (s : State) (a b : Dest) : Bool :=
  a = b || (match a, b with
    | .op r k _, .op q j _ => r == q && k == j && oKind (s.opEntry r k) == 2
    | .slot t ch, .op r k c => c == ch && oKind (s.opEntry r k) == 9 && s.regOfTile t == r
    | .op r k c, .slot t ch => c == ch && oKind (s.opEntry r k) == 9 && s.regOfTile t == r
    | _, _ => false)

/-- A record put among those of a spill ring, in the order that it keeps. -/
def putSpill (s : State) (x : Spill) (l : List Spill) : List Spill :=
  let later := fun (y : Spill) => y.tr.ahead == 0 && s.sameWay y.tr.dst x.tr.dst && rhWave y.tr.rc.hdr == rhWave x.tr.rc.hdr
  match x.tr.ahead with
  | 0 => l ++ [x]
  | 1 => l.takeWhile (fun y => !later y) ++ x :: l.dropWhile (fun y => !later y)
  | _ => x :: l

/-- The lowest entry of a spill ring that holds no record (spec/16 R320: a freed one may be used at once). -/
def freeEntry (l : List Spill) : Nat := ((List.range (l.length + 1)).find? (fun i => l.all (fun y => y.entry != i))).getD l.length

/-- Writes a record's beats into an entry of its colour's spill ring (spec/16 R320; the place of the beats in it is DEDUCED, log entry 29). -/
def writeEntry (s : State) (r i : Nat) (h : BitVec 64) (beats : List Vec) : State :=
  let e := lget 0 (s.region r).colours (rhCol h).toNat
  if kSpilln e ≤ i then s
  else (beats.foldl (fun (acc : State × Nat) v =>
    (acc.1.homeWrite acc.2 64 v.toNat { part := s.partOf r, col := rhCol h, rtag := rhRtag h, die := (s.region r).die }, acc.2 + 64))
    (s, kSpillpa e + i * 5120)).1

/-- Puts a record into its colour's spill ring. -/
def spillRec (s : State) (r : Nat) (tr : Transit) (frozen : Bool) : State :=
  let c := (rhCol tr.rc.hdr).toNat
  let l := (s.colour r c).spill
  let i := freeEntry l
  let s1 := s.writeEntry r i tr.rc.hdr tr.rc.beats
  s1.setColour r c { s1.colour r c with spill := s.putSpill { tr := tr, entry := i, frozen := frozen } l }

/-- Key of the frame of a slot, colour and wave: the window's base + wave mod W (spec/02 R43). -/
def frameFor (s : State) (r t slot : Nat) (c : BitVec 5) (w : BitVec 16) : Nat :=
  t * 128 + (lget 0 (s.tile t).windows (slot * 32 + c.toNat) + w.toNat % kW (s.colourEntry r c w)) % 128

/-- Whether some of n slots from a base are present. -/
def slotsIn (f : Frame) (base n : Nat) : Bool := (List.range n).any (fun i => f.present.getLsbD (base + i))

/-- Whether a record's slots are free in its frame: a frame of another wave still in use counts as present, and so does an earlier record
of the channel until its last slot is popped (spec/16 R318). -/
def slotsFree (s : State) (k ch : Nat) (slot : BitVec 4) (c : BitVec 5) (w : BitVec 16) (base n : Nat) : Bool :=
  let f := s.frame k
  !f.alloc || (f.opsl == slot && f.col == c && f.wave == w && !slotsIn f base n &&
    !(match lget? f.hdrs ch with
      | some h => slotsIn f base (rhBeats h)
      | none => false))

/-- Fires the handler of a frame when its fire mask is filled (spec/02 R49). A fire mask of 0, which names no slot and which the spec does
not speak of, never fires (DESIGN CHOICE, log entry 70). -/
def tryFire (s : State) (k : Nat) : State :=
  let f := s.frame k
  let h := s.handler (k / 128) f.opsl.toNat f.col f.wave
  if hV h && f.alloc && f.cont = .none && (hFire h &&& f.present) == hFire h && hFire h != 0 then
    s.setFrame k { f with cont := .fresh, readyAt := s.clkOf (k / 4096), promoted := none }
  else s

/-- A slot of a frame takes a beat. -/
def putBeat (s : State) (k slot : Nat) (d : Vec) (sc : BitVec 16) (fmt : Nat) : State :=
  let f := s.frame k
  (s.frameWrite (((s.core (k / 4096)).region).getD (k / 4096)) k (slot * 64) 64 d.toNat).setFrame k
    { f with present := f.present ||| (1#16 <<< slot), tags := lset f.tags slot fmt, scales := lset f.scales slot sc }

/-- The beats of a record into consecutive slots from the channel's slot base. -/
def putBeats (s : State) (k base : Nat) (fmt : Nat) : List Vec → List (BitVec 16) → State
  | [], _ => s
  | d :: ds, scs => putBeats (s.putBeat k base d (scs.head?.getD 0) fmt) k (base + 1) fmt ds scs.tail

/-- A record lands in its frame, which is allocated if it is not yet (spec/02 R43, spec/21 R415 GEN), and fetched back first if it has
been evicted (spec/14 R283); a frame of a poisoned wave stays at the heap (spec/21 R420). -/
def landRec (s0 : State) (k ch : Nat) (slot : BitVec 4) (e : BitVec 64) (rc : Rec) : State :=
  let r := s0.regOfTile (k / 128)
  let s := if s0.waveMarked r (rhCol rc.hdr) (rhWave rc.hdr) then s0 else s0.frameFromHeap r k
  let f := s.frame k
  let f1 : Frame := if f.alloc then f
    else { alloc := true, opsl := slot, col := rhCol rc.hdr, wave := rhWave rc.hdr, rtag := rhRtag rc.hdr, gen := f.gen + 1 }
  let s1 := s.setFrame k { f1 with hdrs := lset f1.hdrs ch rc.hdr, cursors := lset f1.cursors ch (cBase e), used := s.now }
  ((s1.putBeats k (cBase e) (rhFmt rc.hdr).toNat rc.beats rc.scales).tryFire k).pinFrame r k

/-- Whether an earlier record of the same channel and wave waits in the spill ring (spec/02 R45). -/
def spilledBefore (s : State) (r t ch : Nat) (c : BitVec 5) (w : BitVec 16) : Bool :=
  (s.colour r c.toNat).spill.any (fun x => s.sameWay x.tr.dst (.slot t ch) && rhWave x.tr.rc.hdr == w)

/-- An engine or operator fault: a trap record with NOCONT to the trap operator, travelling in a wave of its own; where the region has none it
goes to the log and the hub owes a purge of the colour and request tag (spec/21 R414, R417). -/
def engineTrapIn (s : State) (r p : Nat) (i : TrapInfo) (rtag wave : BitVec 16) (col : BitVec 5) (opsl : BitVec 4)
    (tile core : Nat) (inWave : BitVec 16) : State :=
  let bytes := trapBytes { i with flags := i.flags ||| 8 } rtag wave col opsl tile ((s.region r).rcoreOf core) (core / 16) 0 0
  if (s.region r).trapv then s.trapSend r bytes rtag inWave col []
  else
    let s1 := s.logPut p bytes (core / 16)
    { s1 with purges := s1.purges ++ [{ region := r, part := p, col := col, rtag := rtag, cause := i.cause }] }

/-- An engine or operator fault of a wave that lives on: its record travels in that wave. -/
def engineTrap (s : State) (r p : Nat) (i : TrapInfo) (rtag wave : BitVec 16) (col : BitVec 5) (opsl : BitVec 4)
    (tile core : Nat) : State := s.engineTrapIn r p i rtag wave col opsl tile core wave

/-- A header found damaged at a receiving stage: counted, and reported in a UCE trap record with the raw header and the channel (spec/02
R37). No field of the header is used. The spec does not say whose colour, wave and request tag the record carries: the lowest armed
colour of the region, its oldest wave, and tag 0 (DESIGN CHOICE, log entry 60). A region without a trap operator, or without an armed
colour, reports it in the log alone: no purge follows (spec/21 R424). -/
def parityDrop (s : State) (tr : Transit) (r : Nat) (slot : BitVec 4) (tile core : Nat) : State :=
  let s1 := s.countCherr tr.cherr.1 tr.cherr.2
  let i : TrapInfo := { cause := Cause.uce, flags := 8, arg := BitVec.ofNat 16 tr.cherr.2, under := tr.rc.hdr }
  let x := s.region r
  let c := (x.colours.find? (fun e => kArmed e.2)).map (·.1)
  let col := BitVec.ofNat 5 (c.getD 0)
  let w := (s.colour r (c.getD 0)).owc
  let bytes := trapBytes i 0 w col slot (tile % 32) (x.rcoreOf core) (core / 16) 0 0
  if x.trapv && c.isSome then s1.trapSend r bytes 0 w col [] else s1.logPut (s.partOf core) bytes (core / 16)

/-- A record reaches an operator slot: it lands, spills, is converted or is discarded (spec/02 R37, R43, R49). A record that is in its channel's
format already, or was converted, and still fails the filter goes to the conversion node again (DESIGN CHOICE, log entry 87). -/
def arrive (s : State) (tr : Transit) (t ch : Nat) (replay : Bool) : State :=
  let h := tr.rc.hdr
  let c := rhCol h
  let w := rhWave h
  let r := ((s.core (t / 32)).region).getD (t / 32)
  let e := s.chan t ch c w
  let slot := cISlot e
  let hd := s.handler t slot.toNat c w
  let d := waveDiff w (lget 0 (s.tile t).owc c.toNat)
  if !rhParityOk h then
    s.parityDrop tr r 0 t (t / 32)
  else if d < 0 || !kArmed (s.colourEntry r c w) then s.countStale r c
  else if s.marked r false t slot.toNat c w then s.spillRec r tr true
  else if rhPoison h then
    (s.poisonOp r { tile := t, op := slot.toNat, col := c, wave := w } (rhRtag h)).spillRec r tr true
  else if !(hFilter hd).getLsbD (rhFmt h).toNat then
    if cConv e != 0xFF then
      { s with transit := { tr with dst := .op r (cConv e) ch, left := 0, waits := [] } :: s.transit }
    else
      (s.poisonOp r { tile := t, op := slot.toNat, col := c, wave := w } (rhRtag h)).engineTrap r (s.partOf (t / 32))
        { cause := Cause.chan } (rhRtag h) w c slot (t % 32) (t / 32)
  else if cBeats e < tr.rc.beats.length then
    (s.poisonOp r { tile := t, op := slot.toNat, col := c, wave := w } (rhRtag h)).engineTrap r (s.partOf (t / 32))
      { cause := Cause.chan } (rhRtag h) w c slot (t % 32) (t / 32)
  else
    let k := s.frameFor r t slot.toNat c w
    if d < kW (s.colourEntry r c w) && (replay || !s.spilledBefore r t ch c w) &&
        s.slotsFree k ch slot c w (cBase e) tr.rc.beats.length
    then s.landRec k ch slot e tr.rc
    else s.spillRec r tr false

end State

end Sys2Proof.Machine
end

