-- ==== Sys2Proof/Machine/SeqTab.lean ====
section
/-!
DEFINITION. Machine/SeqTab.lean: sequence descriptors, segment tables, reservations and the pool map, as they stand
in memory (spec/18 R365, R366, spec/20 R397, R398), and the advance of a committed length (spec/20 R402). A descriptor stands at a
physical address; its segment table, void bitmap and reservation block at guest physical ones of its owner's guest.
-/

namespace Sys2Proof.Machine

/-- Who works on a sequence: the guest whose stage 2 places its tables, and the agent that writes. -/
structure SeqBy where
  vm : Nat := 0
  b : By := {}
deriving DecidableEq, Repr

/-- A use of memory by a sequence instruction: where, how many bytes, whether it writes; the leaves of stage 1, with the NC mark of its page,
and of stage 2 that lead there, and their RO and NC (spec/14 R290, R292). -/
structure SeqUse where
  pa : Nat
  n : Nat
  wr : Bool := false
  l1 : Option (Nat × Bool) := none
  l2 : Option Nat := none
  ro : Bool := false
  nc : Bool := false
deriving DecidableEq, Repr

namespace State

/-- The activation in focus at work on a sequence of its colour. -/
def seqBy (s : State) : SeqBy := { vm := kVmid s.curColour, b := s.byCur }

/-- Physical address of a descriptor (spec/18 R365). -/
def seqAddr (s : State) (p h : Nat) : Nat := (s.part p).seqBase + 64 * h

def dV (s : State) (d : Nat) : Bool := bit (s.rmem d 1) 0
def dLoges (s : State) (d : Nat) : Nat := bits (s.rmem d 1) 1 4
def dOwner (s : State) (d : Nat) : Nat := bits (s.rmem (d + 1) 1) 0 5
def dNres (s : State) (d : Nat) : Nat := s.rmem (d + 2) 1
def dRefcnt (s : State) (d : Nat) : Nat := s.rmem (d + 4) 4
def dCl (s : State) (d : Nat) : Nat := s.rmem (d + 8) 8
def dRl (s : State) (d : Nat) : Nat := s.rmem (d + 0x10) 8
def dSva (s : State) (d : Nat) : Nat := s.rmem (d + 0x18) 8
def dSegt (s : State) (d : Nat) : Nat := s.rmem (d + 0x20) 8
def dVoid (s : State) (d : Nat) : Nat := s.rmem (d + 0x28) 8
def dResv (s : State) (d : Nat) : Nat := s.rmem (d + 0x30) 8
def dEs (s : State) (d : Nat) : Nat := 2 ^ s.dLoges d
/-- The capacity of a sequence (spec/20 R398). -/
def dCap (s : State) (d : Nat) : Nat := min (2 ^ 26 / s.dEs d) 449536

/-- Where a guest physical address leads (spec/18 R365); none where stage 2 faults. -/
def gpaPa (s : State) (vm a : Nat) : Option Nat := (s.stage2 vm a).toOption.map (·.2)

/-- n bytes at a guest physical address; zero where stage 2 faults. -/
def gread (s : State) (vm a n : Nat) : Nat :=
  match s.gpaPa vm a with
  | some pa => s.rmem pa n
  | none => 0

/-- A write of n bytes at a guest physical address; none where stage 2 faults. -/
def gwrite (s : State) (q : SeqBy) (a n v : Nat) : State :=
  match s.stage2 q.vm a with
  | .ok (l, pa) => s.homeWrite pa n v { q.b with nc := pteNc l.entry }
  | .error _ => s

/-- Whether the tables of a descriptor can be reached: SEGT, VOID and RESV pass stage 2. -/
def seqReach (s : State) (vm d : Nat) : Bool :=
  (s.gpaPa vm (s.dSegt d)).isSome && (s.gpaPa vm (s.dVoid d)).isSome && (s.gpaPa vm (s.dResv d)).isSome

/-- Physical address of segment k, where the segment table has it (spec/18 R366). -/
def segPa (s : State) (vm d k : Nat) : Option Nat :=
  let e := s.gread vm (s.dSegt d + 8 * k) 8
  if pteV e then s.gpaPa vm (pteOut e) else none

/-- Places of the segment table that may hold a segment. -/
def segIdx (s : State) (vm d : Nat) : List Nat :=
  match s.gpaPa vm (s.dSegt d) with
  | some pa => s.tableIdx pa
  | none => []

/-- What an instruction uses n bytes at a guest physical address for, where stage 2 leads. -/
def gUse (s : State) (vm a n : Nat) (wr : Bool) : Option SeqUse :=
  match s.stage2 vm a with
  | .ok (l, pa) => some { pa := pa, n := n, wr := wr, l2 := some l.entryPa, ro := pteRo l.entry, nc := pteNc l.entry }
  | .error _ => none

/-- The use of n bytes of one segment of a sequence, through the entry that the segment table holds for it. -/
def eUse (s : State) (vm d off n : Nat) (wr : Bool) : Option SeqUse :=
  match s.stage2 vm (s.dSegt d + 8 * (off / 0x10000)) with
  | .error _ => none
  | .ok (lt, pt) =>
    let e := s.rmem pt 8
    if !pteV e then none
    else (s.gUse vm (pteOut e) n wr).map (fun u => { u with
      pa := u.pa + off % 0x10000, l1 := some (pt, pteNc lt.entry), ro := u.ro || pteRo e, nc := u.nc || pteNc e })

/-- The tables of a descriptor that an instruction uses; it writes the segment table, the void bitmap or the reservation block as said. -/
def tableUses (s : State) (vm d : Nat) (segt void resv : Bool) : List SeqUse :=
  [s.gUse vm (s.dSegt d) 8 segt, s.gUse vm (s.dVoid d) 1 void, s.gUse vm (s.dResv d) 16 resv].filterMap id

/-- Whether a home refuses a use with PERM: another partition's unit, or a write to a page that is RO in either stage or to memory that
hardware owns (spec/14 R290, R292, spec/16 R320). -/
def seqBad (s : State) (p : Nat) (l : List SeqUse) : Bool :=
  l.any (fun u => s.ownerOf (s.forward u.pa) != p || (u.wr && (u.ro || s.hwBad u.pa u.n)))

/-- What the uses leave in the page tables, A and D of the leaves, and what the reads among them leave at their homes (spec/14 R292, R295). -/
def seqTouch (s : State) (q : SeqBy) (l : List SeqUse) : State :=
  l.foldl (fun st u =>
    let v := if u.wr then 0xC0 else 0x40
    let st1 := u.l1.elim st (fun e => st.orByte q.b.die e.1 v e.2)
    let st2 := u.l2.elim st1 (fun e => st1.orByte q.b.die e v false)
    if u.wr then st2 else st2.homeRead u.pa u.n { q.b with nc := u.nc }) s

/-- Physical address of a byte of a sequence. -/
def seqPa (s : State) (vm d off : Nat) : Option Nat := (s.segPa vm d (off / 0x10000)).map (· + off % 0x10000)

/-- Pool-map entry of a segment (spec/18 R366). -/
def poolEntry (s : State) (p seg : Nat) : Nat := (s.part p).poolMap + 16 * ((seg - (s.part p).poolBase) / 0x10000)

def clampSeg (n k : Nat) : Nat := min (n - k * 0x10000) 0x10000

/-- SEALED of every segment from CL, or RLIM of every segment from RL (spec/20 R400, R402). -/
def setLimits (s : State) (q : SeqBy) (d off n : Nat) : State :=
  (s.segIdx q.vm d).foldl (fun st k =>
    match st.segPa q.vm d k with
    | some seg => st.homeWrite (st.poolEntry q.b.part seg + off) 3 (clampSeg n k) q.b
    | none => st) s

/-- Reservation r: base, ready, count, request tag (spec/20 R398). -/
def resBase (s : State) (vm d r : Nat) : Nat := s.gread vm (s.dResv d + 16 * r) 8 % 2 ^ 63
def resReady (s : State) (vm d r : Nat) : Bool := bit (s.gread vm (s.dResv d + 16 * r) 8) 63
def resCount (s : State) (vm d r : Nat) : Nat := s.gread vm (s.dResv d + 16 * r + 8) 8
def resRtag (s : State) (vm d r : Nat) : Nat := s.gread vm (s.dSegt d + 0x2400 + 2 * r) 2

/-- The open reservation at a base, if one is. -/
def resAt (s : State) (vm d b : Nat) : Option Nat :=
  (List.range 64).find? (fun r => s.resCount vm d r != 0 && s.resBase vm d r == b)

/-- CL passes every ready reservation that stands at it (spec/20 R402). -/
def advanceCl (s : State) (q : SeqBy) (d : Nat) : Nat → State
  | 0 => s
  | n + 1 =>
    match (List.range 64).find? (fun r => s.resCount q.vm d r != 0 && s.resReady q.vm d r && s.resBase q.vm d r == s.dCl d) with
    | none => s
    | some r =>
      let c := s.resCount q.vm d r
      let s1 := (s.homeWrite (d + 8) 8 (s.dCl d + c) q.b).gwrite q (s.dResv d + 16 * r) 16 0
      advanceCl (s1.homeWrite (d + 2) 1 (s1.dNres d - 1) q.b) q d n

/-- A reservation made ready, and what follows in the same home event (spec/20 R402). -/
def makeReady (s : State) (q : SeqBy) (d r : Nat) : State :=
  let s1 := s.gwrite q (s.dResv d + 16 * r) 8 (s.resBase q.vm d r + 2 ^ 63)
  let s2 := s1.advanceCl q d 64
  s2.setLimits q d 4 (s2.dCl d * s2.dEs d)

/-- 0xFF to every byte of a reservation's elements, and their void bits (spec/20 R402). -/
def voidElems (s : State) (q : SeqBy) (d r : Nat) : State :=
  let es := s.dEs d
  let b := s.resBase q.vm d r
  let n := s.resCount q.vm d r
  let s1 := (List.range (n * es)).foldl (fun st i =>
    match st.eUse q.vm d (b * es + i) 1 true with
    | some u => st.homeWrite u.pa 1 0xFF { q.b with nc := u.nc }
    | none => st) s
  (List.range n).foldl (fun st i =>
    let a := st.dVoid d + (b + i) / 8
    st.gwrite q a 1 (st.gread q.vm a 1 ||| 2 ^ ((b + i) % 8))) s1

/-- The descriptors of a partition that are in use. -/
def seqsOf (s : State) (p : Nat) : List Nat :=
  ((List.range (s.part p).seqCount).map (s.seqAddr p)).filter (s.dV ·)

end State

end Sys2Proof.Machine
end

