-- ==== Sys2Proof/Machine/Purge.lean ====
section
/-!
DEFINITION. Machine/Purge.lean: what wakes a parked continuation (spec/02 R52), the retirement of waves (spec/02 R42), the
completion of a launch (spec/16 R328), and the removal of everything that bears a colour and request tag (spec/17 R347,
R348, spec/21 R417, R424).
-/

namespace Sys2Proof.Machine

namespace State

/-- Whether the cause of a park has been removed (spec/02 R52). A barrier is removed by its phase change (spec/02 R54), a
restore by pre-emption's restore: both set the continuation runnable themselves. -/
def waitMet (s : State) (k : Nat) : Bool :=
  let f := s.frame k
  let t := k / 128
  match f.wait with
  | .nothing => true
  | .counts tok tom stm =>
    s.ostCount f.aid ≤ stm && s.otoCount f.aid ≤ tom &&
      (List.range 8).all (fun i => !bit tok i || s.tokenOf t i != 1)
  | .barrier _ => false
  | .slotOf ch =>
    let e := s.chan t ch f.col f.wave
    f.present.getLsbD (lget (cBase e) f.cursors ch)
  | .words _ pas => pas.all (fun a => s.feOf a == 1 || s.feOf a == 3)
  | .wordsRetry _ _ at_ => at_ ≤ s.clkOf (t / 32)
  | .seqLen d n => n ≤ s.dCl d
  | .seqRetry _ _ at_ => at_ ≤ s.clkOf (t / 32)
  | .reserve d n => s.dNres d < n
  | .boarding c => (s.core c).boards.length < 16
  | .restore => false

/-- Whether the instruction that a continuation parked on completes once its wait has been met, whatever holds when it is performed again: a
WAITC (spec/20 R393). -/
def overOnce : Wait → Bool
  | .counts _ _ _ => true
  | _ => false

/-- A parked continuation whose cause has been removed: it is runnable, or, marked by a late fault, keeps that until TRET (spec/02 R52,
spec/15 R302). -/
def woken (s : State) (k : Nat) (f : Frame) : Frame :=
  if f.lateMark then { f with removed := true, waitOver := f.waitOver || overOnce f.wait }
  else { f with cont := .runnable, readyAt := s.clkOf (k / 4096), waitOver := f.waitOver || overOnce f.wait, promoted := none }

/-- Makes runnable every parked continuation whose cause has been removed (spec/02 R52, spec/15 R302). -/
def wakeUp (s : State) : State :=
  { s with frames := s.frames.map (fun (k, f) => if f.cont = .parked && s.waitMet k then (k, s.woken k f) else (k, f)) }

/-- The number of items of a colour whose wave a test admits: records, frames, activations, tasks, copies, messages
(spec/02 R42). -/
def liveItems (s : State) (r : Nat) (c : BitVec 5) (ok : BitVec 16 → Bool) : Bool :=
  s.transit.any (fun x => rhCol x.rc.hdr == c && ok (rhWave x.rc.hdr) &&
      (match x.dst with
       | .slot t _ => (s.region r).cores.contains (t / 32)
       | .op q _ _ => q == r
       | .waveCtl q => q == r
       | .reconf q => q == r)) ||
  (s.colour r c.toNat).spill.any (fun x => ok (rhWave x.tr.rc.hdr)) ||
  (s.usedTiles r).any (fun t => (s.tile t).wake.any (fun x => rhCol x.rc.hdr == c && ok (rhWave x.rc.hdr))) ||
  (s.framesOf r).any (fun k => (s.frame k).alloc && (s.frame k).col == c && ok (s.frame k).wave) ||
  (s.ctxsOf r).any (fun k => (s.ctx k).busy && (s.ctx k).col == c && ok (s.ctx k).wave) ||
  (s.region r).outs.any (fun x => rhCol x.rc.hdr == c && ok (rhWave x.rc.hdr)) ||
  (s.region r).nodes.any (fun x => x.col == c && ok x.wave && !(x.dataQ.isEmpty && x.predQ.isEmpty)) ||
  (s.region r).cores.any (fun k =>
    (s.core k).tcbs.any (fun b => b.2.col == c && ok b.2.wave && b.2.st != .named) ||
    (s.core k).copies.any (fun q => q.2.any (fun x => x.col == c && ok x.wave))) ||
  s.fabric.any (fun f => f.2.msgs.any (fun m => !m.done && m.region == some r && m.col == c && ok m.wave)) ||
  s.replies.any (fun x => x.acc.region == r && x.acc.col == c && ok x.acc.wave) ||
  s.accesses.any (fun a => a.region == r && a.col == c && ok a.wave && a.kind != .sync)

/-- The admission whose span holds a wave. -/
def admOf (s : State) (r : Nat) (c : BitVec 5) (w : BitVec 16) : Option Adm :=
  (s.region r).adms.find? (fun a => a.col == c && (w - a.wave).toNat < s.ws r)

/-- Whether a wave is retired: its admission has left every exit port it is declared to leave, or nothing carries it or
an earlier wave of its span (spec/02 R42). A poisoned wave stays live (spec/21 R420). -/
def waveRetired (s : State) (r : Nat) (c : BitVec 5) (w : BitVec 16) : Bool :=
  match s.admOf r c w with
  | none => true
  | some a =>
    !(s.region r).marks.any (fun m => m.col == c && m.wave == w) &&
    (a.left || !s.liveItems r c (fun x => (x - a.wave).toNat ≤ (w - a.wave).toNat))

/-- Whether a wave of a colour has retired (spec/02 R42): OWC has passed it, or will pass it with the waves before it. -/
def waveGone (s : State) (r : Nat) (c : BitVec 5) (w : BitVec 16) : Bool :=
  waveDiff w (s.colour r c.toNat).owc < 0 || (s.colour r c.toNat).gone.contains w

/-- Writes a launch's completion record, or a log entry in its place (spec/16 R328). -/
def complete (s : State) (l : Launch) (status : BitVec 8) (retired : Nat) : State :=
  let fail := s.logPut l.part (trapBytes { cause := status, flags := 8, addr := l.compl } l.rtag 0 l.col 0 0 0 0 0 0) 0
  if l.compl.toNat % 16 != 0 then fail
  else match s.xlateEng 4 l.qvmid 0 l.compl.toNat true with
    | .error _ => fail
    | .ok (t, pa, s1) =>
      if s1.hwBad pa 16 then fail
      else s1.homeWrite pa 16 (status.toNat + l.rtag.toNat * 2 ^ 16 + retired % 2 ^ 16 * 2 ^ 32)
        { part := l.part, col := l.col, rtag := l.rtag, nc := t.nc }

/-- One changed entry put into its table (spec/18 R358). -/
def setEntry (s : State) (r : Nat) (e : Nat × Nat × Nat × Nat × BitVec 256) : State :=
  let t := (((s.region r).coreAt e.2.1).getD r) * 32 + e.2.2.1
  match e.1 with
  | 3 => s.setTile t { s.tile t with handlers := lset (s.tile t).handlers e.2.2.2.1 (e.2.2.2.2.setWidth 64) }
  | 4 => s.setTile t { s.tile t with chans := lset (s.tile t).chans e.2.2.2.1 (e.2.2.2.2.setWidth 64) }
  | _ => s.setRegion r { s.region r with colours := lset (s.region r).colours e.2.2.2.1 e.2.2.2.2 }

/-- Whether OWC has passed the effective wave of every colour of a reconfiguration (spec/02 R60). -/
def reconfPassed (s : State) (r : Nat) (q : Reconf) : Bool :=
  (List.range 32).all (fun i => !q.cmask.getLsbD i || 0 < waveDiff ((s.colour r i).owc) (q.eff.extractLsb' (16 * i) 16))

/-- The oldest reconfigurations that are passed become the tables; the old entries are discarded (spec/02 R60). -/
def settleReconfs (s : State) (r : Nat) : State :=
  let done := (s.region r).reconfs.takeWhile (s.reconfPassed r)
  let s1 := done.foldl (fun st q => q.entries.foldl (fun st e => st.setEntry r e) st) s
  s1.setRegion r { s1.region r with reconfs := (s.region r).reconfs.drop done.length }

/-- What the retirement of one wave changes (spec/02 R42): frames without a continuation go (one with a continuation goes on), the tags
of accumulators and top-k units (spec/10 R210, spec/12 R263), boardings in DONE and FAULTED (spec/07 R151), chains and the state of
operators. -/
def retireWave (s : State) (r : Nat) (c : BitVec 5) (w : BitVec 16) : State :=
  let k := s.colour r c.toNat
  let s1 := s.setColour r c.toNat { k with gone := k.gone ++ [w] }
  let s2 := (s1.framesOf r).foldl (fun st i =>
    let f := st.frame i
    if f.alloc && f.col == c && f.wave == w && f.cont = .none then st.setFrame i { gen := f.gen } else st) s1
  let s3 := (s2.usedTiles r).foldl (fun st t =>
    let x := st.tile t
    st.setTile t { x with
      accTag := x.accTag.map (fun e => if e.2.col == c && e.2.wave == w then (e.1, { e.2 with valid := false }) else e),
      topk := x.topk.map (fun e => if e.2.owner.col == c && e.2.owner.wave == w then
        (e.1, { e.2 with owner := { e.2.owner with valid := false } }) else e) }) s2
  let s4 := (s3.region r).cores.foldl (fun st i =>
    st.setCore i { st.core i with boards := (st.core i).boards.filter (fun b =>
      !(b.2.region == r && b.2.col == c && b.2.wave == w && (b.2.st = .done || b.2.st = .faulted))) }) s3
  let x := s4.region r
  s4.setRegion r { x with
    chains := x.chains.filter (fun h => !(h.col == c && h.wave == w)),
    nodes := x.nodes.filter (fun h => !(h.col == c && h.wave == w)) }

/-- OWC advances over consecutive retired waves: a progress event (spec/02 R42, spec/21 R425); bound records of a passed wave govern every
live wave, and reconfigurations that are passed settle (spec/02 R26, R60). -/
def advanceOwc (s : State) (r : Nat) (c : BitVec 5) : Nat → State
  | 0 => s
  | n + 1 =>
    let k := s.colour r c.toNat
    if !k.gone.contains k.owc then s
    else
      let s1 := s.setColour r c.toNat { k with owc := k.owc + 1, wdog := 0, gone := k.gone.filter (· != k.owc) }
      let x := s1.region r
      let s2 := s1.setRegion r { x with
        bounds := x.bounds.map (fun b => if b.col == c && b.wave == some k.owc then { b with wave := none } else b) }
      advanceOwc (s2.settleReconfs r) r c n

/-- Whether an admission's whole span has retired. -/
def admGone (s : State) (r : Nat) (a : Adm) : Bool :=
  (List.range (s.ws r)).all (fun i => s.waveGone r a.col (a.wave + BitVec.ofNat 16 i))

/-- The completion of a launch all of whose admissions have retired (spec/16 R328). -/
def completeDone (s : State) (r id : Nat) : State :=
  match (s.region r).launches.find? (fun l => l.id == id && l.retired == l.admits) with
  | none => s
  | some l =>
    (s.setRegion r { s.region r with launches := (s.region r).launches.filter (fun q => q.id != l.id) }).complete l l.cause l.retired

/-- An admission whose span has retired is live no longer (spec/19 R384). -/
def endAdm (s : State) (r : Nat) (a : Adm) : State :=
  let x := s.region r
  let s1 := s.setRegion r { x with
    adms := x.adms.filter (fun b => !(b.col == a.col && b.wave == a.wave)),
    launches := x.launches.map (fun l => if l.id == a.launch then { l with retired := l.retired + 1 } else l) }
  let k := s1.colour r a.col.toNat
  (s1.setColour r a.col.toNat { k with livea := k.livea - 1 }).completeDone r a.launch

/-- The waves of a colour that its live admissions span and that have not retired. -/
def liveWaves (s : State) (r : Nat) (c : BitVec 5) : List (BitVec 16) :=
  ((s.region r).adms.filter (fun a => a.col == c)).flatMap (fun a =>
    ((List.range (s.ws r)).map (fun i => a.wave + BitVec.ofNat 16 i)).filter (fun w => !s.waveGone r c w))

/-- Retires one wave of a colour that nothing holds any more, its admission with the last wave of its span, and lets OWC pass what it
may (spec/02 R42). -/
def retireStep (s : State) (r : Nat) (c : BitVec 5) : Option State :=
  match (s.liveWaves r c).find? (s.waveRetired r c) with
  | none => none
  | some w =>
    let s1 := s.retireWave r c w
    let s2 := match s1.admOf r c w with
      | none => s1
      | some a => if s1.admGone r a then s1.endAdm r a else s1
    some (s2.advanceOwc r c (1 + (s2.colour r c.toNat).gone.length))

/-- Retires waves while some wave is retired. -/
def retireN (s : State) (r : Nat) (c : BitVec 5) : Nat → State
  | 0 => s
  | n + 1 =>
    match s.retireStep r c with
    | none => s
    | some s1 => retireN s1 r c n

def retire (s : State) (r : Nat) (c : BitVec 5) : State := s.retireN r c (s.liveWaves r c).length

/-! Purge (spec/17 R347, R348). Each removal below takes the items of (colour, request tag) away and writes one item for
each of them to the partition's report. -/

/-- What a purge is about. -/
structure Tag where
  r : Nat
  p : Nat
  col : BitVec 5
  rtag : BitVec 16
  cause : BitVec 8
  /-- activation that is never removed: the issuer of PURGE; 0 for a purge by the hub -/
  keep : Nat
deriving DecidableEq, Repr

/-- Whether an activation's items are spared: the issuer of PURGE. -/
def spares (g : Tag) (aid : Nat) : Bool := g.keep != 0 && aid == g.keep

def rpt (g : Tag) (s : State) (kind die : Nat) (w : BitVec 16) (ident : Nat) : State :=
  s.rptPut g.p kind g.cause g.rtag g.col die w ident

def isTag (g : Tag) (h : BitVec 64) : Bool := rhCol h == g.col && rhRtag h == g.rtag

def trOf (g : Tag) (s : State) (x : Transit) : Bool :=
  isTag g x.rc.hdr && (match x.dst with
    | .slot t _ => (s.region g.r).cores.contains (t / 32)
    | .op q _ _ => q == g.r
    | .waveCtl q => q == g.r
    | .reconf q => q == g.r)

/-- Records on their way, in spill rings and wake buffers. -/
def purgeRecords (g : Tag) (s : State) : State :=
  let die := (s.region g.r).die
  let s1 := (s.transit.filter (trOf g s)).foldl (fun st x => rpt g st 1 die (rhWave x.rc.hdr) (rhChan x.rc.hdr).toNat) s
  let s2 := { s1 with transit := s1.transit.filter (fun x => !trOf g s1 x) }
  let k := s2.colour g.r g.col.toNat
  let s3 := (k.spill.filter (fun x => isTag g x.tr.rc.hdr)).foldl
    (fun st x => rpt g st 1 die (rhWave x.tr.rc.hdr) (rhChan x.tr.rc.hdr).toNat) s2
  let s4 := s3.setColour g.r g.col.toNat { s3.colour g.r g.col.toNat with spill := k.spill.filter (fun x => !isTag g x.tr.rc.hdr) }
  (s4.usedTiles g.r).foldl (fun st t =>
    let x := st.tile t
    let st1 := (x.wake.filter (fun y => isTag g y.rc.hdr)).foldl
      (fun st y => rpt g st 1 die (rhWave y.rc.hdr) (rhChan y.rc.hdr).toNat) st
    st1.setTile t { st1.tile t with wake := x.wake.filter (fun y => !isTag g y.rc.hdr) }) s4

/-- Whether an activation still has loads that are on their way: those that wait in a replay buffer go with the purge, those that were lost
come no more. -/
def drains (s : State) (aid : Nat) : Bool :=
  s.accesses.any (fun a => a.aid == aid && a.kind.isLoad && (a.seq == 0 || a.freed) && a.ride != .lost) ||
  s.replies.any (fun x => x.acc.aid == aid && x.ride != .lost)

/-- The contexts that run an activation of a frame. -/
def runsOn (s : State) (k : Nat) : List Nat :=
  ((List.range 4).map (fun c => k / 128 * 4 + c)).filter (fun c => (s.ctx c).busy && !(s.ctx c).ended && (s.ctx c).frame == k % 128)

/-- A frame with its records and continuation, and the context that runs on it. -/
def removeFrame (g : Tag) (s : State) (k : Nat) : State :=
  let die := (s.region g.r).die
  let f := s.frame k
  let hs := f.hdrs.filter (fun h => slotsIn f (cBase (s.chan (k / 128) h.1 f.col f.wave)) (rhBeats h.2))
  let s1 := hs.foldl (fun q h => rpt g q 1 die f.wave (h.1 + (k % 128) * 256)) s
  let s2 := if f.cont != .none then rpt g s1 2 die f.wave (k % 128) else s1
  let s3 := match f.cont, f.wait with
    | .parked, .words _ pas => rpt g s2 9 die f.wave (pas.headD 0)
    | _, _ => s2
  ((s3.runsOn k).foldl (fun q c => q.setCtx c {}) s3).setFrame k { gen := f.gen }

/-- A running activation of the tag stops at its next boundary. -/
def stopCtx (g : Tag) (s : State) (k : Nat) : State := s.setCtx k { s.ctx k with stop := some g.cause }

/-- Frames of the tag with their records and continuations; a running activation whose loads are still on their way stops, and goes once they
have drained. -/
def purgeFrames (g : Tag) (s : State) : State :=
  (s.framesOf g.r).foldl (fun st k =>
    let f := st.frame k
    if f.alloc && f.col == g.col && f.rtag == g.rtag && !spares g f.aid then
      (if f.cont = .running && st.drains f.aid then (st.runsOn k).foldl (stopCtx g) st else removeFrame g st k)
    else st) s

/-- The activations that a purge has stopped go, with their frames, once their loads have drained; a context whose activation has ended is
free once they have (spec/17 R347, spec/11 R236). -/
def finishStops (s : State) : State :=
  s.ctxs.foldl (fun st e =>
    if e.2.ended then (if st.oldCount e.2.aid == 0 then st.setCtx e.1 {} else st)
    else match e.2.stop with
      | none => st
      | some cause =>
        let c := e.1 / 128
        let g : Tag := { r := ((st.core c).region).getD c, p := st.partOf c, col := e.2.col, rtag := e.2.rtag, cause := cause, keep := 0 }
        if st.drains e.2.aid then st else removeFrame g st (e.1 / 4 * 128 + e.2.frame)) s

/-- Open records of the assembly pool, queued MMATs, accumulators, top-k units and skip state of the tiles. -/
def purgeTiles (g : Tag) (s : State) : State :=
  let die := (s.region g.r).die
  let mine := (s.framesOf g.r).filter (fun k =>
    (s.frame k).alloc && (s.frame k).col == g.col && (s.frame k).rtag == g.rtag && !spares g (s.frame k).aid)
  let aids := mine.map (fun k => (s.frame k).aid)
  let waveOf := fun (aid : Nat) => ((mine.find? (fun k => (s.frame k).aid == aid)).map (fun k => (s.frame k).wave)).getD 0
  (s.usedTiles g.r).foldl (fun st t =>
    let x := st.tile t
    let open_ := x.pool.filter (fun o => aids.contains o.aid)
    let st1 := open_.foldl (fun q o => rpt g q 0x0D die (waveOf o.aid) o.ch) st
    let st2 := (x.mmats.filter (fun m => m.col == g.col && m.rtag == g.rtag)).foldl
      (fun q m => rpt g q 6 die m.wave m.acc) st1
    let accs := x.accTag.filter (fun a => a.2.valid && a.2.col == g.col && a.2.rtag == g.rtag)
    let st3 := accs.foldl (fun q a => rpt g q 0x0E die a.2.wave a.1) st2
    let tops := x.topk.filter (fun a => a.2.owner.valid && a.2.owner.col == g.col && a.2.owner.rtag == g.rtag)
    let st4 := tops.foldl (fun q a => rpt g q 0x0E die a.2.owner.wave (16 + a.1)) st3
    st4.setTile t { st4.tile t with
      pool := x.pool.filter (fun o => !aids.contains o.aid),
      mmats := x.mmats.filter (fun m => !(m.col == g.col && m.rtag == g.rtag)),
      acc := x.acc.filter (fun e => !accs.any (fun a => a.1 == e.1 / 1024)),
      accTag := x.accTag.map (fun a => if accs.any (fun b => b.1 == a.1) then (a.1, {}) else a),
      topk := x.topk.map (fun a => if tops.any (fun b => b.1 == a.1) then (a.1, { a.2 with entries := [], owner := {} }) else a),
      skips := x.skips.filter (fun e => !(s.framesOf g.r).any (fun k =>
        k / 128 == t && (s.frame k).alloc && (s.frame k).col == g.col && (s.frame k).rtag == g.rtag &&
        e.1 / 64 % 32 == g.col.toNat &&
        e.1 / 0x20000 == (s.frame k).opsl.toNat &&
        e.1 % 64 == (s.frame k).wave.toNat % kW (s.colourEntry g.r g.col (s.frame k).wave))) }) s

/-- A copy that ends without having filled its B slot leaves the slot untagged and open to the next refill (spec/17 R342). -/
def endFill (s : State) (x : Copy) : State :=
  match x.bslot with
  | none => s
  | some (c, i, k) =>
    s.setIsland c i { s.island c i with
      bSlots := lset (s.island c i).bSlots k { lget {} (s.island c i).bSlots k with tag := none, consumed := true, writing := false } }

/-- An island without the A rows, banks and claims of a tag. -/
def purgeIsland (g : Tag) (x : Island) : Island :=
  let mine := fun (b : Owner) => b.valid && b.col == g.col && b.rtag == g.rtag
  { x with
    aRows := x.aRows.filter (fun a => !(a.2.rtag == g.rtag && a.2.col == g.col)),
    banks := x.banks.filter (fun b => !mine (lget {} x.bankTag (b.1 / 32768))),
    bankTag := x.bankTag.map (fun b => if mine b.2 then (b.1, {}) else b),
    claims := x.claims.map (fun k => (k.1, k.2.filter (fun q => !(q.1 == g.col && q.2 == g.rtag)))) }

/-- Tasks, copies, boardings, island rows, banks and claims of the region's cores. -/
def purgeCores (g : Tag) (s : State) : State :=
  (s.region g.r).cores.foldl (fun st c =>
    let die := c / 16
    let x := st.core c
    let tk := x.tcbs.filter (fun b => b.2.col == g.col && b.2.rtag == g.rtag)
    let st1 := tk.foldl (fun q b => rpt g q 3 die b.2.wave b.1) st
    let cp := x.copies.flatMap (fun q => q.2.filter (fun y => y.col == g.col && y.rtag == g.rtag))
    let st2 := cp.foldl (fun q y => rpt g q 4 die y.wave y.tpl) st1
    let st3 := cp.foldl (fun q y => match y.token with
      | some (t, k) => q.setToken t k 3
      | none => q) st2
    let st3 := cp.foldl (fun q y => q.endFill y) st3
    let bd := x.boards.filter (fun b => b.2.col == g.col && b.2.rtag == g.rtag)
    let st4 := bd.foldl (fun q b => rpt g q 5 die b.2.wave
      (b.1 + (st.region g.r).rcoreOf c * 16 + (lget 0 x.boardGen b.1).toNat * 256)) st3
    let st5 := x.islands.foldl (fun q i =>
      let rows := i.2.aRows.filter (fun a => a.2.rtag == g.rtag && a.2.col == g.col)
      let q1 := rows.foldl (fun z a => rpt g z 7 die 0 (i.1 * 2048 + a.1)) q
      let bks := i.2.bankTag.filter (fun b => b.2.valid && b.2.col == g.col && b.2.rtag == g.rtag)
      let q2 := bks.foldl (fun z b => rpt g z 7 die b.2.wave (4096 + i.1 * 2 + b.1)) q1
      i.2.claims.foldl (fun z k => (k.2.filter (fun y => y.1 == g.col && y.2 == g.rtag)).foldl
        (fun z _ => rpt g z 8 die 0 (i.1 * 16 + k.1)) z) q2) st4
    let st5 : State := { st5 with ring := bd.foldl (fun q b => q.unask (c * 16 + b.1)) st5.ring }
    let y := st5.core c
    st5.setCore c { y with
      tcbs := y.tcbs.filter (fun b => !(b.2.col == g.col && b.2.rtag == g.rtag)),
      copies := y.copies.map (fun q => (q.1, q.2.filter (fun z => !(z.col == g.col && z.rtag == g.rtag)))),
      boards := y.boards.filter (fun b => !(b.2.col == g.col && b.2.rtag == g.rtag)),
      islands := y.islands.map (fun i => (i.1, purgeIsland g i.2)) }) s

/-- Whether a node is a core of the purge's region (spec/08 R161). -/
def ofRegion (g : Tag) (s : State) (n : Nat) : Bool := n % 512 < 16 && (s.region g.r).cores.contains (n / 512 * 16 + n % 512)

/-- Decode entries and retransmit buffers of the tag (spec/08 R176): each goes and is listed, its id enters the retired filter of its
destination; what waited for a message that has not been delivered goes with it. -/
def purgeMsgs (g : Tag) (s : State) : State :=
  let entry := fun (e : DecEntry) => e.col == g.col && e.rtag == g.rtag && (ofRegion g s e.src || ofRegion g s e.dst)
  let part := fun (e : Stripe) => e.col == g.col && e.rtag == g.rtag && (ofRegion g s e.src || ofRegion g s e.dst)
  let msg := fun (m : Msg) => m.region == some g.r && m.col == g.col && m.rtag == g.rtag && !spares g m.aid
  let s1 := s.fabric.foldl (fun st f =>
    let ds := f.2.entries.filter entry
    let ms := f.2.msgs.filter msg
    let st1 := ds.foldl (fun q e => rpt g q 0x0B f.1 0 e.id) st
    let st2 := ms.foldl (fun q m => rpt g q 0x0B f.1 m.wave m.id) st1
    let st3 := st2.setFab f.1 { st2.fab f.1 with
      entries := f.2.entries.filter (fun e => !entry e), parts := f.2.parts.filter (fun e => !part e),
      msgs := f.2.msgs.filter (fun m => !msg m),
      retired := (st2.fab f.1).retired ++ ds.map (fun e => (e.src, e.cls, e.id, st2.now + 2 * e.decto)) }
    ms.foldl (fun q m => q.setFab (m.dst / 512) { q.fab (m.dst / 512) with
      retired := (q.fab (m.dst / 512)).retired ++ [(m.src, m.cls, m.id, q.now + 2 * m.dectoAt)] }) st3) s
  let lost := fun (x : Ride) => match x with
    | .on ns => s.fabric.any (fun f => f.2.msgs.any (fun m => ns.contains m.num && !m.done && msg m))
    | _ => false
  { s1 with
            trips := s1.trips.filter (fun t => !(t.region == some g.r && t.col == g.col && t.rtag == g.rtag && !spares g t.aid)),
            accesses := s1.accesses.filter (fun a => !lost a.ride), replies := s1.replies.filter (fun x => !lost x.ride),
            transit := s1.transit.filter (fun x => !lost x.ride) }

/-- Waiters and waiting STEFs, chain accesses, decode entries and retransmit buffers. -/
def purgeAccesses (g : Tag) (s : State) : State :=
  let die := (s.region g.r).die
  let stef := fun (a : Access) => a.waiting || (a.kind == .stef && a.resendAt != 0)
  let mine := fun (a : Access) => a.region == g.r && a.col == g.col && a.rtag == g.rtag && !spares g a.aid &&
    (stef a || (a.seq != 0 && !a.freed) || a.kind == .sync)
  let s1 := (s.accesses.filter (fun a => mine a && (stef a || a.seq != 0))).foldl (fun st a =>
    rpt g st (if stef a then 9 else 0x0A) die a.wave ((a.elems.head?.map (·.gva)).getD 0)) s
  let gone := (s1.accesses.filter mine).map (·.id)
  let x := s1.region g.r
  let s2 := ({ s1 with accesses := s1.accesses.filter (fun a => !mine a) } : State).setRegion g.r
    { x with chains := x.chains.map (fun c => { c with items := c.items.filter (fun i => i.performed || !gone.contains i.acc) }) }
  purgeMsgs g s2

/-- Open reservations of the tag, voided as SQVOID voids them (spec/20 R408); a change of CL is progress (spec/21 R425). -/
def purgeSeqs (g : Tag) (s : State) : State :=
  let q : SeqBy := { vm := kVmid (lget 0 (s.region g.r).colours g.col.toNat), b := { part := g.p, col := g.col, rtag := g.rtag } }
  (s.seqsOf g.p).foldl (fun st d =>
    if st.dOwner d == g.col.toNat then
      (List.range 64).foldl (fun x r =>
        if x.resCount q.vm d r != 0 && x.resRtag q.vm d r == g.rtag.toNat then
          let y := (x.voidElems q d r).makeReady q d r
          let k := y.colour g.r g.col.toNat
          rpt g (if y.dCl d != x.dCl d then y.setColour g.r g.col.toNat { k with wdog := 0 } else y) 0x0C (x.region g.r).die 0 (x.resBase q.vm d r)
        else x) st
    else st) s

/-- The admissions of a tag retire at once, and its launches end with the cause and admit nothing further (spec/17 R347); records that its
fixed operators hold are removed. -/
def purgeAdms (g : Tag) (s0 : State) : State :=
  let x := s0.region g.r
  let ofTag := fun (w : BitVec 16) => x.adms.any (fun a => a.col == g.col && a.rtag == g.rtag && (w - a.wave).toNat < s0.ws g.r)
  let held := (x.outs.filter (fun o => isTag g o.rc.hdr)).map (·.rc) ++
    (x.nodes.flatMap (fun n => if n.col == g.col then (n.dataQ ++ n.predQ).map (·.rc) else [])).filter (fun q => isTag g q.hdr)
  let s := held.foldl (fun st q => rpt g st 1 x.die (rhWave q.hdr) (rhChan q.hdr).toNat) s0
  let mine := fun (l : Launch) => l.col == g.col && l.rtag == g.rtag
  let s1 := s.setRegion g.r { s.region g.r with
    marks := x.marks.filter (fun m => !(m.col == g.col && ofTag m.wave)),
    outs := x.outs.filter (fun o => !isTag g o.rc.hdr),
    nodes := x.nodes.filter (fun n => !(n.col == g.col && ofTag n.wave)),
    skips := x.skips.filter (fun k => !(k.1 / 64 % 32 == g.col.toNat && ofTag k.2.cwave)),
    adms := x.adms.map (fun a => if a.col == g.col && a.rtag == g.rtag then { a with left := true } else a),
    launches := x.launches.map (fun l => if mine l then { l with admits := l.admitted, cause := g.cause } else l) }
  let s2 := s1.retire g.r g.col
  ((s2.region g.r).launches.filter mine).foldl (fun st l => st.completeDone g.r l.id) s2

/-- The whole removal (spec/17 R347): the order of removals is the order of the report's items. -/
def purgeTag (g : Tag) (s : State) : State :=
  wakeUp (purgeAdms g (purgeSeqs g (purgeAccesses g (purgeCores g (purgeFrames g (purgeTiles g (purgeRecords g s)))))))

end State

end Sys2Proof.Machine
end

