-- ==== Sys2Proof/Machine/Ops.lean ====
section
/-!
DEFINITION. Machine/Ops.lean: how a meaning ends (spec/09 R202): performed, held, parked, trapped. Parking and the park
set (spec/02 R51, R52), taking a trap (spec/10 R208, spec/21 R414 to R417), the return from one (spec/11 R239, R240), the end of an
activation (spec/11 R236), and the wrapper that every instruction's meaning is written with.
-/

namespace Sys2Proof.Machine

/-- How an instruction of the context in focus ends. -/
inductive Act where
  /-- performed; the next instruction follows -/
  | ok (s : State)
  /-- performed; IP moves -/
  | jump (s : State) (ip : BitVec 32)
  /-- not issued: it holds its context (spec/15 R300); soft: a hold that pre-emption turns into a park (spec/21 R428) -/
  | hold (s : State) (soft : Bool)
  /-- parks with a pcause on a wait; next: the continuation names the instruction after it (spec/11 R237) -/
  | park (s : State) (pcause : Nat) (w : Wait) (next : Bool)
  /-- traps precisely -/
  | trap (i : TrapInfo)
  /-- performed, and the context no longer runs this activation -/
  | done (s : State)

namespace State

/-! FCTL and FSTAT of the activation's slot and colour (spec/10 R213, R215, R216). -/

def slotColour (s : State) : Nat := s.cur.opsl.toNat * 32 + s.cur.col.toNat
def fctl (s : State) : BitVec 12 := lget 0 (s.tile s.curTile).fctl s.slotColour
def fstat (s : State) : BitVec 5 := lget 0 (s.tile s.curTile).fstat s.slotColour
def setFctl (s : State) (v : BitVec 12) : State :=
  s.setTile s.curTile { s.tile s.curTile with fctl := lset (s.tile s.curTile).fctl s.slotColour v }
def setFstat (s : State) (v : BitVec 5) : State :=
  s.setTile s.curTile { s.tile s.curTile with fstat := lset (s.tile s.curTile).fstat s.slotColour v }

/-- ROUND DYN is the mode that FCTL holds (spec/04 R82, spec/10 R213). -/
def rmode (s : State) (r : Rnd) : Rnd :=
  match r with
  | .dyn => (Rnd.dec (s.fctl.extractLsb' 0 3)).getD .rne
  | m => m

/-! The end of a performed instruction. -/

/-- IP moves past the instruction, which counts as issued (spec/02 R53). -/
def advance (s : State) : State :=
  s.setCur { s.cur with ip := s.cur.ip + BitVec.ofNat 32 s.cur.len, issued := s.cur.issued + 1, waitOver := false, kept := none, held := false }

/-- IP moves to a target. -/
def jumpTo (s : State) (ip : BitVec 32) : State :=
  s.setCur { s.cur with ip := ip, issued := s.cur.issued + 1, waitOver := false, kept := none, held := false }

def holdOn (s : State) : State := s.setCur { s.cur with held := true }

/-! The park set (spec/02 R39, R40, R51). -/

/-- The continuation word (spec/02 R40). -/
def contWord (pcause : Nat) (p1 p2 p3 : Bool) (ip : BitVec 32) : Nat :=
  pcause * 2 ^ 40 + (if p3 then 2 ^ 34 else 0) + (if p2 then 2 ^ 33 else 0) + (if p1 then 2 ^ 32 else 0) + ip.toNat

/-- TS offset of the frame the context runs on. -/
def fp (s : State) : Nat := s.cur.frame * 0x800

/-- Writes the park set and the continuation word into the frame (spec/02 R51). -/
def saveSet (s : State) (pcause : Nat) (ip : BitVec 32) : State :=
  let t := s.curTile
  let b := s.fp
  let s1 := (List.range 8).foldl (fun st i => st.twrite t (b + 0x400 + 64 * i) 64 (s.rdV (BitVec.ofNat 5 i)).toNat) s
  let s2 := (List.range 15).foldl (fun st i => st.twrite t (b + 0x600 + 8 * i) 8 (s.rdS (BitVec.ofNat 6 (i + 1))).toNat) s1
  let s3 := (List.range 4).foldl (fun st i => st.twrite t (b + 0x678 + 8 * i) 8 (s.rdM (BitVec.ofNat 3 i)).toNat) s2
  s3.twrite t (b + 0x698) 8 (contWord pcause (s.rdP 1) (s.rdP 2) (s.rdP 3) ip)

/-- Restores the park set, IP and the frame's registers into the context in focus; every other register is undefined, of
a fresh epoch (spec/02 R52). The continuation word keeps the pcause of the last park, trap or hold until the next one writes it: spec/02
R40 gives no event that writes 0x00 'not parked' (DESIGN CHOICE, log entry 61). -/
def loadSet (s : State) (f : Nat) : State :=
  let t := s.curTile
  let b := f * 0x800
  let fr := s.frame (t * 128 + f)
  let w := s.tread t (b + 0x698) 8
  { s with free := s.free + 1 }.setCur
    { busy := true, aid := fr.aid, frame := f, ip := BitVec.ofNat 32 w, col := fr.col, wave := fr.wave, rtag := fr.rtag,
      opsl := fr.opsl, epoch := s.free, waitOver := fr.waitOver,
      sregs := (List.range 15).map (fun i => (i + 1, BitVec.ofNat 64 (s.tread t (b + 0x600 + 8 * i) 8))),
      vregs := (List.range 8).map (fun i => (i, BitVec.ofNat 512 (s.tread t (b + 0x400 + 64 * i) 64))),
      preds := [(1, bit w 32), (2, bit w 33), (3, bit w 34)],
      masks := (List.range 4).map (fun i => (i, BitVec.ofNat 64 (s.tread t (b + 0x678 + 8 * i) 8))) }

/-- Parks the activation in focus; its loads have drained (spec/02 R51). -/
def parkNow (s : State) (pcause : Nat) (w : Wait) (ip : BitVec 32) : State :=
  let k := s.curFrameKey
  let s1 := s.saveSet pcause ip
  let s2 := (s1.setFrame k { s1.frame k with
    cont := .parked, wait := w, lateMark := false, removed := false, trapLate := false,
    waitOver := s.cur.waitOver, promoted := none, used := s.now }).setCtx s.focus {}
  (s2.pinFrame s.curRegion k).wakeUp

/-! Taking a trap (spec/10 R208, spec/21 R414 to R417). -/

/-- The fault of the instruction in focus, with what its trap record says of it. -/
def faultOf (s : State) (cause : BitVec 8) : TrapInfo :=
  { cause := cause, flags := if s.cur.dindex = 0xFFFF then 0 else 4, ip := s.cur.ip, word := s.cur.word, dindex := s.cur.dindex }

/-- The handle of the activation in focus (spec/21 R415). -/
def handleCur (s : State) : Nat :=
  handleOf (s.frame s.curFrameKey).gen s.cur.wave s.cur.col ((s.region s.curRegion).rcoreOf s.curCore) s.curTile s.cur.frame
    s.cur.opsl.toNat

/-- TAKING A TRAP, once the loads of the activation have drained: the park set and the continuation word with pcause 0x07
are saved, the trap record is written at frame offset 0x700, the continuation is trapped and its context freed, and the record
goes to the region's trap operator; from trap-operator mode, or without a trap operator, it goes to the partition log and the
hub purges (spec/21 R414, R417). -/
def trapNow (s : State) (i : TrapInfo) : State :=
  let c := s.cur
  let k := s.curFrameKey
  let r := s.curRegion
  let esc := s.trapMode
  let i1 : TrapInfo := if esc then { i with flags := i.flags ||| 0x10 } else i
  let bytes := trapBytes i1 c.rtag c.wave c.col c.opsl s.curTile ((s.region r).rcoreOf s.curCore) s.curDie s.handleCur c.frame
  let s1 := (s.saveSet 7 c.ip).twrite s.curTile (s.fp + 0x700) 256 bytes
  let s2 := (s1.setFrame k { s1.frame k with
    cont := .trapped, wait := .nothing, lateMark := false, removed := false,
    trapLate := i.flags.getLsbD 0, trapLen := c.len, waitOver := c.waitOver, promoted := none }).setCtx s.focus {}
  let s3 := s2.pinFrame r k
  if esc || !(s.region r).trapv then
    purgeTag { r := r, p := s.curPart, col := c.col, rtag := c.rtag, cause := i.cause, keep := 0 } (s3.logPut s.curPart bytes s.curDie)
  else s3.trapSend r bytes c.rtag c.wave c.col []

/-- A trap waits until every outstanding load of the activation has completed (spec/10 R208, spec/02 R51). -/
def takeTrap (s : State) (i : TrapInfo) : State :=
  if s.oldCount s.cur.aid != 0 then s.setCur { s.cur with pend := some i, held := true } else s.trapNow i

/-- A late fault that finds its activation parked: the trap record goes at once, with LATE and PARKED, and the continuation is marked
trapped; it stays filed on its park cause (spec/15 R302). From trap-operator mode, or without a trap operator, it goes to the log and the
hub purges (spec/21 R417). -/
def lateParked (s : State) (k : Nat) (i : TrapInfo) : State :=
  let f := s.frame k
  let t := k / 128
  let r := s.regOfTile t
  let p := s.partOf (t / 32)
  let esc := hTrapOp (s.handler t f.opsl.toNat f.col f.wave)
  let i1 : TrapInfo := { i with flags := i.flags ||| (if esc then 0x30 else 0x20) }
  let h := handleOf f.gen f.wave f.col ((s.region r).rcoreOf (t / 32)) t (k % 128) f.opsl.toNat
  let bytes := trapBytes i1 f.rtag f.wave f.col f.opsl t ((s.region r).rcoreOf (t / 32)) (t / 512) h (k % 128)
  let s1 := (s.frameWrite r k 0x700 256 bytes).setFrame k { f with lateMark := true }
  if esc || !(s.region r).trapv then
    purgeTag { r := r, p := p, col := f.col, rtag := f.rtag, cause := i.cause, keep := 0 } (s1.logPut p bytes (t / 512))
  else s1.trapSend r bytes f.rtag f.wave f.col []

/-- Makes a trapped continuation runnable: the shared part of TRET and RESUME (spec/11 R239, spec/21 R421). With a late
fault that found it parked, only the mark is cleared; a later late fault of the same activation is then taken (spec/21 R418). -/
def resumeTrapped (s : State) (k : Nat) (skip : Bool) : State :=
  let f := s.frame k
  if f.lateMark then
    match f.lates with
    | [] => (s.setFrame k (if f.removed then
        { f with lateMark := false, removed := false, cont := .runnable, readyAt := s.clkOf (k / 4096), promoted := none }
      else { f with lateMark := false })).wakeUp
    | i :: rest => (s.setFrame k { f with lateMark := false, lates := rest }).lateParked k i
  else
    let r := s.regOfTile (k / 128)
    let w := s.frameRead r k 0x698 8
    let ip := BitVec.ofNat 32 w + (if skip && !f.trapLate then BitVec.ofNat 32 f.trapLen else 0)
    let s1 := s.frameWrite r k 0x698 4 ip.toNat
    s1.setFrame k { s1.frame k with
      cont := .runnable, readyAt := s.clkOf (k / 4096), wait := .nothing, waitOver := f.waitOver && !(skip && !f.trapLate), promoted := none }

/-- The frame that a handle names as trapped in a region (spec/11 R240, spec/21 R415). -/
def trappedFrame (s : State) (r : Nat) (h : Word) : Option Nat :=
  let rcore := (h.extractLsb' 23 4).toNat
  match (s.region r).coreAt rcore with
  | none => none
  | some c =>
    let k := (c * 32 + (h.extractLsb' 18 5).toNat) * 128 + (h.extractLsb' 11 7).toNat
    let f := s.frame k
    if h.getLsbD 0 && f.alloc && (f.cont = .trapped || (f.cont = .parked && f.lateMark)) && f.gen == h.extractLsb' 48 8 &&
        f.wave == h.extractLsb' 32 16 && f.col == h.extractLsb' 27 5 && f.opsl == h.extractLsb' 7 4
    then some k else none

/-- An uncorrectable error consumed by an item: the hub purges the item's colour and request tag with cause UCE, and the trap
operator receives a record without a continuation (spec/21 R424). Where the purge has retired the item's wave, a record in that wave would be
stale (spec/02 R43): it travels in the colour's oldest wave (DESIGN CHOICE, log entry 60). -/
def uceContainAs (s : State) (r p : Nat) (i : TrapInfo) (rtag wave : BitVec 16) (col : BitVec 5) (opsl : BitVec 4)
    (tile core : Nat) : State :=
  let s1 := purgeTag { r := r, p := p, col := col, rtag := rtag, cause := Cause.uce, keep := 0 } s
  s1.engineTrapIn r p i rtag wave col opsl tile core (if s1.waveGone r col wave then (s1.colour r col.toNat).owc else wave)

/-- The same, with a record of cause UCE. -/
def uceContain (s : State) (r p : Nat) (i : TrapInfo) (rtag wave : BitVec 16) (col : BitVec 5) (opsl : BitVec 4)
    (tile core : Nat) : State := s.uceContainAs r p { i with cause := Cause.uce } rtag wave col opsl tile core

/-- The same for the activation in focus. -/
def uceCur (s : State) (addr : Nat) : State :=
  let c := s.cur
  s.uceContain s.curRegion s.curPart { s.faultOf Cause.uce with addr := BitVec.ofNat 64 addr } c.rtag c.wave c.col c.opsl
    (s.curTile % 32) s.curCore

/-! How a meaning ends. -/

/-- The context's partition is being halted for pre-emption (spec/21 R427). -/
def halting (s : State) : Bool := (s.part s.curPart).phase = .halting

/-- The state after an instruction that ended in a given way. A park waits for the activation's loads (spec/02 R51); a
soft hold is a park while its partition halts (spec/21 R428). -/
def finish (s : State) : Act → State
  | .ok s' => s'.advance
  | .jump s' ip => s'.jumpTo ip
  | .hold s' soft =>
    if soft && s.halting && s.oldCount s.cur.aid == 0 then s'.parkNow 9 .restore s.cur.ip else s'.holdOn
  | .park s' pc w next =>
    if s.oldCount s.cur.aid != 0 then s.holdOn
    else s'.parkNow pc w (if next then s.cur.ip + BitVec.ofNat 32 s.cur.len else s.cur.ip)
  | .trap i => s.takeTrap i
  | .done s' => s'

/-- Whether no source is the destination of an outstanding load (spec/11 R220). -/
def srcReady (s : State) (rs : List SReg) (vs : List VReg) : Bool :=
  rs.all (fun r => (lget? s.cur.pendS r.toNat).isNone) && vs.all (fun v => (lget? s.cur.pendV v.toNat).isNone)

/-- An instruction under its predicate: performed when it holds, and held while a source is pending (spec/09 R191,
spec/11 R220). -/
def perform (s : State) (p : Pred) (rs : List SReg) (vs : List VReg) (a : Act) : Host.Outcome State Fault Refusal :=
  .next (if s.holds p then (if s.srcReady rs vs then s.finish a else s.holdOn) else s.advance)

/-- A privileged instruction: without the privilege it traps PRIV whatever its predicate (spec/09 R202, R203). -/
def performPriv (s : State) (p : Pred) (rs : List SReg) (a : Act) : Host.Outcome State Fault Refusal :=
  if s.priv then s.perform p rs [] a else .next (s.takeTrap (s.faultOf Cause.priv))

/-! Instructions that hold their activation until a unit outside the core has answered (spec/15 R310, spec/20 R392). -/

/-- The trip of the instruction in focus. -/
def tripHere (s : State) : Trip :=
  { who := [0, s.cur.aid, s.cur.ip.toNat], src := coreNode s.curCore, region := some s.curRegion, aid := s.cur.aid, part := s.curPart,
    col := s.cur.col, wave := s.cur.wave, rtag := s.cur.rtag }

/-- An instruction ends where its request has come to its homes, whose answers leave: the activation goes on once they have come. -/
def turned (s : State) (t : Trip) (ctl : Bool) (ls : List Leg) : Act → Act
  | .ok s' => .ok (s'.turnTrip t ctl ls)
  | .jump s' ip => .jump (s'.turnTrip t ctl ls) ip
  | .hold s' soft => .hold s' soft
  | .park s' pc w next => .park (s'.turnTrip t ctl ls) pc w next
  | .trap i => .done ((s.turnTrip t ctl ls).takeTrap i)
  | .done s' => .done (s'.turnTrip t ctl ls)

/-- An instruction whose request has to come to other units first (spec/08 R162): held until it has. -/
def heldLegs (s : State) (ctl : Bool) (req ans : List Leg) (a : Act) : Act :=
  match s.tripOfKey s.tripHere.who with
  | some x => if x.back || !s.tripDone x then .hold s false else s.turned x ctl ans a
  | none => if req.isEmpty then a else .hold (s.startTrip s.tripHere ctl req) false

/-- An instruction that reads or writes some pieces of memory. -/
def heldVia (s : State) (ps : List Piece) (a : Act) : Act := s.heldLegs false (s.requests ps) (s.replyLegs ps) a

/-- Something done on another context: the focus comes back. -/
def onCtx (s : State) (k : Nat) (f : State → State) : State :=
  { f { s with focus := k } with focus := s.focus }

end State

end Sys2Proof.Machine
end

