-- ==== Sys2Proof/Machine/Operands.lean ====
section
/-!
DEFINITION. Machine/Operands.lean: the operand forms: channel sources and destinations (spec/09 R189, R190, spec/16 R317 to
R319), skip coding (spec/17 R333), sending (R331, R332), lanes of a vector (spec/04 R81), masks (spec/12 R244), and the wrapper
of the vector instructions.
-/

namespace Sys2Proof.Machine

namespace State

/-- The channel entry as the activation sees it. -/
def chanCur (s : State) (ch : Nat) : BitVec 64 := s.chan s.curTile ch s.cur.col s.cur.wave

/-- Whether a channel is configured for the activation's slot as a source (spec/09 R190). -/
def srcOk (s : State) (ch : Nat) : Bool := cIV (s.chanCur ch) && cISlot (s.chanCur ch) == s.cur.opsl
/-- Whether a channel is configured for the activation's slot as a destination. -/
def dstOk (s : State) (ch : Nat) : Bool := cOV (s.chanCur ch) && cOSlot (s.chanCur ch) == s.cur.opsl

/-- The slot at a channel's read cursor (spec/16 R317). -/
def cursor (s : State) (ch : Nat) : Nat := lget (cBase (s.chanCur ch)) s.curFrame.cursors ch % 16

def slotPresent (s : State) (ch : Nat) : Bool := s.curFrame.present.getLsbD (s.cursor ch)

/-- The beat at a channel's cursor, and its block scale. -/
def peek (s : State) (ch : Nat) : Vec := BitVec.ofNat 512 (s.tread s.curTile (s.fp + s.cursor ch * 64) 64)
def peekScale (s : State) (ch : Nat) : BitVec 16 := lget 0 s.curFrame.scales (s.cursor ch)

/-- Beats of the record at the cursor: the header that landed last on the channel (spec/17 R334). -/
def recBeats (s : State) (ch : Nat) : Nat := rhBeats (lget 0 s.curFrame.hdrs ch)

/-- Pops the slot at the cursor; past the last slot of the record the cursor returns to the slot base (spec/16 R317). -/
def popSlot (s : State) (ch : Nat) : State :=
  let f := s.curFrame
  let cu := s.cursor ch
  let base := cBase (s.chanCur ch)
  let nx := if base + s.recBeats ch ≤ cu + 1 then base else cu + 1
  s.setFrame s.curFrameKey { f with present := f.present &&& ~~~(1#16 <<< cu), cursors := lset f.cursors ch nx }

end State

/-- The channel a vector source names. -/
def VSrc.chan? : VSrc → Option Nat
  | .chan _ c => some c.toNat
  | .reg _ => none

/-- The register a vector source names. -/
def VSrc.reg? : VSrc → Option VReg
  | .reg r => some r
  | .chan _ _ => none

def VDst.chan? : VDst → Option Nat
  | .chan c => some c.toNat
  | .reg _ => none

def VDst.reg? : VDst → Option VReg
  | .reg r => some r
  | .chan _ => none

/-- The channels that some naming pops: each once (spec/09 R190). -/
def popSet (srcs : List VSrc) : List Nat :=
  (srcs.filterMap (fun v => match v with
    | .chan false c => some c.toNat
    | _ => none)).eraseDups

namespace State

/-- The value of a vector source: a register, or the beat at a channel's cursor. -/
def val (s : State) (v : VSrc) : Vec :=
  match v with
  | .reg r => s.rdV r
  | .chan _ c => s.peek c.toNat

def popAll (s : State) (srcs : List VSrc) : State := (popSet srcs).foldl popSlot s

/-! Skip coding (spec/04 R95, spec/17 R333). -/

/-- Key of the skip state of a slot, channel, colour and frame of the window. -/
def skipKey (s : State) (ch : Nat) : Nat :=
  ((s.cur.opsl.toNat * 64 + ch) * 32 + s.cur.col.toNat) * 64 + s.cur.wave.toNat % kW s.curColour

/-! Sending (spec/16 R319, spec/17 R331, R332, R336). -/

/-- The header of a record of the activation: HDR's fields in place of the activation's (spec/16 R319, spec/17 R336). -/
def sendHdr (s : State) (ch nbeats skip : Nat) (set : BitVec 5) (v : BitVec 64) : BitVec 64 :=
  let e := s.chanCur ch
  mkHdr (BitVec.ofNat 8 skip) (BitVec.ofNat 6 (nbeats - 1))
    (if set.getLsbD 4 then rhPoison v else false) (if set.getLsbD 0 then rhKind v else 0) (BitVec.ofNat 6 ch) (cFmt e)
    (if set.getLsbD 3 then rhRtag v else s.cur.rtag) (if set.getLsbD 1 then rhWave v else s.cur.wave)
    (if set.getLsbD 2 then rhCol v else s.cur.col)

/-- A record on its way: to its channel's consumer, or to the region if it is a wave control or a reconfiguration record
(spec/21 R421, spec/02 R59). It leaves once the accesses issued before are performed (spec/17 R332). -/
def dispatch (s : State) (ch : Nat) (rc : Rec) : State :=
  let r := s.curRegion
  let w := s.pendingOf s.cur.aid
  if rhKind rc.hdr == 2 && rhPoison rc.hdr && rc.beats.length == 1 then
    { s with transit := s.transit ++ [{ rc := rc, dst := .waveCtl r, cherr := (s.curTile, ch), waits := w, sender := s.cur.aid }] }
  else if rhKind rc.hdr == 3 then
    { s with transit := s.transit ++ [{ rc := rc, dst := .reconf r, cherr := (s.curTile, ch), waits := w,
                                        early := s.rcEarly r rc }] }
  else s.launchRec r ch s.curCore rc w

/-- Sends beats on a channel under skip coding (spec/17 R332, R333). -/
def sendBeats (s : State) (ch : Nat) (beats : List Vec) (scales : List (BitVec 16)) (set : BitVec 5) (v : BitVec 64) : State :=
  let e := s.chanCur ch
  let h := s.sendHdr ch beats.length 0 set v
  if cSkipz e then
    let key := s.skipKey ch
    let t := s.tile s.curTile
    let zero := skippable (cFmt e).toNat h beats
    let (k, n) := skipRule (lget {} t.skips key) (rhWave h) (cRpw e) zero
    let s1 := s.setTile s.curTile { t with skips := lset t.skips key k }
    match n with
    | none => s1
    | some c => s1.dispatch ch { hdr := s.sendHdr ch beats.length c set v, beats := beats, scales := scales }
  else s.dispatch ch { hdr := h, beats := beats, scales := scales }

/-- The activation's open record on a channel (spec/16 R319). -/
def openOn (s : State) (ch : Nat) : Option OpenRec :=
  (s.tile s.curTile).pool.find? (fun o => o.aid == s.cur.aid && o.ch == ch)

def dropOpen (s : State) (ch : Nat) : State :=
  s.setTile s.curTile { s.tile s.curTile with
    pool := (s.tile s.curTile).pool.filter (fun o => !(o.aid == s.cur.aid && o.ch == ch)) }

/-- Sends an open record; opened by HDR alone it is one beat of zeros (spec/17 R331). -/
def sendOpen (s : State) (o : OpenRec) : State :=
  let (bs, sc) := if o.beats.isEmpty then ([0], [0]) else (o.beats, o.scales)
  (s.dropOpen o.ch).sendBeats o.ch bs sc o.hdrSet o.hdrVal

/-- Beats that the tile's assembly pool holds (spec/16 R316). -/
def poolUsed (s : State) : Nat := ((s.tile s.curTile).pool.map (fun o => o.beats.length)).foldl (· + ·) 0

/-- Appends a beat to the channel's open record, opened if none is, and sends the record when it reaches its configured
beat count (spec/16 R319). -/
def append (s : State) (ch : Nat) (v : Vec) (scale : BitVec 16) : State :=
  let o : OpenRec := (s.openOn ch).getD { aid := s.cur.aid, ch := ch }
  let o1 := { o with beats := o.beats ++ [v], scales := o.scales ++ [scale] }
  if cBeats (s.chanCur ch) ≤ o1.beats.length then s.sendOpen o1
  else
    let t := s.tile s.curTile
    s.setTile s.curTile { t with
      pool := if (s.openOn ch).isSome then t.pool.map (fun x => if x.aid == s.cur.aid && x.ch == ch then o1 else x)
        else t.pool ++ [o1] }

/-- A result to its destination: a register write or one appended beat (spec/12 R242). -/
def put (s : State) (d : VDst) (v : Vec) (scale : BitVec 16) : State :=
  match d with
  | .reg r => s.wrV r v
  | .chan c => s.append c.toNat v scale

/-! The wrapper (spec/09 R202, steps 7 and 8). -/

/-- Sources and a destination are checked before the instruction's own effect: a channel not configured traps CHAN, an absent
slot parks, a full pool holds (spec/09 R190, spec/16 R316). -/
def withChans (s : State) (srcs : List VSrc) (d : Option VDst) (a : Act) : Act :=
  let ins := srcs.filterMap VSrc.chan?
  let out := d.bind VDst.chan?
  if !ins.all s.srcOk || !(out.toList).all s.dstOk then .trap (s.faultOf Cause.chan)
  else
    match ins.find? (fun c => !s.slotPresent c) with
    | some c => .park s 5 (.slotOf c) false
    | none => if out.isSome && Config.poolBeats ≤ s.poolUsed then .hold s true else a

/-- The registers that vector sources name. -/
def regsOf (srcs : List VSrc) : List VReg := srcs.filterMap VSrc.reg?

/-- A vector instruction: its scalar sources, its vector sources, its vector destination. -/
def performV (s : State) (p : Pred) (rs : List SReg) (srcs : List VSrc) (old : List VReg) (d : Option VDst) (a : Act) :
    Host.Outcome State Fault Refusal :=
  s.perform p rs (regsOf srcs ++ old) (s.withChans srcs d a)

/-! Traps on arithmetic (spec/04 R90). -/

/-- Flags that FCTL enables: DZE 11, INE 10, UFE 9, OVE 8; NV has none (spec/10 R215). -/
def enabled (s : State) : Flags :=
  let c := s.fctl
  (BitVec.ofBool (c.getLsbD 11)) ++ 0#1 ++ BitVec.ofBool (c.getLsbD 10) ++ BitVec.ofBool (c.getLsbD 9) ++ BitVec.ofBool (c.getLsbD 8)

/-- All flags of some lanes. -/
def orAll (l : List (Nat × Flags)) : Flags := l.foldl (fun a x => a ||| x.2) 0

/-- The fault of enabled exceptions: its cause, the lowest lane with one, every flag (spec/04 R90). -/
def fpFault (s : State) (l : List (Nat × Flags)) : Option TrapInfo :=
  let en := s.enabled
  let all := orAll l
  match l.filter (fun x => x.2 &&& en != 0) with
  | [] => none
  | hits =>
    let lane := hits.foldl (fun a x => Min.min a x.1) 255
    let cause := if (all &&& en).getLsbD 4 then Cause.divz else if (all &&& en) &&& 3 != 0 then Cause.ovf else Cause.inv
    some { s.faultOf cause with lane := BitVec.ofNat 8 lane, fl := all.setWidth 8 }

/-- FSTAT takes the flags (spec/04 R89). -/
def addFlags (s : State) (fl : Flags) : State := if fl = 0 then s else s.setFstat (s.fstat ||| fl)

/-- A result with its flags by lane: trapped if one is enabled, else written, sources popped, flags set (spec/12 R245). -/
def fpDone (s : State) (l : List (Nat × Flags)) (next : State → State) : Act :=
  match s.fpFault l with
  | some i => .trap i
  | none => .ok (next (s.addFlags (orAll l)))

end State

/-! Lanes (spec/04 R81). -/

def lane (w : Nat) (v : Vec) (i : Nat) : Nat := (v.toNat >>> (w * i)) % 2 ^ w

/-- A vector from its lanes, lowest first. -/
def ofLanes (w : Nat) (l : List Nat) : Vec :=
  BitVec.ofNat 512 (l.foldr (fun x acc => x % 2 ^ w + 2 ^ w * acc) 0)

/-- Whether lane i is active (spec/12 R244). -/
def State.active (s : State) (mk : Mask) (i : Nat) : Bool := !mk.men || (s.rdM mk.mi).getLsbD i

/-- What an inactive lane is written as (spec/12 R244). -/
def State.inactive (s : State) (d : VDst) (mk : Mask) (w i : Nat) : Nat :=
  match d with
  | .chan _ => 0
  | .reg r => if mk.mz then 0 else lane w (s.rdV r) i

/-- Old destination registers that a masked write reads. -/
def oldOf (d : VDst) (mk : Mask) : List VReg :=
  match d with
  | .reg r => if mk.men && !mk.mz then [r] else []
  | .chan _ => []

/-- The lane-wise mould (spec/12 R245): `op i` is the result of active lane i. -/
def State.mould (s : State) (ty : Ty) (d : VDst) (srcs : List VSrc) (mk : Mask) (op : Nat → FRes) : Act :=
  let w := ty.width
  let rs := (List.range ty.lanes).map (fun i => if s.active mk i then (i, op i) else (i, ⟨s.inactive d mk w i, 0⟩))
  s.fpDone (rs.map (fun x => (x.1, x.2.fl))) (fun st => (st.popAll srcs).put d (ofLanes w (rs.map (fun x => x.2.v))) 0)

end Sys2Proof.Machine
end

