-- ==== Sys2Proof/Machine/Scalar.lean ====
section
/-!
DEFINITION. Machine/Scalar.lean: the integer and address instructions of format R (spec/11 R222 to R225), the predicate
instructions (R231), the instructions of format I (R232 to R234), and MFS and MTS (spec/10 R212 to R218).
-/

namespace Sys2Proof.Machine

/-- An instruction of two scalar sources and one scalar destination (spec/11 R220, R222). -/
def State.alu2 (s : State) (p : Pred) (d a b : SReg) (f : Word → Word → Word) : Host.Outcome State Fault Refusal :=
  s.perform p [a, b] [] (.ok (s.wrS d (f (s.rdS a) (s.rdS b))))

/-- An instruction of one scalar source and one scalar destination. -/
def State.alu1 (s : State) (p : Pred) (d a : SReg) (f : Word → Word) : Host.Outcome State Fault Refusal :=
  s.perform p [a] [] (.ok (s.wrS d (f (s.rdS a))))

/-- The signed high product (spec/11 R222). -/
def mulHigh (a b : Word) : Word := BitVec.ofInt 64 (a.toInt * b.toInt / 2 ^ 64)
/-- The unsigned high product. -/
def mulHighU (a b : Word) : Word := BitVec.ofNat 64 (a.toNat * b.toNat / 2 ^ 64)

/-- Signed division truncated toward zero, with the edge cases of spec/11 R223. -/
def divS (a b : Word) : Word := if b = 0 then -1#64 else BitVec.ofInt 64 (a.toInt.tdiv b.toInt)
def divU (a b : Word) : Word := if b = 0 then -1#64 else BitVec.ofNat 64 (a.toNat / b.toNat)
def remS (a b : Word) : Word := if b = 0 then a else BitVec.ofInt 64 (a.toInt.tmod b.toInt)
def remU (a b : Word) : Word := if b = 0 then a else BitVec.ofNat 64 (a.toNat % b.toNat)

/-- A shift count: bits [5:0] (spec/11 R222). -/
def shCount (b : Word) : Nat := b.toNat % 64

/-- Leading zeros, 0 to 64. -/
def leadingZeros (a : Word) : Word := if a = 0 then 64 else BitVec.ofNat 64 (63 - Nat.log2 a.toNat)

/-- Ones of a number below bit n. -/
def onesBelow (v : Nat) : Nat → Nat
  | 0 => 0
  | n + 1 => (if v.testBit n then 1 else 0) + onesBelow v n

/-- Bits in reverse order. -/
def reverseBits (a : Word) : Word :=
  BitVec.ofNat 64 ((List.range 64).foldl (fun acc i => 2 * acc + (if a.getLsbD i then 1 else 0)) 0)

/-- The conditions of CMP and CMPI (spec/11 R224). -/
def Cond.holdsOn (c : Cond) (a b : Word) : Bool :=
  match c with
  | .eq => a == b
  | .ne => a != b
  | .lt => a.slt b
  | .ge => !a.slt b
  | .le => !b.slt a
  | .gt => b.slt a
  | .ltu => a.ult b
  | .geu => !a.ult b
  | .leu => !b.ult a
  | .gtu => b.ult a

/-- The field [pos + len − 1 : pos], sign- or zero-extended (spec/11 R225). -/
def bitField (signed : Bool) (a : Word) (pos len : Nat) : Word :=
  let f := bits a.toNat pos len
  if signed && f.testBit (len - 1) then BitVec.ofInt 64 ((f : Int) - (2 ^ len : Nat)) else BitVec.ofNat 64 f

/-- a with a field replaced by the low bits of b (spec/11 R225). -/
def insertField (a b : Word) (pos len : Nat) : Word :=
  let m := BitVec.ofNat 64 ((2 ^ len - 1) <<< pos)
  (a &&& ~~~m) ||| (BitVec.ofNat 64 (b.toNat <<< pos) &&& m)

/-- The low w bits, sign-extended. -/
def signExt (w : Nat) (a : Nat) : Word :=
  if a.testBit (w - 1) then BitVec.ofInt 64 ((a % 2 ^ w : Nat) - (2 ^ w : Nat)) else BitVec.ofNat 64 (a % 2 ^ w)

/-- The low w bits, zero-extended. -/
def zeroExt (w : Nat) (a : Nat) : Word := BitVec.ofNat 64 (a % 2 ^ w)

/-- ext(imm) (spec/11 R232). -/
def ext (imm : BitVec 32) : Word := imm.signExtend 64

/-- NOP: no effect (spec/11 R222). -/
def execNop (p : Pred) (s : State) : Host.Outcome State Fault Refusal :=
  s.perform p [] [] (.ok s)

/-- MOV (spec/11 R222). -/
def execMov (p : Pred) (d a : SReg) (s : State) : Host.Outcome State Fault Refusal :=
  s.alu1 p d a id

/-- ADD: d := a + b (spec/11 R222). -/
def execAdd (p : Pred) (d a b : SReg) (s : State) : Host.Outcome State Fault Refusal :=
  s.alu2 p d a b (· + ·)

/-- SUB: d := a − b (spec/11 R222). -/
def execSub (p : Pred) (d a b : SReg) (s : State) : Host.Outcome State Fault Refusal :=
  s.alu2 p d a b (· - ·)

/-- MUL: the low product (spec/11 R222). -/
def execMul (p : Pred) (d a b : SReg) (s : State) : Host.Outcome State Fault Refusal :=
  s.alu2 p d a b (· * ·)

/-- MULH: the signed high product (spec/11 R222). -/
def execMulh (p : Pred) (d a b : SReg) (s : State) : Host.Outcome State Fault Refusal :=
  s.alu2 p d a b mulHigh

/-- MULHU: the unsigned high product (spec/11 R222). -/
def execMulhu (p : Pred) (d a b : SReg) (s : State) : Host.Outcome State Fault Refusal :=
  s.alu2 p d a b mulHighU

/-- AND (spec/11 R222). -/
def execAnd (p : Pred) (d a b : SReg) (s : State) : Host.Outcome State Fault Refusal :=
  s.alu2 p d a b (· &&& ·)

/-- OR (spec/11 R222). -/
def execOr (p : Pred) (d a b : SReg) (s : State) : Host.Outcome State Fault Refusal :=
  s.alu2 p d a b (· ||| ·)

/-- XOR (spec/11 R222). -/
def execXor (p : Pred) (d a b : SReg) (s : State) : Host.Outcome State Fault Refusal :=
  s.alu2 p d a b (· ^^^ ·)

/-- ANDN: a AND NOT b (spec/11 R222). -/
def execAndn (p : Pred) (d a b : SReg) (s : State) : Host.Outcome State Fault Refusal :=
  s.alu2 p d a b (fun a b => a &&& ~~~b)

/-- SHL (spec/11 R222). -/
def execShl (p : Pred) (d a b : SReg) (s : State) : Host.Outcome State Fault Refusal :=
  s.alu2 p d a b (fun a b => a <<< shCount b)

/-- SHR (spec/11 R222). -/
def execShr (p : Pred) (d a b : SReg) (s : State) : Host.Outcome State Fault Refusal :=
  s.alu2 p d a b (fun a b => a >>> shCount b)

/-- SRA (spec/11 R222). -/
def execSra (p : Pred) (d a b : SReg) (s : State) : Host.Outcome State Fault Refusal :=
  s.alu2 p d a b (fun a b => a.sshiftRight (shCount b))

/-- ROL (spec/11 R222). -/
def execRol (p : Pred) (d a b : SReg) (s : State) : Host.Outcome State Fault Refusal :=
  s.alu2 p d a b (fun a b => a.rotateLeft (shCount b))

/-- MIN, signed (spec/11 R222). -/
def execMin (p : Pred) (d a b : SReg) (s : State) : Host.Outcome State Fault Refusal :=
  s.alu2 p d a b (fun a b => if a.slt b then a else b)

/-- MAX, signed (spec/11 R222). -/
def execMax (p : Pred) (d a b : SReg) (s : State) : Host.Outcome State Fault Refusal :=
  s.alu2 p d a b (fun a b => if a.slt b then b else a)

/-- MINU (spec/11 R222). -/
def execMinu (p : Pred) (d a b : SReg) (s : State) : Host.Outcome State Fault Refusal :=
  s.alu2 p d a b (fun a b => if a.ult b then a else b)

/-- MAXU (spec/11 R222). -/
def execMaxu (p : Pred) (d a b : SReg) (s : State) : Host.Outcome State Fault Refusal :=
  s.alu2 p d a b (fun a b => if a.ult b then b else a)

/-- DIV (spec/11 R223). -/
def execDiv (p : Pred) (d a b : SReg) (s : State) : Host.Outcome State Fault Refusal :=
  s.alu2 p d a b divS

/-- DIVU (spec/11 R223). -/
def execDivu (p : Pred) (d a b : SReg) (s : State) : Host.Outcome State Fault Refusal :=
  s.alu2 p d a b divU

/-- REM (spec/11 R223). -/
def execRem (p : Pred) (d a b : SReg) (s : State) : Host.Outcome State Fault Refusal :=
  s.alu2 p d a b remS

/-- REMU (spec/11 R223). -/
def execRemu (p : Pred) (d a b : SReg) (s : State) : Host.Outcome State Fault Refusal :=
  s.alu2 p d a b remU

/-- CLZ (spec/11 R222). -/
def execClz (p : Pred) (d a : SReg) (s : State) : Host.Outcome State Fault Refusal :=
  s.alu1 p d a leadingZeros

/-- POPC (spec/11 R222). -/
def execPopc (p : Pred) (d a : SReg) (s : State) : Host.Outcome State Fault Refusal :=
  s.alu1 p d a (fun a => BitVec.ofNat 64 (onesBelow a.toNat 64))

/-- BREV (spec/11 R222). -/
def execBrev (p : Pred) (d a : SReg) (s : State) : Host.Outcome State Fault Refusal :=
  s.alu1 p d a reverseBits

/-- SEL: the predicate stands in C (spec/11 R222). -/
def execSel (p : Pred) (d a b : SReg) (c : PReg) (s : State) : Host.Outcome State Fault Refusal :=
  s.alu2 p d a b (fun x y => if s.rdP c then x else y)

/-- CMP (spec/11 R224). -/
def execCmp (p : Pred) (cond : Cond) (d : PReg) (a b : SReg) (s : State) : Host.Outcome State Fault Refusal :=
  s.perform p [a, b] [] (.ok (s.wrP d (Cond.holdsOn cond (s.rdS a) (s.rdS b))))

/-- LEA: a + (b << sh) (spec/11 R225). -/
def execLea (p : Pred) (d a b : SReg) (sh : BitVec 3) (s : State) : Host.Outcome State Fault Refusal :=
  s.alu2 p d a b (fun x y => x + y <<< sh.toNat)

/-- BFX: TY I64 sign-extends, N64 zero-extends (spec/11 R225). -/
def execBfx (p : Pred) (ty : Ty) (d a : SReg) (len : BitVec 7) (pos : BitVec 6) (s : State) : Host.Outcome State Fault Refusal :=
  s.alu1 p d a (fun x => bitField (ty == .i64) x pos.toNat len.toNat)

/-- BFI (spec/11 R225). -/
def execBfi (p : Pred) (d a b : SReg) (len : BitVec 7) (pos : BitVec 6) (s : State) : Host.Outcome State Fault Refusal :=
  s.alu2 p d a b (fun x y => insertField x y pos.toNat len.toNat)

/-- SEXT (spec/11 R225). -/
def execSext (p : Pred) (ty : Ty) (d a : SReg) (s : State) : Host.Outcome State Fault Refusal :=
  s.alu1 p d a (fun x => signExt ty.width x.toNat)

/-- ZEXT (spec/11 R225). -/
def execZext (p : Pred) (ty : Ty) (d a : SReg) (s : State) : Host.Outcome State Fault Refusal :=
  s.alu1 p d a (fun x => zeroExt ty.width x.toNat)

/-- Whether a ring image entry is enabled for a partition: its EN and PART (spec/10 R217, spec/18 R364). -/
def State.imageOn (s : State) (e p : Nat) : Bool :=
  let x := lget 0 s.ring.images e
  x.getLsbD 0 && (x.extractLsb' 1 4).toNat == p

/-- The value of a special register (spec/10 R214 to R217). -/
def State.special (s : State) (sr : BitVec 6) (entry : BitVec 3) : Word :=
  match sr.toNat with
  | 0 => BitVec.ofNat 64 (s.cur.frame * 0x800)
  | 1 => s.cur.ip.setWidth 64
  | 2 => s.cur.col.setWidth 64
  | 3 => s.cur.wave.setWidth 64
  | 4 => s.cur.rtag.setWidth 64
  | 5 => s.cur.opsl.setWidth 64
  | 6 => BitVec.ofNat 64 (s.curTile % 32)
  | 7 => BitVec.ofNat 64 (s.curCore % 16)
  | 8 => BitVec.ofNat 64 s.curDie
  | 9 => s.fctl.setWidth 64
  | 10 => s.fstat.setWidth 64
  | 11 => (s.tile s.curTile).hmask.setWidth 64
  | 12 => BitVec.ofNat 64 (s.tile s.curTile).hbudget
  | 13 => if s.imageOn entry.toNat s.curPart then (lget 0 s.ring.lapn entry.toNat).setWidth 64 else 0
  | _ => s.cycOf s.curDie

/-- FCTL after a write: reserved bits stay zero, and a reserved mode leaves RM (spec/10 R215). -/
def fctlOf (old : BitVec 12) (v : Word) : BitVec 12 :=
  let rm := v.extractLsb' 0 3
  v.extractLsb' 8 4 ++ 0#5 ++ (if rm.toNat ≤ 4 then rm else old.extractLsb' 0 3)

/-- HBUDGET after a write: 0 is ignored, more than 8,192 writes 8,192 (spec/10 R217). -/
def hbudgetOf (old : Nat) (v : Word) : Nat :=
  let l := v.toNat % 2 ^ 14
  if l == 0 then old else Min.min l Config.maxBudget

/-- A write of a writable special register (spec/10 R215 to R218). -/
def State.setSpecial (s : State) (sr : BitVec 6) (v : Word) : State :=
  let t := s.tile s.curTile
  match sr.toNat with
  | 9 => s.setFctl (fctlOf s.fctl v)
  | 10 => s.setFstat (v.extractLsb' 0 5)
  | 11 => s.setTile s.curTile { t with hmask := v.extractLsb' 0 16 }
  | 12 => s.setTile s.curTile { t with hbudget := hbudgetOf t.hbudget v }
  | _ => s

/-- Special registers that MTS writes only with privilege (spec/10 R212). -/
def srPriv (sr : BitVec 6) : Bool := sr == 11 || sr == 12

/-- MFS (spec/10 R212, R214 to R217). -/
def execMfs (p : Pred) (d : SReg) (sr : BitVec 6) (entry : BitVec 3) (s : State) : Host.Outcome State Fault Refusal :=
  s.perform p [] [] (.ok (s.wrS d (s.special sr entry)))

/-- MTS: HMASK and HBUDGET are privileged, checked before the predicate (spec/09 R203, spec/10 R212). -/
def execMts (p : Pred) (sr : BitVec 6) (a : SReg) (s : State) : Host.Outcome State Fault Refusal :=
  if srPriv sr then s.performPriv p [a] (.ok (s.setSpecial sr (s.rdS a)))
  else s.perform p [a] [] (.ok (s.setSpecial sr (s.rdS a)))

/-- PAND (spec/11 R231). -/
def execPand (p : Pred) (ia ib : Bool) (d a b : PReg) (s : State) : Host.Outcome State Fault Refusal :=
  s.perform p [] [] (.ok (s.wrP d ((xor (s.rdP a) ia) && (xor (s.rdP b) ib))))

/-- POR (spec/11 R231). -/
def execPor (p : Pred) (ia ib : Bool) (d a b : PReg) (s : State) : Host.Outcome State Fault Refusal :=
  s.perform p [] [] (.ok (s.wrP d ((xor (s.rdP a) ia) || (xor (s.rdP b) ib))))

/-- PXOR (spec/11 R231). -/
def execPxor (p : Pred) (ia ib : Bool) (d a b : PReg) (s : State) : Host.Outcome State Fault Refusal :=
  s.perform p [] [] (.ok (s.wrP d (xor (xor (s.rdP a) ia) (xor (s.rdP b) ib))))

/-- PNOT (spec/11 R231). -/
def execPnot (p : Pred) (d a : PReg) (s : State) : Host.Outcome State Fault Refusal :=
  s.perform p [] [] (.ok (s.wrP d (!s.rdP a)))

/-- LI (spec/11 R232). -/
def execLi (p : Pred) (d : SReg) (imm : BitVec 32) (s : State) : Host.Outcome State Fault Refusal :=
  s.perform p [] [] (.ok (s.wrS d (ext imm)))

/-- LIH: imm << 32 OR a[31:0] (spec/11 R232). -/
def execLih (p : Pred) (d a : SReg) (imm : BitVec 32) (s : State) : Host.Outcome State Fault Refusal :=
  s.alu1 p d a (fun x => imm ++ x.extractLsb' 0 32)

/-- ADDI (spec/11 R232). -/
def execAddi (p : Pred) (d a : SReg) (imm : BitVec 32) (s : State) : Host.Outcome State Fault Refusal :=
  s.alu1 p d a (fun x => x + ext imm)

/-- ANDI (spec/11 R232). -/
def execAndi (p : Pred) (d a : SReg) (imm : BitVec 32) (s : State) : Host.Outcome State Fault Refusal :=
  s.alu1 p d a (fun x => x &&& ext imm)

/-- ORI (spec/11 R232). -/
def execOri (p : Pred) (d a : SReg) (imm : BitVec 32) (s : State) : Host.Outcome State Fault Refusal :=
  s.alu1 p d a (fun x => x ||| ext imm)

/-- XORI (spec/11 R232). -/
def execXori (p : Pred) (d a : SReg) (imm : BitVec 32) (s : State) : Host.Outcome State Fault Refusal :=
  s.alu1 p d a (fun x => x ^^^ ext imm)

/-- MULI (spec/11 R232). -/
def execMuli (p : Pred) (d a : SReg) (imm : BitVec 32) (s : State) : Host.Outcome State Fault Refusal :=
  s.alu1 p d a (fun x => x * ext imm)

/-- MINI (spec/11 R232). -/
def execMini (p : Pred) (d a : SReg) (imm : BitVec 32) (s : State) : Host.Outcome State Fault Refusal :=
  s.alu1 p d a (fun x => if x.slt (ext imm) then x else ext imm)

/-- MAXI (spec/11 R232). -/
def execMaxi (p : Pred) (d a : SReg) (imm : BitVec 32) (s : State) : Host.Outcome State Fault Refusal :=
  s.alu1 p d a (fun x => if x.slt (ext imm) then ext imm else x)

/-- SHLI (spec/11 R232). -/
def execShli (p : Pred) (d a : SReg) (n : BitVec 6) (s : State) : Host.Outcome State Fault Refusal :=
  s.alu1 p d a (fun x => x <<< n.toNat)

/-- SHRI (spec/11 R232). -/
def execShri (p : Pred) (d a : SReg) (n : BitVec 6) (s : State) : Host.Outcome State Fault Refusal :=
  s.alu1 p d a (fun x => x >>> n.toNat)

/-- SRAI (spec/11 R232). -/
def execSrai (p : Pred) (d a : SReg) (n : BitVec 6) (s : State) : Host.Outcome State Fault Refusal :=
  s.alu1 p d a (fun x => x.sshiftRight n.toNat)

/-- CMPI (spec/11 R224, R232). -/
def execCmpi (p : Pred) (cond : Cond) (d : PReg) (a : SReg) (imm : BitVec 32) (s : State) : Host.Outcome State Fault Refusal :=
  s.perform p [a] [] (.ok (s.wrP d (Cond.holdsOn cond (s.rdS a) (ext imm))))

/-- The lane value of VBCASTI: the immediate's low bits; I64 sign-extended and N64 zero-extended fill 64-bit lanes
(spec/11 R233). -/
def bcastValue (ty : Ty) (imm : BitVec 32) : Nat := if ty == .i64 then (ext imm).toNat else imm.toNat % 2 ^ ty.width

/-- VBCASTI (spec/11 R233). -/
def execVbcasti (p : Pred) (ty : Ty) (d : VReg) (imm : BitVec 32) (s : State) : Host.Outcome State Fault Refusal :=
  s.perform p [] [] (.ok (s.wrV d (ofLanes ty.width (List.replicate (512 / ty.width) (bcastValue ty imm)))))

/-- FLI: F64 takes the exact value of the F32 pattern (spec/11 R234). -/
def execFli (p : Pred) (ty : Ty) (d : SReg) (imm : BitVec 32) (s : State) : Host.Outcome State Fault Refusal :=
  s.perform p [] [] (.ok (s.wrS d (if ty == .f64 then BitVec.ofNat 64 (convert .f64 .f32 .rne .none imm.toNat).v else imm.setWidth 64)))

end Sys2Proof.Machine
end

