-- ==== Sys2Proof/Machine/ScalarFp.lean ====
section
/-!
DEFINITION. Machine/ScalarFp.lean: scalar floating point (spec/11 R226 to R230). Lane index 0 stands in the trap records.
-/

namespace Sys2Proof.Machine

/-- The pattern a scalar source holds for a type: F32 and 32-bit integers in bits [31:0] (spec/11 R226, R229). -/
def State.fpSrc (s : State) (ty : Ty) (a : SReg) : Nat := (s.rdS a).toNat % 2 ^ ty.width

/-- A scalar floating-point result, written zero-extended, with its flags (spec/11 R226, R230). -/
def State.fpPut (s : State) (d : SReg) (r : FRes) : Act :=
  s.fpDone [(0, r.fl)] (fun st => st.wrS d (BitVec.ofNat 64 r.v))

/-- FADD (spec/11 R227). -/
def execFadd (p : Pred) (ty : Ty) (d a b : SReg) (sm : Sat) (rnd : Rnd) (s : State) : Host.Outcome State Fault Refusal :=
  s.perform p [a, b] [] (s.fpPut d (fAdd (Fmt.ofTy ty) (s.rmode rnd) sm (s.fpSrc ty a) (s.fpSrc ty b)))

/-- FSUB (spec/11 R227). -/
def execFsub (p : Pred) (ty : Ty) (d a b : SReg) (sm : Sat) (rnd : Rnd) (s : State) : Host.Outcome State Fault Refusal :=
  s.perform p [a, b] [] (s.fpPut d (fSub (Fmt.ofTy ty) (s.rmode rnd) sm (s.fpSrc ty a) (s.fpSrc ty b)))

/-- FMUL (spec/11 R227). -/
def execFmul (p : Pred) (ty : Ty) (d a b : SReg) (sm : Sat) (rnd : Rnd) (s : State) : Host.Outcome State Fault Refusal :=
  s.perform p [a, b] [] (s.fpPut d (fMul (Fmt.ofTy ty) (s.rmode rnd) sm (s.fpSrc ty a) (s.fpSrc ty b)))

/-- FFMA: one rounding (spec/11 R227). -/
def execFfma (p : Pred) (ty : Ty) (d a b c : SReg) (sm : Sat) (rnd : Rnd) (s : State) : Host.Outcome State Fault Refusal :=
  s.perform p [a, b, c] []
    (s.fpPut d (fFma (Fmt.ofTy ty) (s.rmode rnd) sm (s.fpSrc ty a) (s.fpSrc ty b) (s.fpSrc ty c)))

/-- FMIN and FMAX set NV only and never trap (spec/11 R227, R230). -/
def State.fpMinMax (s : State) (max : Bool) (p : Pred) (ty : Ty) (d a b : SReg) : Host.Outcome State Fault Refusal :=
  let r := fMinMax (Fmt.ofTy ty) max (s.fpSrc ty a) (s.fpSrc ty b)
  s.perform p [a, b] [] (.ok ((s.addFlags r.fl).wrS d (BitVec.ofNat 64 r.v)))

/-- FMIN (spec/11 R227). -/
def execFmin (p : Pred) (ty : Ty) (d a b : SReg) (s : State) : Host.Outcome State Fault Refusal := s.fpMinMax false p ty d a b

/-- FMAX (spec/11 R227). -/
def execFmax (p : Pred) (ty : Ty) (d a b : SReg) (s : State) : Host.Outcome State Fault Refusal := s.fpMinMax true p ty d a b

/-- FCMP: NV only by a signalling NaN (spec/11 R228). -/
def execFcmp (p : Pred) (ty : Ty) (d : PReg) (a b : SReg) (cond : FCond) (s : State) : Host.Outcome State Fault Refusal :=
  let f := Fmt.ofTy ty
  s.perform p [a, b] []
    (.ok ((s.addFlags (sigFlag f (s.fpSrc ty a) (s.fpSrc ty b))).wrP d (fCmp f (FCond.toV cond) (s.fpSrc ty a) (s.fpSrc ty b))))

/-- FCVT: an I32 result is sign-extended (spec/11 R229). -/
def execFcvt (p : Pred) (ty : Ty) (d a : SReg) (src : Ty) (sm : Sat) (rnd : Rnd) (s : State) :
    Host.Outcome State Fault Refusal :=
  let r := convert ty src (s.rmode rnd) sm (s.fpSrc src a)
  s.perform p [a] [] (s.fpPut d (if ty == .i32 then { r with v := (signExt 32 r.v).toNat } else r))

end Sys2Proof.Machine
end

