-- ==== Sys2Proof/Machine/Vector.lean ====
section
/-!
DEFINITION. Machine/Vector.lean: lane arithmetic, bitwise operations, shifts, compares, selects and masks (spec/12 R247 to R251),
scaling and the functions (R253, R256), reductions, the dot product and the scan (R257 to R259).
-/

namespace Sys2Proof.Machine

/-- Lane i of a vector source. -/
def State.ln (s : State) (ty : Ty) (v : VSrc) (i : Nat) : Nat := lane ty.width (s.val v) i

/-- An instruction of the lane-wise mould (spec/12 R245). -/
def State.vmould (s : State) (p : Pred) (ty : Ty) (d : VDst) (srcs : List VSrc) (mk : Mask) (op : Nat → FRes) :
    Host.Outcome State Fault Refusal :=
  s.performV p [] srcs (oldOf d mk) (some d) (s.mould ty d srcs mk op)

/-- The lane operation of an arithmetic instruction: exact integers wrapped or clamped, or one rounding (spec/12 R247). -/
def laneArith (ty : Ty) (sm : Sat) (int : Int → Int → Int) (flt : Nat → Nat → FRes) (x y : Nat) : FRes :=
  if WF.isInt ty then ⟨intTo ty sm (int (tyInt ty x) (tyInt ty y)), 0⟩ else flt x y

/-- VADD (spec/12 R247). -/
def execVadd (p : Pred) (ty : Ty) (d : VDst) (a b : VSrc) (mk : Mask) (sm : Sat) (rnd : Rnd) (s : State) :
    Host.Outcome State Fault Refusal :=
  s.vmould p ty d [a, b] mk
    (fun i => laneArith ty sm (· + ·) (fAdd (Fmt.ofTy ty) (s.rmode rnd) sm) (s.ln ty a i) (s.ln ty b i))

/-- VSUB (spec/12 R247). -/
def execVsub (p : Pred) (ty : Ty) (d : VDst) (a b : VSrc) (mk : Mask) (sm : Sat) (rnd : Rnd) (s : State) :
    Host.Outcome State Fault Refusal :=
  s.vmould p ty d [a, b] mk
    (fun i => laneArith ty sm (· - ·) (fSub (Fmt.ofTy ty) (s.rmode rnd) sm) (s.ln ty a i) (s.ln ty b i))

/-- VMUL (spec/12 R247). -/
def execVmul (p : Pred) (ty : Ty) (d : VDst) (a b : VSrc) (mk : Mask) (sm : Sat) (rnd : Rnd) (s : State) :
    Host.Outcome State Fault Refusal :=
  s.vmould p ty d [a, b] mk
    (fun i => laneArith ty sm (· * ·) (fMul (Fmt.ofTy ty) (s.rmode rnd) sm) (s.ln ty a i) (s.ln ty b i))

/-- VFMA: one rounding (spec/12 R247). -/
def execVfma (p : Pred) (ty : Ty) (d : VDst) (a b c : VSrc) (mk : Mask) (sm : Sat) (rnd : Rnd) (s : State) :
    Host.Outcome State Fault Refusal :=
  s.vmould p ty d [a, b, c] mk
    (fun i => if WF.isInt ty then
        ⟨intTo ty sm (tyInt ty (s.ln ty a i) * tyInt ty (s.ln ty b i) + tyInt ty (s.ln ty c i)), 0⟩
      else fFma (Fmt.ofTy ty) (s.rmode rnd) sm (s.ln ty a i) (s.ln ty b i) (s.ln ty c i))

/-- The minimum or maximum of two lanes (spec/12 R247, spec/04 R88). -/
def laneMinMax (ty : Ty) (max : Bool) (x y : Nat) : FRes :=
  if WF.isInt ty then ⟨if decide (tyInt ty x < tyInt ty y) == max then y else x, 0⟩ else fMinMax (Fmt.ofTy ty) max x y

/-- A minimum or maximum: NV is set, and has no enable (spec/04 R90). -/
def State.vminmax (s : State) (max : Bool) (p : Pred) (ty : Ty) (d : VDst) (a b : VSrc) (mk : Mask) :
    Host.Outcome State Fault Refusal :=
  s.vmould p ty d [a, b] mk (fun i => laneMinMax ty max (s.ln ty a i) (s.ln ty b i))

/-- VMIN (spec/12 R247). -/
def execVmin (p : Pred) (ty : Ty) (d : VDst) (a b : VSrc) (mk : Mask) (s : State) : Host.Outcome State Fault Refusal :=
  s.vminmax false p ty d a b mk

/-- VMAX (spec/12 R247). -/
def execVmax (p : Pred) (ty : Ty) (d : VDst) (a b : VSrc) (mk : Mask) (s : State) : Host.Outcome State Fault Refusal :=
  s.vminmax true p ty d a b mk

/-- |a|: a float changes its sign bit only (spec/12 R248). -/
def laneAbs (ty : Ty) (sm : Sat) (x : Nat) : FRes :=
  if WF.isInt ty then ⟨intTo ty sm (tyInt ty x).natAbs, 0⟩ else ⟨x % 2 ^ (ty.width - 1), 0⟩

/-- −a (spec/12 R248). -/
def laneNeg (ty : Ty) (sm : Sat) (x : Nat) : FRes :=
  if WF.isInt ty then ⟨intTo ty sm (-tyInt ty x), 0⟩ else ⟨x ^^^ 2 ^ (ty.width - 1), 0⟩

/-- VABS (spec/12 R248). -/
def execVabs (p : Pred) (ty : Ty) (d : VDst) (a : VSrc) (mk : Mask) (sm : Sat) (_rnd : Rnd) (s : State) :
    Host.Outcome State Fault Refusal :=
  s.vmould p ty d [a] mk (fun i => laneAbs ty sm (s.ln ty a i))

/-- VNEG (spec/12 R248). -/
def execVneg (p : Pred) (ty : Ty) (d : VDst) (a : VSrc) (mk : Mask) (sm : Sat) (_rnd : Rnd) (s : State) :
    Host.Outcome State Fault Refusal :=
  s.vmould p ty d [a] mk (fun i => laneNeg ty sm (s.ln ty a i))

/-- VMULH: bits [2w − 1 : w] of the product (spec/12 R247). -/
def execVmulh (p : Pred) (ty : Ty) (d : VDst) (a b : VSrc) (mk : Mask) (s : State) : Host.Outcome State Fault Refusal :=
  s.vmould p ty d [a, b] mk
    (fun i => ⟨wrapTo ty.width (tyInt ty (s.ln ty a i) * tyInt ty (s.ln ty b i) / (2 ^ ty.width : Nat)), 0⟩)

/-- A bitwise or shift operation of two lanes. -/
def State.vbits (s : State) (p : Pred) (ty : Ty) (d : VDst) (a b : VSrc) (mk : Mask) (f : Nat → Nat → Nat) :
    Host.Outcome State Fault Refusal :=
  s.vmould p ty d [a, b] mk (fun i => ⟨f (s.ln ty a i) (s.ln ty b i), 0⟩)

/-- VAND (spec/12 R249). -/
def execVand (p : Pred) (ty : Ty) (d : VDst) (a b : VSrc) (mk : Mask) (s : State) : Host.Outcome State Fault Refusal :=
  s.vbits p ty d a b mk (· &&& ·)

/-- VOR (spec/12 R249). -/
def execVor (p : Pred) (ty : Ty) (d : VDst) (a b : VSrc) (mk : Mask) (s : State) : Host.Outcome State Fault Refusal :=
  s.vbits p ty d a b mk (· ||| ·)

/-- VXOR (spec/12 R249). -/
def execVxor (p : Pred) (ty : Ty) (d : VDst) (a b : VSrc) (mk : Mask) (s : State) : Host.Outcome State Fault Refusal :=
  s.vbits p ty d a b mk (· ^^^ ·)

/-- VSHL: a count of w or more gives zero (spec/12 R249). -/
def execVshl (p : Pred) (ty : Ty) (d : VDst) (a b : VSrc) (mk : Mask) (s : State) : Host.Outcome State Fault Refusal :=
  s.vbits p ty d a b mk (fun x n => if ty.width ≤ n then 0 else (x <<< n) % 2 ^ ty.width)

/-- VSHR (spec/12 R249). -/
def execVshr (p : Pred) (ty : Ty) (d : VDst) (a b : VSrc) (mk : Mask) (s : State) : Host.Outcome State Fault Refusal :=
  s.vbits p ty d a b mk (fun x n => if ty.width ≤ n then 0 else x >>> n)

/-- VSRA: shifts in copies of the sign bit, the top bit of the lane (spec/12 R249). -/
def execVsra (p : Pred) (ty : Ty) (d : VDst) (a b : VSrc) (mk : Mask) (s : State) : Host.Outcome State Fault Refusal :=
  s.vbits p ty d a b mk (fun x n =>
    let v : Int := if x.testBit (ty.width - 1) then (x : Int) - (2 ^ ty.width : Nat) else x
    wrapTo ty.width (v / (2 ^ Min.min n ty.width : Nat)))

/-- The condition of VCMP on two lanes: signedness by TY (spec/12 R250). -/
def laneCmp (ty : Ty) (c : VCond) (x y : Nat) : Bool :=
  if WF.isInt ty then
    let a := tyInt ty x
    let b := tyInt ty y
    match c with
    | .eq => a == b
    | .ne => a != b
    | .lt => decide (a < b)
    | .le => decide (a ≤ b)
    | .gt => decide (b < a)
    | .ge => decide (b ≤ a)
    | .un => false
  else fCmp (Fmt.ofTy ty) c x y

/-- A mask from one bit per lane; the bits above are clear (spec/10 R206). -/
def maskOf (l : List Bool) : Word :=
  BitVec.ofNat 64 (l.foldr (fun b acc => 2 * acc + (if b then 1 else 0)) 0)

/-- VCMP: an inactive lane's bit is 0 (spec/12 R250). -/
def execVcmp (p : Pred) (ty : Ty) (d : MReg) (a b : VSrc) (mk : Mask) (cond : VCond) (s : State) :
    Host.Outcome State Fault Refusal :=
  let ls := List.range ty.lanes
  let fl := ls.map (fun i =>
    (i, if s.active mk i && !WF.isInt ty then sigFlag (Fmt.ofTy ty) (s.ln ty a i) (s.ln ty b i) else 0))
  s.performV p [] [a, b] [] none (s.fpDone fl (fun st => (st.popAll [a, b]).wrM d
    (maskOf (ls.map (fun i => s.active mk i && laneCmp ty cond (s.ln ty a i) (s.ln ty b i))))))

/-- VSEL (spec/12 R251). -/
def execVsel (p : Pred) (ty : Ty) (d : VDst) (a b : VSrc) (c : MReg) (s : State) : Host.Outcome State Fault Refusal :=
  s.performV p [] [a, b] [] (some d) (.ok ((s.popAll [a, b]).put d
    (ofLanes ty.width ((List.range ty.lanes).map (fun i => if (s.rdM c).getLsbD i then s.ln ty a i else s.ln ty b i))) 0))

/-- The low n bits of a mask (spec/10 R206). -/
def maskLow (ty : Ty) (m : Word) : Word := BitVec.ofNat 64 (m.toNat % 2 ^ ty.lanes)

/-- MAND (spec/12 R251). -/
def execMand (p : Pred) (ty : Ty) (d a b : MReg) (s : State) : Host.Outcome State Fault Refusal :=
  s.perform p [] [] (.ok (s.wrM d (maskLow ty (s.rdM a &&& s.rdM b))))

/-- MOR (spec/12 R251). -/
def execMor (p : Pred) (ty : Ty) (d a b : MReg) (s : State) : Host.Outcome State Fault Refusal :=
  s.perform p [] [] (.ok (s.wrM d (maskLow ty (s.rdM a ||| s.rdM b))))

/-- MXOR (spec/12 R251). -/
def execMxor (p : Pred) (ty : Ty) (d a b : MReg) (s : State) : Host.Outcome State Fault Refusal :=
  s.perform p [] [] (.ok (s.wrM d (maskLow ty (s.rdM a ^^^ s.rdM b))))

/-- MNOT (spec/12 R251). -/
def execMnot (p : Pred) (ty : Ty) (d a : MReg) (s : State) : Host.Outcome State Fault Refusal :=
  s.perform p [] [] (.ok (s.wrM d (maskLow ty (~~~s.rdM a))))

/-- MCNT (spec/12 R251). -/
def execMcnt (p : Pred) (ty : Ty) (d : SReg) (a : MReg) (s : State) : Host.Outcome State Fault Refusal :=
  s.perform p [] [] (.ok (s.wrS d (BitVec.ofNat 64 (onesBelow (s.rdM a).toNat ty.lanes))))

/-- The scale of VSCALE: the beat's sideband, or s[B][15:0] (spec/12 R253). -/
def State.vscaleBy (s : State) (a : VSrc) (b : SReg) (side : Bool) : Nat :=
  if side then (s.peekScale ((VSrc.chan? a).getD 0)).toNat else ((s.rdS b).extractLsb' 0 16).toNat

/-- a × s with s in BF16, one rounding (spec/12 R253). -/
def scaleLane (f : Fmt) (rnd : Rnd) (sm : Sat) (x sc : Nat) : FRes :=
  let (y, fl) := (f.num x).mul (Fmt.bf16.num sc)
  (y.to f rnd sm).also fl

/-- VSCALE (spec/12 R253). -/
def execVscale (p : Pred) (ty : Ty) (d : VDst) (a : VSrc) (b : SReg) (mk : Mask) (side : Bool) (sm : Sat) (rnd : Rnd)
    (s : State) : Host.Outcome State Fault Refusal :=
  s.performV p [b] [a] (oldOf d mk) (some d)
    (s.mould ty d [a] mk (fun i => scaleLane (Fmt.ofTy ty) (s.rmode rnd) sm (s.ln ty a i) (s.vscaleBy a b side)))

/-- VRCP (spec/12 R256). -/
def execVrcp (p : Pred) (ty : Ty) (d : VDst) (a : VSrc) (mk : Mask) (sm : Sat) (s : State) : Host.Outcome State Fault Refusal :=
  s.vmould p ty d [a] mk (fun i => fRcp (Fmt.ofTy ty) sm (s.ln ty a i))

/-- VRSQ (spec/12 R256). -/
def execVrsq (p : Pred) (ty : Ty) (d : VDst) (a : VSrc) (mk : Mask) (sm : Sat) (s : State) : Host.Outcome State Fault Refusal :=
  s.vmould p ty d [a] mk (fun i => fRsq (Fmt.ofTy ty) sm (s.ln ty a i))

/-- VEXP2 (spec/12 R256). -/
def execVexp2 (p : Pred) (ty : Ty) (d : VDst) (a : VSrc) (mk : Mask) (sm : Sat) (s : State) : Host.Outcome State Fault Refusal :=
  s.vmould p ty d [a] mk (fun i => fExp2 (Fmt.ofTy ty) sm (s.ln ty a i))

/-- VLOG2 (spec/12 R256). -/
def execVlog2 (p : Pred) (ty : Ty) (d : VDst) (a : VSrc) (mk : Mask) (sm : Sat) (s : State) : Host.Outcome State Fault Refusal :=
  s.vmould p ty d [a] mk (fun i => fLog2 (Fmt.ofTy ty) sm (s.ln ty a i))

/-! Reductions: the pairwise tree of spec/04 R97. A node carries the lowest lane it stands for. -/

/-- One level of the tree: neighbours combine; a side without an active lane passes the other through (spec/12 R257). -/
def treeLevel {α : Type} (comb : α → α → α × Flags) : List (Nat × Option α) → List (Nat × Option α) × List (Nat × Flags)
  | (i, x) :: (_, y) :: rest =>
    let (l, f) := treeLevel comb rest
    match x, y with
    | some u, some v => let (z, fl) := comb u v; ((i, some z) :: l, (i, fl) :: f)
    | some u, none => ((i, some u) :: l, f)
    | none, v => ((i, v) :: l, f)
  | l => (l, [])

/-- Levels until one value is left. -/
def tree {α : Type} (comb : α → α → α × Flags) : (fuel : Nat) → List (Nat × Option α) → Option α × List (Nat × Flags)
  | 0, l => ((l.head?.map (·.2)).getD none, [])
  | n + 1, l =>
    let (l1, f) := treeLevel comb l
    let (v, g) := tree comb n l1
    (v, f ++ g)

/-- A sum rounded to F32, as an exact value again (spec/12 R257). -/
def sumF32 (rnd : Rnd) (sm : Sat) (x y : Num) : Num × Flags :=
  let (z, fl) := x.add rnd y
  let r := (z.to .f32 rnd sm).also fl
  (Fmt.f32.num r.v, r.fl)

/-- The 32-bit type of an integer reduction (spec/12 R257). -/
def redTy (ty : Ty) : Ty := if ty.signed then .i32 else .n32

/-- The float sum of some lanes, each an F32 value; one that meets no other stays as it is (spec/12 R257). -/
def sumFloats (rnd : Rnd) (sm : Sat) (l : List (Nat × Option Nat)) : Nat × List (Nat × Flags) :=
  let (v, f) := tree (fun x y => let r := fAdd .f32 rnd sm x y; (r.v, r.fl)) 6 l
  (v.getD 0, f)

/-- The float sum of some lanes' exact products; a product that meets no other is rounded at the end (spec/12 R258). -/
def sumLanes (rnd : Rnd) (sm : Sat) (l : List (Nat × Option Num)) : Nat × List (Nat × Flags) :=
  match tree (sumF32 rnd sm) 6 l with
  | (none, f) => (0, f)
  | (some v, f) =>
    let r := v.to .f32 rnd sm
    (r.v, f ++ [(((l.find? (fun x => x.2.isSome)).map (·.1)).getD 0, r.fl)])

/-- The integer sum of some lanes (spec/12 R257). -/
def sumInts (ty : Ty) (sm : Sat) (l : List (Nat × Option Int)) : Nat :=
  let t := redTy ty
  match (tree (fun x y => (tyInt t (intTo t sm (x + y)), 0)) 6 l).1 with
  | none => 0
  | some v => intTo t sm v

/-- A reduction's result in lane 0, the rest zero (spec/12 R257). -/
def lane0 (v : Nat) : Vec := BitVec.ofNat 512 v

/-- VSUM (spec/12 R257). A signalling lane of FP16 or BF16 sets no NV: it is widened before the sum, and widening sets no flag (spec/04 R91;
against R88 this is DESIGN CHOICE, log entry 88). -/
def execVsum (p : Pred) (ty : Ty) (d : VDst) (a : VSrc) (mk : Mask) (sm : Sat) (rnd : Rnd) (s : State) :
    Host.Outcome State Fault Refusal :=
  let ls := List.range ty.lanes
  if WF.isInt ty then
    s.performV p [] [a] [] (some d) (.ok ((s.popAll [a]).put d (lane0 (sumInts ty sm
      (ls.map (fun i => (i, if s.active mk i then some (tyInt ty (s.ln ty a i)) else none))))) 0))
  else
    let wide := fun x => if ty == .f32 then x else (convert .f32 ty .rne .none x).v
    let r := sumFloats (s.rmode rnd) sm (ls.map (fun i => (i, if s.active mk i then some (wide (s.ln ty a i)) else none)))
    s.performV p [] [a] [] (some d) (s.fpDone r.2 (fun st => (st.popAll [a]).put d (lane0 r.1) 0))

/-- What VRMAX and VRMIN give with no active lane (spec/12 R257). -/
def noLane (ty : Ty) (max : Bool) : Nat :=
  if WF.isInt ty then wrapTo ty.width (if max then tyLo ty else tyHi ty) else (Fmt.ofTy ty).nan

/-- A maximum or minimum over the lanes. -/
def State.vrmm (s : State) (max : Bool) (p : Pred) (ty : Ty) (d : VDst) (a : VSrc) (mk : Mask) :
    Host.Outcome State Fault Refusal :=
  let r := tree (fun x y => let z := laneMinMax ty max x y; (z.v, z.fl)) 6
    ((List.range ty.lanes).map (fun i => (i, if s.active mk i then some (s.ln ty a i) else none)))
  s.performV p [] [a] [] (some d) (s.fpDone r.2 (fun st => (st.popAll [a]).put d (lane0 (r.1.getD (noLane ty max))) 0))

/-- VRMAX (spec/12 R257). -/
def execVrmax (p : Pred) (ty : Ty) (d : VDst) (a : VSrc) (mk : Mask) (s : State) : Host.Outcome State Fault Refusal :=
  s.vrmm true p ty d a mk

/-- VRMIN (spec/12 R257). -/
def execVrmin (p : Pred) (ty : Ty) (d : VDst) (a : VSrc) (mk : Mask) (s : State) : Host.Outcome State Fault Refusal :=
  s.vrmm false p ty d a mk

/-- VDOT: exact products, the first level rounds the sum of two once (spec/12 R258). A float product's NV counts at its own
lane. -/
def execVdot (p : Pred) (ty : Ty) (d : VDst) (a b : VSrc) (mk : Mask) (sm : Sat) (rnd : Rnd) (s : State) :
    Host.Outcome State Fault Refusal :=
  let ls := List.range ty.lanes
  if WF.isInt ty then
    let t := redTy ty
    s.performV p [] [a, b] [] (some d) (.ok ((s.popAll [a, b]).put d (lane0 (sumInts ty sm
      (ls.map (fun i => (i, if s.active mk i then
        some (tyInt t (intTo t sm (tyInt ty (s.ln ty a i) * tyInt ty (s.ln ty b i)))) else none))))) 0))
  else
    let f := Fmt.ofTy ty
    let ps := ls.map (fun i => (i, if s.active mk i then some ((f.num (s.ln ty a i)).mul (f.num (s.ln ty b i))) else none))
    let r := sumLanes (s.rmode rnd) sm (ps.map (fun x => (x.1, x.2.map (·.1))))
    let fl := ps.map (fun x => (x.1, (x.2.map (·.2)).getD 0))
    s.performV p [] [a, b] [] (some d) (s.fpDone (fl ++ r.2) (fun st => (st.popAll [a, b]).put d (lane0 r.1) 0))

/-- The running sums of VSCAN from lane i upward (spec/12 R259). -/
def scanFrom (add : Nat → Nat → FRes) : (acc : Nat) → List (Nat × Nat) → List Nat × List (Nat × Flags)
  | _, [] => ([], [])
  | acc, (i, x) :: l =>
    let r := add acc x
    let (vs, fs) := scanFrom add r.v l
    (r.v :: vs, (i, r.fl) :: fs)

/-- VSCAN (spec/12 R259). -/
def execVscan (p : Pred) (ty : Ty) (d : VDst) (a : VSrc) (excl : Bool) (sm : Sat) (rnd : Rnd) (s : State) :
    Host.Outcome State Fault Refusal :=
  let add := laneArith ty sm (· + ·) (fAdd (Fmt.ofTy ty) (s.rmode rnd) sm)
  let first := if excl then 0 else s.ln ty a 0
  let rest := (List.range (ty.lanes - 1)).map (fun i => (i + 1, s.ln ty a (if excl then i else i + 1)))
  let r := scanFrom add first rest
  s.performV p [] [a] [] (some d) (s.fpDone r.2 (fun st => (st.popAll [a]).put d (ofLanes ty.width (first :: r.1)) 0))

end Sys2Proof.Machine
end

