-- ==== Sys2Proof/Machine/VectorMove.lean ====
section
/-!
DEFINITION. Machine/VectorMove.lean: conversion, quantisation and codebook decode (spec/12 R252, R254, R255), the top-k units
(R260 to R263) and data movement (R264).
-/

namespace Sys2Proof.Machine

/-- VCVT: widening reads part PART of a, narrowing writes part PART of d and leaves its other lanes inactive (spec/12 R252). -/
def execVcvt (p : Pred) (ty : Ty) (d : VDst) (a : VSrc) (mk : Mask) (part : BitVec 2) (src : Ty) (sm : Sat) (rnd : Rnd)
    (s : State) : Host.Outcome State Fault Refusal :=
  let narrow := decide (ty.width < src.width)
  let n := if narrow then src.lanes else ty.lanes
  let w := ty.width
  let conv := fun i => convert ty src (s.rmode rnd) sm (lane src.width (s.val a) i)
  let out := (List.range ty.lanes).map (fun j =>
    if narrow then
      if part.toNat * n ≤ j && j < (part.toNat + 1) * n && s.active mk (j - part.toNat * n) then
        (j - part.toNat * n, conv (j - part.toNat * n))
      else (j, ⟨s.inactive d mk w j, 0⟩)
    else if s.active mk j then (j, conv (part.toNat * n + j)) else (j, ⟨s.inactive d mk w j, 0⟩))
  let old := match d with
    | .reg r => if (mk.men || narrow) && !mk.mz then [r] else []
    | .chan _ => []
  s.performV p [] [a] old (some d) (s.fpDone (out.map (fun x => (x.1, x.2.fl)))
    (fun st => (st.popAll [a]).put d (ofLanes w (out.map (fun x => x.2.v))) 0))

/-- The 64 F32 values of VQNT: v[A] to v[A + 3] (spec/12 R254). -/
def State.quantSrc (s : State) (a : VReg) : List Num :=
  (List.range 64).map (fun k => Fmt.f32.num (lane 32 (s.rdV (a + BitVec.ofNat 5 (k / 16))) (k % 16)))

/-- VQNT: the values, and the scale 2^e as BF16 in s[B] and in the sideband of an appended beat (spec/12 R254, spec/04 R94). -/
def execVqnt (p : Pred) (d : VDst) (a : VReg) (b : SReg) (sm : Sat) (rnd : Rnd) (s : State) :
    Host.Outcome State Fault Refusal :=
  let xs := s.quantSrc a
  let e := quantE xs
  let q := xs.map (quantLane (s.rmode rnd) sm e)
  let sc : BitVec 16 := BitVec.ofNat 16 ((e + 127).toNat * 128)
  s.performV p [] [.reg a, .reg (a + 1), .reg (a + 2), .reg (a + 3)] [] (some d)
    (s.fpDone ((List.range 64).zip (q.map (·.fl)))
      (fun st => (st.put d (ofLanes 8 (q.map (·.v))) sc).wrS b (sc.setWidth 64)))

/-- VCBD: 32 weights of four indices as BF16 (spec/12 R255, spec/04 R92). -/
def execVcbd (p : Pred) (d : VDst) (a : VSrc) (part : BitVec 3) (s : State) : Host.Outcome State Fault Refusal :=
  let w := fun k =>
    let x := BitVec.ofNat 16 (lane 16 (s.val a) (4 * part.toNat + k / 8))
    ((cb2 (lget 0 (s.region s.curRegion).codebook (x.toNat / 256)) x (k % 8)).to .bf16 .rne .none).v
  s.performV p [] [a] [] (some d) (.ok ((s.popAll [a]).put d (ofLanes 16 ((List.range 32).map w)) 0))

/-! The top-k units (spec/12 R260 to R263). -/

/-- The order key of an F32 pattern that is no NaN: −0 ranks below +0 (spec/12 R262). -/
def f32Key (v : BitVec 32) : Int := if v.getLsbD 31 then -((v.toNat - 2 ^ 31 : Nat) : Int) - 1 else v.toNat

/-- x ranks before y (spec/12 R262). -/
def ranksBefore (x y : BitVec 32 × BitVec 32) : Bool :=
  decide (f32Key y.1 < f32Key x.1) || (x.1 == y.1 && x.2.ult y.2)

/-- Inserts by rank, behind entries that it does not rank before. -/
def rankInsert (e : BitVec 32 × BitVec 32) : List (BitVec 32 × BitVec 32) → List (BitVec 32 × BitVec 32)
  | [] => [e]
  | x :: l => if ranksBefore e x then e :: x :: l else x :: rankInsert e l

/-- One lane of a feed (spec/12 R262). -/
def topkFeed (k : Nat) (l : List (BitVec 32 × BitVec 32)) (e : BitVec 32 × BitVec 32) : List (BitVec 32 × BitVec 32) :=
  if l.length < k then rankInsert e l
  else
    match l.getLast? with
    | some x => if ranksBefore e x then rankInsert e l.dropLast else l
    | none => l

namespace State

def topkOf (s : State) (u : BitVec 2) : TopK := lget {} (s.tile s.curTile).topk u.toNat
def setTopk (s : State) (u : BitVec 2) (x : TopK) : State :=
  s.setTile s.curTile { s.tile s.curTile with topk := lset (s.tile s.curTile).topk u.toNat x }

/-- The owner tag of the activation (spec/12 R262). -/
def ownTag (s : State) : Owner :=
  { valid := true, slot := s.cur.opsl, col := s.cur.col, wave := s.cur.wave, rtag := s.cur.rtag }

/-- Whether a top-k unit is the activation's (spec/12 R263). -/
def topkMine (s : State) (u : BitVec 2) : Bool :=
  let o := (s.topkOf u).owner
  o.valid && o.slot == s.cur.opsl && o.col == s.cur.col

/-- Whether a reset may take the unit (spec/12 R263). -/
def topkFree (s : State) (u : BitVec 2) : Bool :=
  let o := (s.topkOf u).owner
  !o.valid || s.topkMine u || s.waveGone s.curRegion o.col o.wave

/-- A drain: entry 16 × page + i in lane i, a filler beyond the entries (spec/12 R262). -/
def topkDrain (s : State) (p : Pred) (d : VDst) (page u : BitVec 2) (filler : Nat) (pick : BitVec 32 × BitVec 32 → BitVec 32) :
    Host.Outcome State Fault Refusal :=
  let es := (s.topkOf u).entries
  s.performV p [] [] [] (some d) (if s.topkMine u then
      .ok (s.put d (ofLanes 32 ((List.range 16).map (fun i => ((es[16 * page.toNat + i]?).map (fun e => (pick e).toNat)).getD filler))) 0)
    else .trap (s.faultOf Cause.slot))

end State

/-- VTOPK reset (spec/12 R262, R263). -/
def execVtopkReset (p : Pred) (k1 : BitVec 6) (unit : BitVec 2) (s : State) : Host.Outcome State Fault Refusal :=
  s.perform p [] [] (if s.topkFree unit then .ok (s.setTopk unit { entries := [], k := k1.toNat + 1, owner := s.ownTag })
    else .trap (s.faultOf Cause.slot))

/-- VTOPK feed: a NaN sets NV and is not fed (spec/12 R262). -/
def execVtopkFeed (p : Pred) (a b : VSrc) (unit : BitVec 2) (s : State) : Host.Outcome State Fault Refusal :=
  let ps := (List.range 16).map (fun i => (BitVec.ofNat 32 (lane 32 (s.val a) i), BitVec.ofNat 32 (lane 32 (s.val b) i)))
  let isN := fun (v : BitVec 32 × BitVec 32) => (Fmt.f32.num v.1.toNat).isNan
  let u := s.topkOf unit
  s.performV p [] [a, b] [] none (if s.topkMine unit then
      .ok (((s.addFlags (if ps.any isN then flNV else 0)).popAll [a, b]).setTopk unit
        { u with entries := (ps.filter (fun v => !isN v)).foldl (topkFeed u.k) u.entries })
    else .trap (s.faultOf Cause.slot))

/-- VTOPK drain of values (spec/12 R262). -/
def execVtopkDrainv (p : Pred) (d : VDst) (page unit : BitVec 2) (s : State) : Host.Outcome State Fault Refusal :=
  s.topkDrain p d page unit 0xFF800000 (·.1)

/-- VTOPK drain of indices (spec/12 R262). -/
def execVtopkDraini (p : Pred) (d : VDst) (page unit : BitVec 2) (s : State) : Host.Outcome State Fault Refusal :=
  s.topkDrain p d page unit 0xFFFFFFFF (·.2)

/-! Data movement (spec/12 R264). -/

/-- A movement of lanes: lane i of the result. -/
def State.vmove (s : State) (p : Pred) (ty : Ty) (d : VDst) (rs : List SReg) (srcs : List VSrc) (f : Nat → Nat) :
    Host.Outcome State Fault Refusal :=
  s.performV p rs srcs [] (some d) (.ok ((s.popAll srcs).put d (ofLanes ty.width ((List.range ty.lanes).map f)) 0))

/-- VPERM (spec/12 R264). -/
def execVperm (p : Pred) (ty : Ty) (d : VDst) (a b : VSrc) (s : State) : Host.Outcome State Fault Refusal :=
  s.vmove p ty d [] [a, b] (fun i => if s.ln ty b i < ty.lanes then s.ln ty a (s.ln ty b i) else 0)

/-- VBCAST (spec/12 R264). -/
def execVbcast (p : Pred) (ty : Ty) (d : VDst) (a : VSrc) (j : BitVec 6) (s : State) : Host.Outcome State Fault Refusal :=
  s.vmove p ty d [] [a] (fun _ => s.ln ty a j.toNat)

/-- VSPLAT (spec/12 R264). -/
def execVsplat (p : Pred) (ty : Ty) (d : VDst) (a : SReg) (s : State) : Host.Outcome State Fault Refusal :=
  s.vmove p ty d [a] [] (fun _ => (s.rdS a).toNat % 2 ^ ty.width)

/-- VINS (spec/12 R264). -/
def execVins (p : Pred) (ty : Ty) (d : VReg) (a : SReg) (j : BitVec 6) (s : State) : Host.Outcome State Fault Refusal :=
  s.perform p [a] [d] (.ok (s.wrV d (ofLanes ty.width ((List.range ty.lanes).map
    (fun i => if i == j.toNat then (s.rdS a).toNat else lane ty.width (s.rdV d) i)))))

/-- VEXT: sign-extended for I types (spec/12 R264). -/
def execVext (p : Pred) (ty : Ty) (d : SReg) (a : VSrc) (j : BitVec 6) (s : State) : Host.Outcome State Fault Refusal :=
  let x := s.ln ty a j.toNat
  s.performV p [] [a] [] none (.ok ((s.popAll [a]).wrS d (if ty.signed then signExt ty.width x else zeroExt ty.width x)))

/-- VZIP (spec/12 R264). -/
def execVzip (p : Pred) (ty : Ty) (d : VDst) (a b : VSrc) (hi : Bool) (s : State) : Host.Outcome State Fault Refusal :=
  let h := if hi then ty.lanes / 2 else 0
  s.vmove p ty d [] [a, b] (fun i => if i % 2 == 0 then s.ln ty a (i / 2 + h) else s.ln ty b (i / 2 + h))

/-- VUNZIP (spec/12 R264). -/
def execVunzip (p : Pred) (ty : Ty) (d : VDst) (a b : VSrc) (hi : Bool) (s : State) : Host.Outcome State Fault Refusal :=
  let o := if hi then 1 else 0
  let n := ty.lanes / 2
  s.vmove p ty d [] [a, b] (fun i => if i < n then s.ln ty a (2 * i + o) else s.ln ty b (2 * (i - n) + o))

/-- The lanes whose mask bit is set, in order. -/
def State.maskLanes (s : State) (ty : Ty) (c : MReg) : List Nat := (List.range ty.lanes).filter (fun i => (s.rdM c).getLsbD i)

/-- VCOMP (spec/12 R264). -/
def execVcomp (p : Pred) (ty : Ty) (d : VDst) (a : VSrc) (c : MReg) (s : State) : Host.Outcome State Fault Refusal :=
  let ls := s.maskLanes ty c
  s.vmove p ty d [] [a] (fun i => match ls[i]? with
    | some j => s.ln ty a j
    | none => 0)

/-- VEXPD (spec/12 R264). -/
def execVexpd (p : Pred) (ty : Ty) (d : VDst) (a : VSrc) (c : MReg) (s : State) : Host.Outcome State Fault Refusal :=
  let ls := s.maskLanes ty c
  s.vmove p ty d [] [a] (fun i => match firstIdx (· == i) ls with
    | some k => s.ln ty a k
    | none => 0)

/-- VIOTA (spec/12 R264). -/
def execViota (p : Pred) (ty : Ty) (d : VDst) (a : SReg) (s : State) : Host.Outcome State Fault Refusal :=
  s.vmove p ty d [a] [] (fun i => ((s.rdS a).toNat + i) % 2 ^ ty.width)

/-- VMOV (spec/12 R264). -/
def execVmov (p : Pred) (ty : Ty) (d : VDst) (a : VSrc) (mk : Mask) (s : State) : Host.Outcome State Fault Refusal :=
  s.vmould p ty d [a] mk (fun i => ⟨s.ln ty a i, 0⟩)

end Sys2Proof.Machine
end

