-- ==== Sys2Proof/Machine/Control.lean ====
section
/-!
DEFINITION. Machine/Control.lean: the control instructions (spec/11 R235 to R240), waiting and barriers (spec/20 R393 to R396), the
budget trap (spec/02 R53) and the dictionary code (spec/09 R182, R183).
-/

namespace Sys2Proof.Machine

/-- BR (spec/11 R235). -/
def execBr (p : Pred) (imm : BitVec 32) (s : State) : Host.Outcome State Fault Refusal :=
  s.perform p [] [] (.jump s (s.cur.ip + imm))

/-- BRR (spec/11 R235). -/
def execBrr (p : Pred) (a : SReg) (imm : BitVec 32) (s : State) : Host.Outcome State Fault Refusal :=
  s.perform p [a] [] (.jump s ((s.rdS a + ext imm).extractLsb' 0 32))

/-- Address of the next instruction. -/
def State.nextIp (s : State) : BitVec 32 := s.cur.ip + BitVec.ofNat 32 s.cur.len

/-- CALL (spec/11 R235). -/
def execCall (p : Pred) (d : SReg) (imm : BitVec 32) (s : State) : Host.Outcome State Fault Refusal :=
  s.perform p [] [] (.jump (s.wrS d (s.nextIp.setWidth 64)) (s.cur.ip + imm))

/-- RET (spec/11 R235). -/
def execRet (p : Pred) (a : SReg) (s : State) : Host.Outcome State Fault Refusal :=
  s.perform p [a] [] (.jump s ((s.rdS a).extractLsb' 0 32))

/-- LOOP: the branch is taken while a − 1 is not zero (spec/11 R235). -/
def execLoop (p : Pred) (d a : SReg) (imm : BitVec 32) (s : State) : Host.Outcome State Fault Refusal :=
  s.perform p [a] [] (.jump (s.wrS d (s.rdS a - 1)) (if s.rdS a - 1 = 0 then s.nextIp else s.cur.ip + imm))

namespace State

/-- The open records of the activation, in the order opened. -/
def openRecs (s : State) : List OpenRec := (s.tile s.curTile).pool.filter (fun o => o.aid == s.cur.aid)

/-- A frame with no present slot, or whose slots belong to a retired wave and fire nothing, returns to the free list; it stays otherwise
(spec/02 R50). -/
def leaveFrame (s : State) (k : Nat) : State :=
  let f := s.frame k
  if f.present = 0 then s.setFrame k { gen := f.gen }
  else
    let s1 := (s.setFrame k { f with cont := .none, wait := .nothing, aid := 0, waitOver := false, lates := [], used := s.now }).tryFire k
    if (s1.frame k).cont = .none && s.waveGone s.curRegion f.col f.wave then s1.setFrame k { gen := f.gen }
    else s1.pinFrame s.curRegion k

/-- The end of an activation whose open records have left: the frame returns to the free list if nothing is left in it; the context is
free, once every load of the activation has completed (spec/11 R236, spec/02 R50). -/
def endNow (s : State) : State :=
  let s1 := s.leaveFrame s.curFrameKey
  if s.oldCount s.cur.aid == 0 then s1.setCtx s.focus {}
  else s1.setCur { s.cur with ended := true, held := false, issued := s.cur.issued + 1 }

/-- Whether a wave control record that the activation has sent is still to be applied (spec/26 R447). -/
def sendsCtl (s : State) : Bool := s.transit.any (fun x => x.sender == s.cur.aid && s.cur.aid != 0)

end State

/-- ENDH: open records leave, and hold it while one of them is a wave control record still to be applied; then the activation ends (spec/11
R236, spec/17 R332, spec/26 R447). -/
def execEndh (p : Pred) (s : State) : Host.Outcome State Fault Refusal :=
  let s1 := s.openRecs.foldl State.sendOpen s
  s.perform p [] [] (if s1.sendsCtl then .hold s1 false else .done s1.endNow)

/-- PARK: runnable again at once, after the PARK (spec/11 R237). -/
def execPark (p : Pred) (s : State) : Host.Outcome State Fault Refusal :=
  s.perform p [] [] (.park s 3 .nothing true)

/-- TRAP: SWTRAP, with n in ARG (spec/11 R238). -/
def execTrap (p : Pred) (n : BitVec 16) (s : State) : Host.Outcome State Fault Refusal :=
  s.perform p [] [] (.trap { s.faultOf Cause.swtrap with arg := n })

/-- TRET, in trap-operator mode only; a handle that names no trapped continuation of the region, or one of a wave that is poisoned at any
operator, traps CFG (spec/11 R239, R240, spec/21 R419). -/
def execTret (p : Pred) (a : SReg) (skip : Bool) (s : State) : Host.Outcome State Fault Refusal :=
  if s.trapMode then
    s.perform p [a] []
      (match s.trappedFrame s.curRegion (s.rdS a) with
       | none => .trap (s.faultOf Cause.cfg)
       | some k =>
         if s.waveMarked s.curRegion (s.frame k).col (s.frame k).wave then .trap (s.faultOf Cause.cfg)
         else .ok (s.resumeTrapped k skip))
  else .next (s.takeTrap (s.faultOf Cause.priv))

/-- What a held instruction keeps until it ends. -/
def State.keep (s : State) (n : Nat) : State := s.setCur { s.cur with kept := some n }

/-- WAITC decides once whether it completes or parks, and holds meanwhile for the loads it waits for; once its wait has been met, the one
that parked completes on resume (spec/20 R393). -/
def execWaitc (p : Pred) (tok : BitVec 8) (tom : BitVec 4) (stm ldm : BitVec 6) (s : State) :
    Host.Outcome State Fault Refusal :=
  let other := s.ostCount s.cur.aid ≤ stm.toNat && s.otoCount s.cur.aid ≤ tom.toNat &&
    (List.range 8).all (fun i => !tok.getLsbD i || s.tokenOf s.curTile i != 1)
  let completes := if s.oldCount s.cur.aid ≤ ldm.toNat then Act.ok s else .hold (s.keep 1) false
  let parks := if s.oldCount s.cur.aid == 0 then Act.park s 1 (.counts tok.toNat tom.toNat stm.toNat) false else .hold (s.keep 2) false
  s.perform p [] []
    (if s.cur.waitOver then .ok s
     else match s.cur.kept with
       | some 1 => completes
       | some _ => parks
       | none => if other then completes else parks)

namespace State

/-- Returns the continuations filed with a barrier to their ready sets (spec/02 R54); each resumes at its BARW without a
second arrival (spec/20 R396). -/
def unfile (s : State) (c b : Nat) : State :=
  { s with frames := s.frames.map (fun (k, f) =>
      if k / 4096 == c && f.cont = .parked && f.wait = .barrier b then
        (k, if f.lateMark then { f with wait := .nothing, waitOver := true }
            else { f with cont := .runnable, wait := .nothing, waitOver := true, readyAt := s.clkOf (k / 4096), promoted := none })
      else (k, f)) }

/-- One arrival at a barrier: the state, and whether it completes the phase (spec/20 R395, spec/19 R385). -/
def arriveAt (s : State) (c b : Nat) : State × Bool :=
  let x := s.barrier c b
  if x.arr + 1 == x.exp then ((s.setBarrier c b { x with arr := 0, phase := x.phase + 1 }).unfile c b, true)
  else (s.setBarrier c b { x with arr := x.arr + 1 }, false)

end State

/-- BARW (spec/20 R395, R396). -/
def execBarw (p : Pred) (bar : BitVec 5) (s : State) : Host.Outcome State Fault Refusal :=
  s.perform p [] []
    (if s.cur.waitOver then .ok s
     else if (s.barrier s.curCore bar.toNat).exp == 0 then .trap (s.faultOf Cause.cfg)
     else if !(s.pendingOf s.cur.aid).isEmpty then .hold s false
     else
       let r := s.arriveAt s.curCore bar.toNat
       if r.2 then .ok r.1 else .park r.1 2 (.barrier bar.toNat) false)

/-- BARA: s[D] takes the phase before this arrival (spec/20 R395). -/
def execBara (p : Pred) (d : SReg) (bar : BitVec 5) (s : State) : Host.Outcome State Fault Refusal :=
  s.perform p [] []
    (if (s.barrier s.curCore bar.toNat).exp == 0 then .trap (s.faultOf Cause.cfg)
     else if !(s.pendingOf s.cur.aid).isEmpty then .hold s false
     else .ok ((s.wrS d ((s.barrier s.curCore bar.toNat).phase.setWidth 64)).arriveAt s.curCore bar.toNat).1)

/-- BARINIT: PHASE and filed continuations stay (spec/20 R394). -/
def execBarinit (p : Pred) (exp : BitVec 12) (bar : BitVec 5) (s : State) : Host.Outcome State Fault Refusal :=
  s.perform p [] []
    (.ok (s.setBarrier s.curCore bar.toNat { s.barrier s.curCore bar.toNat with exp := exp.toNat, arr := 0 }))

/-- BUDGET: the instruction that would be issue number HBUDGET + 1 does not issue (spec/02 R53). -/
def execBudget (s : State) : Host.Outcome State Fault Refusal := .next (s.takeTrap (s.faultOf Cause.budget))

/-- The instruction that a context is about to perform: its word, its length in parcels, its dictionary index. -/
def State.latch (s : State) (w : Word) (len : Nat) (dindex : BitVec 16) : State :=
  s.setCur { s.cur with word := w, len := len, dindex := dindex }

/-- A dictionary code: the word it names is taken for the instruction at the code's own address, of length 1; the step
performs that word (spec/09 R183). An index beyond the loaded dictionary traps DICT (R182); it names no word. -/
def execDictionaryCode (i : BitVec 10) (s : State) : Host.Outcome State Fault Refusal :=
  let t := s.tile s.curTile
  if t.dictSize ≤ i.toNat then
    let s1 := s.latch 0 1 (i.setWidth 16)
    .next (s1.takeTrap (s1.faultOf Cause.dict))
  else .next (s.latch (lget 0 t.dict i.toNat) 1 (i.setWidth 16))

end Sys2Proof.Machine
end

