-- ==== Sys2Proof/Machine/Clock.lean ====
section
/-!
DEFINITION. Machine/Clock.lean: what every step adds to the counts of time, which context issues next (spec/06 R132), the fetch
(spec/09 R181), and the list of events that the hardware may be ready to make. One step stands for one nominal clk (log entry 1).
-/

namespace Sys2Proof.Machine

namespace State

/-- Whether an A-row record finds an island with a fill pointer of its colour (spec/13 R276). -/
def hasFill (s : State) (r n : Nat) (c : BitVec 5) : Bool :=
  let x := s.region r
  let e := s.opEntry r n
  (List.range (bits (oP0 e).toNat 0 3)).any (fun i =>
    match x.coreAt (oPlace e + i / 2) with
    | none => false
    | some k => (lget? (s.island k (i % 2)).fill c.toNat).isSome)

/-- Whether a record of a channel is being converted, or comes back from it, ahead of those that are spilled (spec/02 R45, R49). -/
def converting (s : State) (t ch : Nat) : Bool :=
  s.transit.any (fun y => (match y.dst with
    | .op _ _ _ => s.sameWay y.dst (.slot t ch)
    | d => d = .slot t ch && y.ahead != 0))

/-- Whether a record of a spill ring may leave it once its tile is awake (spec/02 R43, R45). -/
def leavable (s : State) (r : Nat) (x : Spill) : Bool :=
  let h := x.tr.rc.hdr
  let c := rhCol h
  let w := rhWave h
  !x.frozen && !s.awaitsReconf r c w &&
  (match x.tr.dst with
   | .slot t ch =>
     let e := s.chan t ch c w
     let d := waveDiff w (lget 0 (s.tile t).owc c.toNat)
     !s.marked r false t (cISlot e).toNat c w && !s.converting t ch &&
     (d < 0 || (d < kW (s.colourEntry r c w) &&
       s.slotsFree (s.frameFor r t (cISlot e).toNat c w) ch (cISlot e) c w (cBase e) x.tr.rc.beats.length))
   | .op q n _ => !s.marked q true 0 n c w && (oKind (s.opEntry q n) != 10 || s.hasFill q n c)
   | _ => true)

end State

/-- Whether a record is landing in a tile, or may be replayed into it. -/
def State.landsIn (s : State) (t : Nat) : Bool :=
  let here := fun (d : Dest) => match d with
    | .slot u _ => u == t
    | _ => false
  s.transit.any (fun x => here x.dst && x.left == 0 && s.performed x.waits && s.rideDone x.ride) ||
  (s.region (s.regOfTile t)).cols.any (fun c => c.2.spill.any (fun x => here x.tr.dst && s.leavable (s.regOfTile t) x))

/-- A tile that is idle (spec/22 R439): nothing runs on it, is runnable, is landing or outstanding. -/
def State.tileIdle (s : State) (t : Nat) : Bool :=
  !(List.range 4).any (fun c => (s.ctx (t * 4 + c)).busy) &&
  !s.frames.any (fun (k, f) => k / 128 == t && (f.cont = .fresh || f.cont = .runnable ||
    (f.cont = .parked && (match f.wait with
      | .barrier _ => true
      | _ => false)))) &&
  !s.landsIn t &&
  (s.tile t).mmats.isEmpty && !s.accesses.any (fun a => a.tile == t && a.kind != .sync) &&
  !s.replies.any (fun x => x.acc.tile == t)

/-- Whether the core's own clock has an edge in the nominal clk that ends: of 16 nominal clk, a core at step n has n (spec/00 R4); a
halted core has none. -/
def State.coreEdge (s : State) (c : Nat) : Bool :=
  let x := s.core c
  let n := if x.halted then 0 else x.step
  (x.lost + (16 - n)) / 16 == x.lost / 16

/-- The idle count of one tile after one more nominal clk (spec/22 R439); a waking tile comes nearer to awake (spec/02 R48: 8 clk of the core
from clock gating, 2 µs of elapsed time from power gating). -/
def State.tickTile (s : State) (t : Nat) (x : Tile) : Tile :=
  match x.gate with
  | .powering n => { x with gate := .powering (n - 1) }
  | .power => x
  | .waking n => if s.coreEdge (t / 32) then { x with gate := .waking (n - 1) } else x
  | .awake | .clock => { x with idle := if s.tileIdle t then x.idle + 1 else 0 }

/-- A colour whose watchdog counts: a live admission, not frozen, its partition running (spec/21 R425). -/
def State.tickRegion (s : State) (x : Region) : Region :=
  let p := s.part (s.partOf (x.cores.headD 0))
  if p.wholeFrozen || p.phase != .run then x
  else { x with cols := x.cols.map (fun e =>
    if e.2.livea == 0 || e.2.frozen then e else (e.1, { e.2 with wdog := e.2.wdog + 1 })) }

/-- PACE_EFF kept between MINPACE and PACE (spec/07 R153). -/
def RingSt.clampPace (r : RingSt) : RingSt := { r with paceEff := max r.minPace (min r.pace r.paceEff) }

/-- HOLDLEFT of the image in ring. -/
def RingSt.left (r : RingSt) : Nat := (lget 256 r.holdLeft r.cur).toNat

/-- The tile boundary at which the lanes next stop where they must: the one that they stand at, unless it is passed. -/
def RingSt.edge (r : RingSt) (passed : Bool) : Nat :=
  if r.pos % 544 == 0 && !passed then r.pos else (r.pos / 544 + 1) * 544

/-- A station stops the lanes at a tile boundary: UNDERRUN counts it, and PACE_EFF falls by 1 (spec/07 R153). -/
def RingSt.stop (r : RingSt) (station : Nat) : RingSt :=
  let r1 := r.clampPace
  { r1 with
    under := lset r1.under station (lget 0 r1.under station + 1), lapUnder := true, stalled := station :: r1.stalled,
    paceEff := max r1.minPace (r1.paceEff - 1) }

/-- The ring's lanes advance by the pace in force (spec/07 R138). A hold stops them and is charged once for each clk; with a hold asked for
that can be granted they stop at the next tile boundary (R152), and so they do while a station has not staged its next tile (R153). A write of
PACE or MINPACE takes effect at a tile boundary (R153). -/
def RingSt.tick (r : RingSt) : RingSt :=
  if !r.running then r
  else match r.hold with
    | some n => { r with hold := some (n - 1), holdLeft := lset r.holdLeft r.cur (BitVec.ofNat 16 (r.left - 1)) }
    | none =>
      let p0 := r.pos + r.paceEff
      let p1 := if r.want.isEmpty || r.left == 0 then p0 else min p0 (r.edge (r.heldAt == some r.pos))
      let p := if r.stalled.isEmpty && r.late.isEmpty then p1 else min p1 (r.edge false)
      let r1 := { r with pos := p }
      let r2 := if p / 544 != r.pos / 544 then r1.clampPace else r1
      if p % 544 == 0 then r2.late.foldl RingSt.stop { r2 with late := [] } else r2

/-- One nominal clk of a core: what throttling takes from its own clock (spec/00 R4), and the clk spent at its step (spec/06 R136). A
halted core's clock stands. -/
def Core.tick (c : Core) : Core :=
  { c with lost := c.lost + (16 - (if c.halted then 0 else c.step)),
           throttled := if c.step < 16 then lset c.throttled c.step (lget 0 c.throttled c.step + 1) else c.throttled }

/-- Waves that nothing holds any more retire (spec/02 R42). -/
def State.retireAll (s : State) : State :=
  s.regions.foldl (fun st r => r.2.cols.foldl (fun q c => if c.2.owc == c.2.nxw then q else q.retire r.1 (BitVec.ofNat 5 c.1)) st) s

/-- The purges that the hub owes (spec/21 R417). -/
def State.payPurges (s : State) : State :=
  s.purges.foldl (fun st o =>
    State.purgeTag { r := o.region, p := o.part, col := o.col, rtag := o.rtag, cause := o.cause, keep := 0 } st) { s with purges := [] }

/-- A memory access leaves for its homes: one request to each, with the data to be written there (spec/01 R18, spec/08 R162). -/
def State.askHome (s : State) (a : Access) : State :=
  let (ns, s1) := s.sendLegs a.trip false true .request (s.requests (a.pieces a.data.toNat a.wr))
  { s1 with accesses := s1.accesses.map (fun b => if b.id == a.id then { b with ride := .on ns } else b) }

/-- A load's value leaves for its core, from each home what was read there. -/
def State.sendReply (s : State) (y : Reply) : State :=
  let (ns, s1) := s.sendLegs y.acc.trip false false .reply (s.requests (y.acc.pieces y.val true))
  { s1 with replies := s1.replies.map (fun z => if z.acc.id == y.acc.id then { z with ride := .on ns } else z) }

/-- A trap record leaves for a trap operator on another core, as a class 1 message (spec/08 R162). -/
def State.sendTrap (s : State) (n : Nat) (y : Transit) : State :=
  let t := match y.dst with
    | .slot t _ => t
    | _ => 0
  let r := ((s.core (t / 32)).region).getD (t / 32)
  let x : Msg := {
    cls := 1, src := State.coreNode (s.trapCoreOf r (y.rc.beats.headD 0).toNat), dst := State.coreNode (t / 32), region := some r,
    col := rhCol y.rc.hdr, wave := rhWave y.rc.hdr, rtag := rhRtag y.rc.hdr, payload := y.rc.beats, bytes := 64 * y.rc.beats.length,
    what := .request }
  { s.sendMsg x with transit := setAt s.transit n { y with ride := .on [s.nextId] } }

/-- What has still to be sent leaves: accesses that their chain has let go, values of loads, trap records. -/
def State.sendFresh (s : State) : State :=
  let s0 := s.endTrips
  let s1 := (s0.accesses.filter (fun a => a.ride = .fresh && a.freed && a.kind != .sync)).foldl State.askHome s0
  let s2 := (s1.replies.filter (fun x => x.ride = .fresh)).foldl State.sendReply s1
  (List.range s2.transit.length).foldl (fun st n => match st.transit[n]? with
    | some y => if y.ride = .fresh then st.sendTrap n y else st
    | none => st) s2

/-- The hub charges the owners of the dirty lines whose way back revealed an uncorrectable error: an entry each in their partition's log
(spec/14 R287, spec/21 R424). -/
def State.chargeReveals (s : State) : State :=
  s.reveals.foldl (fun st x =>
    if 16 ≤ x.part then st
    else st.logPut x.part (trapBytes { cause := Cause.uce, flags := 8, addr := BitVec.ofNat 64 (x.num * 128) } x.rtag 0 x.col 0 0 0
      (homeDie (x.num * 128)) 0 0) (homeDie (x.num * 128))) { s with reveals := [] }

/-- What follows from every step without an event of its own: errors charged and purges owed, stopped activations removed, waves retired,
continuations whose cause to wait is gone made runnable (spec/02 R42, R52), messages sent (spec/08 R162). -/
def State.afterStep (s : State) : State := s.chargeReveals.payPurges.finishStops.retireAll.wakeUp.sendFresh

/-- One nominal clk: CYC of every die rises (spec/19 R390), idle counts and watchdog counts rise, the ring turns. -/
def State.tick (s : State) : State :=
  { s with now := s.now + 1, ring := s.ring.tick,
           cores := s.cores.map (fun e => (e.1, e.2.tick)),
           cyc := (List.range 4).foldl (fun m d => lset m d (lget 0 m d + 1)) s.cyc,
           tiles := s.tiles.map (fun e => (e.1, s.tickTile e.1 e.2)),
           regions := s.regions.map (fun e => (e.1, s.tickRegion e.2)) }

/-- What ends every step: what follows without an event of its own, and one nominal clk. -/
def State.finishStep (s : State) : State := s.afterStep.tick

/-! Issue (spec/06 R132). -/

/-- Whether a context has an instruction ready to issue: it holds an activation that is not held, has not ended or been
stopped by a purge, waits on no trap and for no answer of another unit, sends no wave control record still to be applied (spec/26 R447), on a
tile awake, a core not halted, a partition not saved. -/
def State.ready (s : State) (k : Nat) : Bool :=
  let c := s.ctx k
  c.busy && !c.held && !c.ended && c.stop.isNone && c.pend.isNone && !(s.core (k / 128)).halted && (s.tile (k / 4)).gate = .awake &&
  (s.part (s.partOf (k / 128))).phase != .saved &&
  !s.transit.any (fun x => x.sender == c.aid && c.aid != 0) && !s.trips.any (fun t => t.back && t.aid == c.aid && c.aid != 0)

/-- Class of the activation of a context (spec/02 R28). -/
def State.classOf (s : State) (k : Nat) : Nat :=
  let c := s.ctx k
  kClass (s.colourEntry (((s.core (k / 128)).region).getD (k / 128)) c.col c.wave)

/-- Distance from one number to a later one around a circle of n; the number itself comes last. -/
def circleDist (n a b : Nat) : Nat := (b + 2 * n - a - 1) % n

/-- The first of some numbers with the least key. -/
def leastBy (key : Nat → Nat) : List Nat → Option Nat
  | [] => none
  | x :: l =>
    match leastBy key l with
    | none => some x
    | some y => if key y < key x then some y else some x

/-- The context of a tile that issues: highest class, then the first one after the context it issued from last (R132). -/
def State.pickIn (s : State) (t : Nat) (ks : List Nat) : Option Nat :=
  leastBy (fun k => s.classOf k * 8 + circleDist 4 (s.tile t).lastCtx (k % 4)) (ks.filter (fun k => k / 4 == t))

/-- The context that issues next: tiles in turn after the tile in focus. -/
def State.pick (s : State) : Option Nat :=
  let ks := (s.ctxs.map (·.1)).filter s.ready
  match leastBy (fun k => circleDist Config.tiles s.curTile (k / 4)) ks with
  | none => none
  | some k => s.pickIn (k / 4) ks

/-- Puts a context into focus. -/
def State.focusOn (s : State) (k : Nat) : State := { s with focus := k }

/-- A context has issued: its tile goes on from the one after it (spec/06 R132). -/
def State.issuedFrom (s : State) (k : Nat) : State :=
  { s with tiles := lset s.tiles (k / 4) { s.tile (k / 4) with lastCtx := k % 4 } }

/-- Whether a context holds at the instruction that it was given to issue. -/
def State.heldAt (s : State) (k : Nat) : Bool := (s.ctx k).busy && (s.ctx k).held

/-! Fetch (spec/09 R181). -/

/-- A parcel of the tile's instruction store. -/
def State.parcel (s : State) (a : Nat) : Parcel := lget 0 (s.tile s.curTile).code a

/-- What the fetch finds at IP. -/
inductive Fetched where
  /-- beyond the loaded code: ILL, a fetch fault -/
  | beyond
  /-- a code with a nonzero reserved field: DICT (spec/09 R182) -/
  | badCode (p : Parcel)
  | code (i : BitVec 10)
  | word (w : Word)
deriving DecidableEq, Repr

/-- Whether CFGLD has loaded a parcel at an address: gaps between the sections of an image are beyond the loaded code (spec/09 R181). -/
def State.loadedAt (s : State) (a : Nat) : Bool := (lget? (s.tile s.curTile).code a).isSome

def State.fetch (s : State) : Fetched :=
  let a := s.cur.ip.toNat
  if !s.loadedAt a then .beyond
  else
    let p := s.parcel a
    if p.extractLsb' 14 2 = 0 then
      match decodeCode p with
      | some (.dictionaryCode i) => .code i
      | _ => .badCode p
    else if !(s.loadedAt (a + 1) && s.loadedAt (a + 2) && s.loadedAt (a + 3)) then .beyond
    else .word (p ++ s.parcel (a + 1) ++ s.parcel (a + 2) ++ s.parcel (a + 3))

/-- The instruction at IP, as a trap that is taken before its issue records it: its word, its length in parcels, its dictionary index. -/
def State.latchNext (s : State) : State :=
  match s.fetch with
  | .beyond => s.latch 0 4 0xFFFF
  | .badCode p => s.latch 0 1 ((p.extractLsb' 0 10).setWidth 16)
  | .code i => s.latch (lget 0 (s.tile s.curTile).dict i.toNat) 1 (i.setWidth 16)
  | .word w => s.latch w 4 0xFFFF

/-- A fault of the fetch or of the encoding, taken at step 2, 3 or 4 of spec/09 R202. -/
def State.fetchTrap (s : State) (w : Word) (len : Nat) (dindex : BitVec 16) (cause flags : BitVec 8) : State :=
  let s1 := s.latch w len dindex
  s1.takeTrap { s1.faultOf cause with flags := (s1.faultOf cause).flags ||| flags }

end Sys2Proof.Machine
end

