-- ==== Sys2Proof/Machine/MatrixTile.lean ====
section
/-!
DEFINITION. Machine/MatrixTile.lean: the sum orders (spec/04 R96), the tile array and its accumulators (spec/13 R265 to R274,
spec/10 R209 to R211).
-/

namespace Sys2Proof.Machine

/-! Sum orders (spec/04 R96). -/

/-- The exact sum of some products. -/
def exactSum : List Num → Num
  | [] => .zero false
  | x :: l => l.foldl (fun a y => (a.add .rne y).1) x

/-- Rounds to F32 in RNE. -/
def rndF32 (x : Num) : Num := Fmt.f32.num (x.to .f32 .rne .none).v

/-- acc + s in F32. -/
def accAdd (acc s : Num) : Num := rndF32 (acc.add .rne s).1

/-- A product beyond the F32 range is infinite before it is added (spec/04 R96). -/
def prodInf (x : Num) : Num :=
  match x with
  | .fin s m e => if 128 ≤ e + Nat.log2 m then .inf s else x
  | _ => x

/-- The modes of a K-step. -/
inductive MatMode where
  | e4 | cb2 | bf16 | fp16 | i8
deriving DecidableEq, Repr

/-- Consecutive groups of n. -/
def chunks {α : Type} (n : Nat) : (fuel : Nat) → List α → List (List α)
  | 0, _ => []
  | k + 1, l => if l.isEmpty then [] else l.take n :: chunks n k (l.drop n)

/-- One output element: the accumulator's pattern, a row's patterns, a column's values and the block scales. -/
def sumOrder (mode : MatMode) (acc : BitVec 32) (a : List Nat) (b : List Num) (bi : List Nat) (scales : List Nat) : BitVec 32 :=
  match mode with
  | .i8 =>
    BitVec.ofInt 32 ((a.zip bi).foldl (fun c x => c + tyInt .i8 x.1 * tyInt .i8 x.2) acc.toInt)
  | .e4 =>
    let ps := (a.zip b).map (fun x => ((Fmt.e4m3.num x.1).mul x.2).1)
    BitVec.ofNat 32 (((chunks 32 ps.length ps).foldl (fun c g => accAdd c (exactSum g)) (Fmt.f32.num acc.toNat)).to .f32 .rne .none).v
  | .cb2 =>
    let ps := (a.zip b).map (fun x => ((Fmt.e4m3.num x.1).mul x.2).1)
    BitVec.ofNat 32 ((((chunks 256 ps.length ps).zip scales).foldl (fun c g =>
      accAdd c (rndF32 ((rndF32 (exactSum g.1)).mul (Fmt.bf16.num g.2)).1)) (Fmt.f32.num acc.toNat)).to .f32 .rne .none).v
  | .bf16 =>
    BitVec.ofNat 32 (((a.zip b).foldl (fun c x => accAdd c (prodInf ((Fmt.bf16.num x.1).mul x.2).1)) (Fmt.f32.num acc.toNat)).to .f32 .rne .none).v
  | .fp16 =>
    BitVec.ofNat 32 (((a.zip b).foldl (fun c x => accAdd c (prodInf ((Fmt.fp16.num x.1).mul x.2).1)) (Fmt.f32.num acc.toNat)).to .f32 .rne .none).v

/-- The mode of an MMAT (spec/13 R269). -/
def mmatMode (ty : Ty) (cb : Bool) : MatMode :=
  match ty with
  | .e4m3 => if cb then .cb2 else .e4
  | .bf16 => .bf16
  | .fp16 => .fp16
  | _ => .i8

/-- K, bytes of the A panel and of the B panel of a mode of the tile array (spec/13 R269). -/
def MatMode.shape : MatMode → Nat × Nat × Nat
  | .e4 | .i8 => (32, 1024, 1024)
  | .cb2 => (256, 8192, 2112)
  | .bf16 | .fp16 => (32, 2048, 2048)

namespace State

def accOf (s : State) (t a : Nat) : Owner := lget {} (s.tile t).accTag a
def accEl (s : State) (t a i j : Nat) : BitVec 32 := lget 0 (s.tile t).acc (a * 1024 + 32 * i + j)
def setAccEl (s : State) (t a i j : Nat) (v : BitVec 32) : State :=
  s.setTile t { s.tile t with acc := lset (s.tile t).acc (a * 1024 + 32 * i + j) v }

/-- Whether the configuration assigns an accumulator to the activation's slot (spec/10 R210). -/
def accMine (s : State) (a : AReg) : Bool :=
  (hAcc (s.handler s.curTile s.cur.opsl.toNat s.cur.col s.cur.wave)).getLsbD a.toNat

/-- The ownership rule: `takes` for MZERO and MLDA (spec/10 R210); a poisoned tag traps POISON (spec/13 R269). -/
def accCheck (s : State) (a : AReg) (takes : Bool) : Option TrapInfo :=
  let o := s.accOf s.curTile a.toNat
  let ok := s.accMine a &&
    (if takes then !o.valid || o.col == s.cur.col || s.waveGone s.curRegion o.col o.wave else o.valid && o.col == s.cur.col)
  if !ok then some (s.faultOf Cause.slot)
  else if o.valid && o.poisoned then some (s.faultOf Cause.poison)
  else none

/-- The region of tile memory an instruction addresses: ALIGN, then PERM outside the data half (spec/13 R267). -/
def panelCheck (s : State) (off : Word) (n : Nat) : Option TrapInfo :=
  if off.toNat % 64 != 0 then some { s.faultOf Cause.align with addr := off }
  else if off.toNat < Config.dataHalf || Config.tileSpace < off.toNat + n then some { s.faultOf Cause.perm with addr := off }
  else none

/-- A matrix instruction other than MMAT: performed once the array is empty (spec/13 R266). -/
def arrayIdle (s : State) (a : Act) : Act := if (s.tile s.curTile).mmats.isEmpty then a else .hold s false

/-- A write of tile memory by an instruction: the error of the bytes it writes is gone; an element of a frame that stands at its heap
address is written there. -/
def tput (s : State) (t off n v : Nat) : State :=
  let s1 :=
    if off < Config.dataHalf && (s.frame (t * 128 + off / 0x800)).inHeap && off % 0x800 + n ≤ 0x800 then
      s.frameWrite (s.regOfTile t) (t * 128 + off / 0x800) (off % 0x800) n v
    else s.twrite t off n v
  { s1 with uce := s1.uce.filter (fun a => !(2 ^ 48 + t * 0x80000 + off ≤ a && a < 2 ^ 48 + t * 0x80000 + off + n)) }

/-- Bytes of tile memory as a list, lowest first. -/
def tbytes (s : State) (t off n : Nat) : List Nat := (List.range n).map (fun i => s.tsRead t (off + i) 1)

/-- Element i of a panel of elements of w bytes. -/
def panelEl (s : State) (t off w i : Nat) : Nat := s.tsRead t (off + i * w) w

/-- One element of an MMAT's result (spec/13 R269, spec/04 R96), with the codebook of its place in the order of issue (spec/18 R360). -/
def mmatElem (s : State) (t : Nat) (m : Mmat) (i j : Nat) : BitVec 32 :=
  let mode := mmatMode m.ty m.cb
  let k := mode.shape.1
  let w := if mode = .bf16 || mode = .fp16 then 2 else 1
  let a := (List.range k).map (fun x => s.panelEl t m.pa w (k * i + x))
  let acc := s.accEl t m.acc i j
  match mode with
  | .cb2 =>
    let b := (List.range 256).map (fun x =>
      let idx := BitVec.ofNat 16 (s.tread t (m.pb + 64 + 2 * (j * 32 + x / 8)) 2)
      cb2 (lget 0 m.book (idx.toNat / 256)) idx (x % 8))
    sumOrder .cb2 acc a b [] [s.tread t (m.pb + 2 * j) 2]
  | .i8 => sumOrder .i8 acc a [] ((List.range 32).map (fun x => s.panelEl t m.pb 1 (32 * x + j))) []
  | md =>
    let f := Fmt.ofTy m.ty
    sumOrder md acc a ((List.range 32).map (fun x => f.num (s.panelEl t m.pb w (32 * x + j)))) [] []

/-- Whether a panel of an MMAT holds an uncorrectable byte (spec/13 R269). -/
def mmatUce (s : State) (t : Nat) (m : Mmat) : Bool :=
  let sh := (mmatMode m.ty m.cb).shape
  s.hasUce (2 ^ 48 + t * 0x80000 + m.pa) sh.2.1 || s.hasUce (2 ^ 48 + t * 0x80000 + m.pb) sh.2.2

/-- Whether a write of some tile memory by the activation must wait for its own MMATs (spec/13 R268). -/
def mmatReads (s : State) (off n : Nat) : Bool :=
  (s.tile s.curTile).mmats.any (fun m =>
    let sh := (mmatMode m.ty m.cb).shape
    m.aid == s.cur.aid && ((off < m.pa + sh.2.1 && m.pa < off + n) || (off < m.pb + sh.2.2 && m.pb < off + n)))

/-- Whether an earlier access of the activation to some bytes of tile memory is still to be performed: the array's read or write
of them comes after it (spec/05 R116, COHERENCE). -/
def tsBusy (s : State) (off n : Nat) : Bool :=
  s.accesses.any (fun a => a.ts && a.aid == s.cur.aid && a.elems.any (fun e => off < e.pa + a.bytes && e.pa < off + n))

end State

/-- The owner tag that MZERO and MLDA set (spec/10 R210). -/
def State.takeAcc (s : State) (a : AReg) (v : Nat → BitVec 32) : State :=
  let t := s.tile s.curTile
  s.setTile s.curTile { t with
    acc := (List.range 1024).foldl (fun m i => lset m (a.toNat * 1024 + i) (v i)) t.acc,
    accTag := lset t.accTag a.toNat s.ownTag }

/-- MZERO (spec/13 R270). -/
def execMzero (p : Pred) (d : AReg) (s : State) : Host.Outcome State Fault Refusal :=
  s.perform p [] [] (match s.accCheck d true with
    | some i => .trap i
    | none => s.arrayIdle (.ok (s.takeAcc d (fun _ => 0))))

/-- MLDA (spec/13 R270). -/
def execMlda (p : Pred) (d : AReg) (a : SReg) (s : State) : Host.Outcome State Fault Refusal :=
  let off := s.rdS a
  s.perform p [a] [] (match (s.accCheck d true).orElse (fun _ => s.panelCheck off 4096) with
    | some i => .trap i
    | none => s.arrayIdle (
        if s.tsBusy off.toNat 4096 then .hold s false
        else if s.hasUce (2 ^ 48 + s.curTile * 0x80000 + off.toNat) 4096 then .done (s.uceCur off.toNat)
        else .ok (s.takeAcc d (fun i => BitVec.ofNat 32 (s.tsRead s.curTile (off.toNat + 4 * i) 4)))))

/-- MMAT is accepted, and completes at MMAT_COMPLETE (spec/13 R266, R269). -/
def execMmat (p : Pred) (ty : Ty) (d : AReg) (a b : SReg) (cb : Bool) (s : State) : Host.Outcome State Fault Refusal :=
  let sh := (mmatMode ty cb).shape
  s.perform p [a, b] [] (match ((s.accCheck d false).orElse (fun _ => s.panelCheck (s.rdS a) sh.2.1)).orElse
      (fun _ => s.panelCheck (s.rdS b) sh.2.2) with
    | some i => .trap i
    | none =>
      let t := s.tile s.curTile
      if 4 ≤ t.mmats.length || 15 ≤ s.otoCount s.cur.aid then .hold s true
      else if s.tsBusy (s.rdS a).toNat sh.2.1 || s.tsBusy (s.rdS b).toNat sh.2.2 then .hold s false
      else
        let m : Mmat := { aid := s.cur.aid, acc := d.toNat, ty := ty, cb := cb, pa := (s.rdS a).toNat, pb := (s.rdS b).toNat,
                          col := s.cur.col, wave := s.cur.wave, rtag := s.cur.rtag,
                          book := if cb then (s.region s.curRegion).codebook else [] }
        .ok (s.setTile s.curTile { t with mmats := t.mmats ++ [m] }))

/-- MMAT_COMPLETE: the oldest accepted MMAT of a tile (spec/13 R266, R269). -/
def execMmatComplete (t : Nat) (s : State) : Host.Outcome State Fault Refusal :=
  match (s.tile t).mmats with
  | [] => .next s
  | m :: rest =>
    let s1 := s.setTile t { s.tile t with mmats := rest }
    if s.mmatUce t m then
      .next (s1.setTile t { s1.tile t with accTag := lset (s1.tile t).accTag m.acc { s1.accOf t m.acc with poisoned := true } }).wakeUp
    else
      let acc := (List.range 1024).foldl (fun a x => lset a (m.acc * 1024 + x) (s.mmatElem t m (x / 32) (x % 32))) (s.tile t).acc
      .next (s1.setTile t { s1.tile t with acc := acc }).wakeUp

/-! Row and column transfer (spec/13 R271 to R273). -/

/-- Element of an accumulator converted to an element type (spec/13 R271). -/
def accConv (ty : Ty) (rnd : Rnd) (sm : Sat) (v : BitVec 32) : FRes :=
  match ty with
  | .f32 | .i32 => ⟨v.toNat, 0⟩
  | .i16 | .i8 => ⟨intTo ty sm v.toInt, 0⟩
  | _ => (Fmt.f32.num v.toNat).to (Fmt.ofTy ty) rnd sm

/-- Lane that holds element e of a row, if one does (spec/13 R271). -/
def rowLane (ty : Ty) (hi : Bool) (e : Nat) : Option Nat :=
  let h := if hi then 1 else 0
  if ty.width == 32 then (if e / 16 == h then some (e % 16) else none)
  else if ty.width == 16 then some e
  else some (32 * h + e)

/-- Element that stands in lane i. -/
def laneRow (ty : Ty) (hi : Bool) (i : Nat) : Option Nat :=
  let h := if hi then 1 else 0
  if ty.width == 32 then some (16 * h + i)
  else if ty.width == 16 then some i
  else if i / 32 == h then some (i % 32) else none

/-- A row or a column to a vector destination. -/
def State.accRead (s : State) (p : Pred) (ty : Ty) (d : VDst) (a : AReg) (hi : Bool) (sm : Sat) (rnd : Rnd)
    (el : Nat → BitVec 32) : Host.Outcome State Fault Refusal :=
  let w := ty.width
  let out := (List.range ty.lanes).map (fun i =>
    match laneRow ty hi i with
    | some e => (i, accConv ty (s.rmode rnd) sm (el e))
    | none => (i, ⟨match d with
        | .reg r => lane w (s.rdV r) i
        | .chan _ => 0, 0⟩))
  let old := match d with
    | .reg r => if w == 8 then [r] else []
    | .chan _ => []
  s.performV p [] [] old (some d) (match s.accCheck a false with
    | some i => .trap i
    | none => s.arrayIdle (s.fpDone (out.map (fun x => (x.1, x.2.fl)))
        (fun st => st.put d (ofLanes w (out.map (fun x => x.2.v))) 0)))

/-- MRDR (spec/13 R271). -/
def execMrdr (p : Pred) (ty : Ty) (d : VDst) (a : AReg) (hi : Bool) (r : BitVec 5) (sm : Sat) (rnd : Rnd) (s : State) :
    Host.Outcome State Fault Refusal :=
  s.accRead p ty d a hi sm rnd (fun e => s.accEl s.curTile a.toNat r.toNat e)

/-- MRDC (spec/13 R271). -/
def execMrdc (p : Pred) (ty : Ty) (d : VDst) (a : AReg) (hi : Bool) (r : BitVec 5) (sm : Sat) (rnd : Rnd) (s : State) :
    Host.Outcome State Fault Refusal :=
  s.accRead p ty d a hi sm rnd (fun e => s.accEl s.curTile a.toNat e r.toNat)

/-- A lane widened to an accumulator element (spec/13 R272). -/
def accWiden (ty : Ty) (x : Nat) : BitVec 32 :=
  match ty with
  | .f32 | .i32 => BitVec.ofNat 32 x
  | .i16 | .i8 => BitVec.ofInt 32 (tyInt ty x)
  | _ => BitVec.ofNat 32 (((Fmt.ofTy ty).num x).to .f32 .rne .none).v

/-- MWRR sets no flag (spec/13 R272). -/
def execMwrr (p : Pred) (ty : Ty) (d : AReg) (a : VSrc) (hi : Bool) (r : BitVec 5) (s : State) :
    Host.Outcome State Fault Refusal :=
  s.performV p [] [a] [] none (match s.accCheck d false with
    | some i => .trap i
    | none => s.arrayIdle (.ok ((List.range 32).foldl (fun st e =>
        match rowLane ty hi e with
        | some i => st.setAccEl s.curTile d.toNat r.toNat e (accWiden ty (s.ln ty a i))
        | none => st) (s.popAll [a]))))

/-- MSTA: an enabled exception in any element traps before a byte is written; the record names the first in row-major order
(spec/13 R273). -/
def execMsta (p : Pred) (ty : Ty) (a : AReg) (b : SReg) (sm : Sat) (rnd : Rnd) (s : State) :
    Host.Outcome State Fault Refusal :=
  let off := s.rdS b
  let w := ty.width / 8
  let els := (List.range 1024).map (fun k => (k, accConv ty (s.rmode rnd) sm (s.accEl s.curTile a.toNat (k / 32) (k % 32))))
  let fl := els.map (fun x => (x.1, x.2.fl))
  s.perform p [b] [] (match (s.accCheck a false).orElse (fun _ => s.panelCheck off (1024 * w)) with
    | some i => .trap i
    | none => if s.tsBusy off.toNat (1024 * w) then .hold s false else s.arrayIdle (match s.fpFault fl with
      | some i =>
        let k := ((fl.find? (fun x => x.2 &&& s.enabled != 0)).map (·.1)).getD 0
        .trap { i with lane := BitVec.ofNat 8 (k % 32), addr := off + BitVec.ofNat 64 (k * w) }
      | none => .ok ((els.foldl (fun st x => st.tput s.curTile (off.toNat + x.1 * w) w x.2.v) s).addFlags (State.orAll fl))))

end Sys2Proof.Machine
end

