-- ==== Sys2Proof/Machine/Access.lean ====
section
/-!
DEFINITION. Machine/Access.lean: an access from its issue to its answer: the checks at issue (spec/15 R300, R301, R314, spec/14
R284, R285), chains (spec/05 R104 to R106), the order within an activation (spec/15 R305), what its home does (spec/15 R302 to R310,
spec/05 R107), and late faults (spec/15 R302, spec/21 R414, R418).
-/

namespace Sys2Proof.Machine

/-- What an instruction asks of memory. -/
structure Want where
  kind : AccKind := .null
  mf : MemF := { wd := .b, sx := false, ts := false, mo := .plain, sc := .op, seq := 0, pd := 0, sd := 0 }
  /-- it writes: translated as a write (spec/15 R300) -/
  write : Bool := false
  /-- a full/empty instruction, FEGET or FESET (spec/15 R300) -/
  fe : Bool := false
  /-- VLDG and VSTS: one access per element (spec/15 R304) -/
  gather : Bool := false
  /-- the one form that reaches a streamer aperture (spec/15 R314) -/
  aperture : Bool := false
  bytes : Nat := 1
  /-- lane and address of each element -/
  elems : List (Nat × Nat) := []
  data : Vec := 0
  dst : Nat := 0
deriving DecidableEq, Repr

/-- Bytes of an access width (spec/09 R195). -/
def widthBytes : Width → Nat
  | .b => 1 | .h => 2 | .w => 4 | .d => 8

/-- Whether an order acquires or releases (spec/05 R112). -/
def moAcq (m : MO) : Bool := m == .acq || m == .ar
def moRel (m : MO) : Bool := m == .rel || m == .ar

namespace State

/-! Checks at issue (spec/15 R300). -/

/-- The first element, in lane order, that fails a test. -/
def firstBad (l : List (Nat × Nat)) (f : Nat → Option (BitVec 8)) : Option (Nat × Nat × BitVec 8) :=
  l.findSome? (fun e => (f e.2).map (fun c => (e.1, e.2, c)))

/-- Whether one byte of the frame half may be reached: of its own frame, or in trap-operator mode of any; a store within the limits of
spec/02 R40. -/
def frameByte (s : State) (write : Bool) (a : Nat) : Bool :=
  let f := a / 0x800
  let o := a % 0x800
  let cont := (s.frame (s.curTile * 128 + f)).cont
  (f == s.cur.frame || s.trapMode) &&
  (!write || (!(0x698 ≤ o && o < 0x6A0) && (s.trapMode || !((cont = .parked || cont = .trapped) && 0x400 ≤ o && o < 0x6A0))))

/-- Check 1: every byte of a TS access (spec/14 R284). -/
def tsBad (s : State) (write : Bool) (n off : Nat) : Option (BitVec 8) :=
  if Config.tileSpace < off + n then some Cause.perm
  else if (List.range n).all (fun i => Config.dataHalf ≤ off + i || s.frameByte write (off + i)) then none
  else some Cause.perm

/-- The VMID and ASID of the activation's colour (spec/05 R102). -/
def curVm (s : State) : Nat × Nat := (kVmid s.curColour, kAsid s.curColour)

/-- The translation an access will use: of a TLB entry, or what a walk would give. -/
def findXlate (s : State) (write : Bool) (gva : Nat) : Except (BitVec 8) (TlbEntry × Bool) :=
  match s.lookup s.curTile s.curVm.1 s.curVm.2 gva write with
  | some e => .ok (e, true)
  | none =>
    match s.walk s.curVm.1 s.curVm.2 gva with
    | .error c => .error c
    | .ok (e, _, _) => .ok (e, false)

def entryPa (e : TlbEntry) (gva : Nat) : Nat := e.pa + (gva - e.gva)

/-- Check 3 of one element (spec/15 R300). -/
def xlateBad (s : State) (write : Bool) (gva : Nat) : Option (BitVec 8) :=
  if 2 ^ 56 ≤ gva then some Cause.page
  else match s.findXlate write gva with
    | .error c => some c
    | .ok (e, _) =>
      if write && e.ro then some Cause.perm
      else match placeOf (entryPa e gva) with
        | .scratch c _ => if c == s.curCore then none else some Cause.perm
        | .hole => some Cause.page2
        | _ => none

/-- The attributes that pages of one access must share (spec/15 R301). -/
def attrsOf (e : TlbEntry) (gva : Nat) : Bool × Bool × Bool × Bool × Nat :=
  (e.ro, e.nc, e.seq, e.sysatom, (placeOf (entryPa e gva)).level)

/-- Check 4 of one element: full/empty instructions outside scratchpad, apertures (spec/15 R300, R314). -/
def attrBad (s : State) (x : Want) (gva : Nat) : Option (BitVec 8) :=
  match s.findXlate x.write gva with
  | .error _ => none
  | .ok (e, _) =>
    match placeOf (entryPa e gva) with
    | .scratch _ _ => none
    | .aperture c _ off =>
      if x.aperture && off == 0 then (if c == s.curCore then none else some Cause.perm) else some Cause.attr
    | _ => if x.fe then some Cause.attr else none

/-- Whether an access other than VLDG and VSTS mixes pages of different attributes or levels (spec/15 R301). -/
def mixedPages (s : State) (x : Want) : Bool :=
  match x.elems.filterMap (fun e => match s.findXlate x.write e.2 with
      | .ok (t, _) => some (attrsOf t e.2)
      | .error _ => none) with
  | [] => false
  | a :: l => !x.gather && l.any (· != a)

/-- What the checks at issue find. -/
inductive Check where
  | fault (i : TrapInfo)
  /-- a translation is missing: walks asked for -/
  | miss (s : State)
  | ok (elems : List Elem)
deriving DecidableEq, Repr

/-- Enqueues a walk at the die's walker, unless 64 are in flight; a walk in flight for the same page is waited for (spec/14 R293). -/
def askWalk (s : State) (vmid asid gva : Nat) (write : Bool) : State :=
  let d := s.curTile / 512
  let same := fun (w : Walk) => w.tile / 512 == d && w.vmid == vmid && w.asid == asid && w.gva / 0x10000 == gva / 0x10000
  if s.walks.any same then
    { s with walks := s.walks.map (fun w =>
        if same w && w.tile != s.curTile && !w.also.contains s.curTile then { w with also := w.also ++ [s.curTile] } else w) }
  else if 64 ≤ (s.walks.filter (fun w => w.tile / 512 == d)).length then s
  else { s with walks := s.walks ++ [{ tile := s.curTile, vmid := vmid, asid := asid, gva := gva / 0x10000 * 0x10000, write := write }] }

/-- The fault of a failed check. -/
def badInfo (s : State) (x : Want) (b : Nat × Nat × BitVec 8) : TrapInfo :=
  { s.faultOf b.2.2 with lane := BitVec.ofNat 8 (if x.gather then b.1 else 0), addr := BitVec.ofNat 64 b.2.1 }

/-- The checks of spec/15 R300, in their order. -/
def check (s : State) (x : Want) : Check :=
  let al := fun a => if a % x.bytes == 0 then none else some Cause.align
  if x.mf.ts then
    match firstBad x.elems (s.tsBad x.write x.bytes) with
    | some b => .fault (s.badInfo x b)
    | none =>
      match firstBad x.elems al with
      | some b => .fault (s.badInfo x b)
      | none => .ok (x.elems.map (fun e => { lane := e.1, gva := e.2, pa := e.2 }))
  else
    match firstBad x.elems al with
    | some b => .fault (s.badInfo x b)
    | none =>
      match firstBad x.elems (s.xlateBad x.write) with
      | some b => .fault (s.badInfo x b)
      | none =>
        match firstBad x.elems (s.attrBad x) with
        | some b => .fault (s.badInfo x b)
        | none =>
          if s.mixedPages x then .fault { s.faultOf Cause.attr with addr := BitVec.ofNat 64 ((x.elems.head?.map (·.2)).getD 0) }
          else
            let ts := x.elems.map (fun e => (e, s.findXlate x.write e.2))
            if ts.all (fun t => match t.2 with
              | .ok (_, hit) => hit
              | .error _ => false)
            then .ok (ts.map (fun t => match t.2 with
              | .ok (e, _) => { lane := t.1.1, gva := t.1.2, pa := entryPa e t.1.2, seqPage := e.seq, nc := e.nc }
              | .error _ => {}))
            else .miss (ts.foldl (fun st t => match t.2 with
              | .ok (_, true) => st
              | _ => st.askWalk s.curVm.1 s.curVm.2 t.1.2 x.write) s)

/-! Chains (spec/05 R104 to R106). -/

/-- Subgraph of the activation's slot. -/
def curSub (s : State) : Nat := hSub (s.handler s.curTile s.cur.opsl.toNat s.cur.col s.cur.wave)

def chainOf (s : State) (a : Access) : Option Chain :=
  (s.region a.region).chains.find? (fun c => c.col == a.col && c.wave == a.wave && c.sub == a.sub)

/-- Changes the chain of an access. -/
def onChain (s : State) (a : Access) (f : Chain → Chain) : State :=
  s.setRegion a.region { s.region a.region with
    chains := (s.region a.region).chains.map (fun c => if c.col == a.col && c.wave == a.wave && c.sub == a.sub then f c else c) }

/-- Entries of a region's replay buffer in use (spec/05 R106). -/
def chainUsed (s : State) (r : Nat) : Nat :=
  ((s.region r).chains.map (fun c => (c.items.filter (fun i => !i.performed)).length)).foldl (· + ·) 0

def arrived (s : State) (a : Access) : Bool :=
  match s.chainOf a with
  | some c => c.items.any (fun i => i.acc == a.id)
  | none => false

/-- An access reaches the replay buffer: it takes an entry if one is free and no earlier chain access of its activation still
waits for one; a closed chain performs it as if its SEQ were 0, and LINKLATE counts it (spec/05 R104, R106). -/
def chainArrive (s : State) (a : Access) : State :=
  if s.arrived a then s
  else if s.accesses.any (fun b => b.aid == a.aid && b.id < a.id && b.seq != 0 && !b.freed && !s.arrived b) then s
  else
    match s.chainOf a with
    | some c =>
      if c.closed then
        { s.setRegion a.region { s.region a.region with linklate := min (2 ^ 32 - 1) ((s.region a.region).linklate + 1) } with
          accesses := s.accesses.map (fun b =>
            if b.id == a.id then { b with seq := if b.kind == .sync then b.seq else 0, freed := true } else b) }
      else if Config.replayPerCore * (s.region a.region).cores.length ≤ s.chainUsed a.region then s
      else s.onChain a (fun c => { c with items := c.items ++ [{ seq := a.seq, sd := a.sd, acc := a.id }] })
    | none =>
      if Config.replayPerCore * (s.region a.region).cores.length ≤ s.chainUsed a.region then s
      else s.setRegion a.region { s.region a.region with
        chains := (s.region a.region).chains ++ [{ col := a.col, wave := a.wave, sub := a.sub,
                                                   items := [{ seq := a.seq, sd := a.sd, acc := a.id }] }] }

/-- The numbers of the accesses that must have been performed before one (spec/05 R105). -/
def predsOf (items : List ChainItem) (n pd : Nat) : List Nat :=
  (if pd == 1 then [n - 1] else if pd == 2 then [n - 2] else []) ++
  (items.filter (fun x => (x.sd == 1 && x.seq + 1 == n) || (x.sd == 2 && x.seq + 2 == n))).map (·.seq)

/-- Whether the predecessors of an arrived access have been performed (spec/05 R105). A reused number comes after every access
that arrived before it. -/
def chainReady (s : State) (a : Access) : Bool :=
  match s.chainOf a with
  | none => false
  | some c =>
    let before := c.items.takeWhile (fun i => i.acc != a.id)
    let ps := predsOf (c.items.filter (fun i => i.acc != a.id)) a.seq a.pd
    c.items.any (fun i => i.acc == a.id) &&
    (!(a.pd == 0 && ps.isEmpty)) &&
    ps.all (fun n => c.items.any (fun i => i.acc != a.id && i.seq == n) &&
      c.items.all (fun i => i.acc == a.id || i.seq != n || i.performed)) &&
    (!before.any (fun i => i.seq == a.seq) || before.all (·.performed))

/-- A chain access has been performed; SD = last closes its chain after it (spec/05 R105). -/
def chainDone (s : State) (a : Access) : State :=
  if a.seq == 0 then s
  else s.onChain a (fun c =>
    { c with items := c.items.map (fun i => if i.acc == a.id then { i with performed := true } else i),
             closed := c.closed || a.sd == 3 })

/-! Order within an activation (spec/15 R305). -/

/-- Whether two accesses touch a common byte at its home (spec/15 R305, spec/14 R296). -/
def overlaps (s : State) (a b : Access) : Bool :=
  let at_ := fun (x : Access) (e : Elem) => if x.ts then e.pa else s.forward e.pa
  a.ts == b.ts && a.elems.any (fun x => b.elems.any (fun y => at_ a x < at_ b y + b.bytes && at_ b y < at_ a x + a.bytes))

/-- Whether an earlier access that is not performed yet keeps a later one of its activation back at the home: a release or an acquire, or
a common byte (spec/15 R305). -/
def keepsHome (s : State) (b a : Access) : Bool := a.release || b.acquire || s.overlaps a b

/-- Whether nothing but the activation of a waiting chain access can still move in its colour: no other activation runs, is parked, trapped
or to be started, no record is on its way, spilled or held at an operator, and no task, copy or access of another stands. The access it waits
for can then come from that activation only (log entry 62). -/
def lone (s : State) (b : Access) : Bool :=
  let x := s.region b.region
  let here := fun (core : Nat) => (s.core core).region == some b.region
  !(s.ctxs.any (fun e => e.2.busy && e.2.aid != b.aid && e.2.col == b.col && here (e.1 / 128)) ||
    s.frames.any (fun e => e.2.alloc && e.2.col == b.col && here (e.1 / 4096) &&
      (e.2.cont = .fresh || e.2.cont = .runnable || e.2.cont = .trapped || (e.2.cont = .parked && e.2.aid != b.aid))) ||
    s.transit.any (fun y => rhCol y.rc.hdr == b.col) ||
    !(s.colour b.region b.col.toNat).spill.isEmpty || x.outs.any (fun o => rhCol o.rc.hdr == b.col) ||
    x.nodes.any (fun n => n.col == b.col && !(n.dataQ.isEmpty && n.predQ.isEmpty)) ||
    s.cores.any (fun c => here c.1 && (c.2.tcbs.any (fun t => t.2.col == b.col) || c.2.copies.any (fun q => q.2.any (fun y => y.col == b.col)))) ||
    s.accesses.any (fun y => y.aid != b.aid && y.region == b.region && y.col == b.col))

/-- Whether an access stands behind a waiting chain access of its own activation for which nothing else can bring what it waits for. -/
def crossed (s : State) (a : Access) : Bool :=
  s.accesses.any (fun b => b.aid == a.aid && b.id < a.id && b.seq != 0 && b.kind != .sync && b.kind != .null && !s.chainReady b && s.lone b)

/-- Whether an earlier access that is not performed yet keeps a later one of its activation back: as `keepsHome` says, or as a load before
a write (spec/05 R116 NOTHINAIR), or as a chain access, whose wo edges lie in hb (R116 CAUSALITY, WAVE). The axioms allow some outcomes
that this order does not produce; where the numbers of a chain and the order of issue make a cycle, which no execution of R116 contains,
the chain goes on as R105 says (DEDUCED, log entry 62). -/
def keepsBack (s : State) (b a : Access) : Bool :=
  s.keepsHome b a || (((a.wr && b.kind.isLoad) || a.seq != 0 || b.seq != 0) && !s.crossed a)

/-- Whether no earlier access of its activation keeps an access back by a rule: none that is still to be performed, and no acquire that
is still to be answered (spec/15 R305). -/
def noneBefore (s : State) (keeps : Access → Access → Bool) (a : Access) : Bool :=
  s.accesses.all (fun b => b.aid != a.aid || a.id ≤ b.id || b.kind == .sync || b.kind == .null || !keeps b a) &&
  s.replies.all (fun x => x.acc.aid != a.aid || a.id ≤ x.acc.id || !x.acc.acquire)

/-- Whether an access may be performed now, as far as the earlier accesses of its activation are concerned. -/
def inOrder (s : State) (a : Access) : Bool := s.noneBefore s.keepsBack a

/-! Late faults (spec/15 R302, spec/21 R414, R417, R418). -/

/-- The context an activation runs on, unless it has ended or a purge has stopped it. -/
def runningOn (s : State) (aid : Nat) : Option Nat :=
  (s.ctxs.find? (fun e => e.2.busy && !e.2.ended && e.2.stop.isNone && e.2.aid == aid)).map (·.1)

/-- The frame that keeps the continuation of an activation that does not run. -/
def keptOn (s : State) (aid : Nat) : Option Nat :=
  (s.frames.find? (fun e => e.2.alloc && e.2.aid == aid && (e.2.cont = .parked || e.2.cont = .runnable || e.2.cont = .trapped))).map (·.1)

/-- The places of the held operations of an activation after it parks or traps there: one in a chain stays, and is translated anew when
the instruction is performed again; any other goes (spec/05 R106, spec/14 R294). -/
def clearPlaces (s : State) (aid : Nat) : State :=
  { s with accesses := s.accesses.filterMap (fun b =>
      if b.kind == .sync && b.aid == aid then (if b.seq == 0 then none else some { b with elems := [] }) else some b) }

/-- A late fault that waits: its activation has another late fault that is taken first (spec/21 R418). -/
def queueLate (s : State) (k : Nat) (i : TrapInfo) : State :=
  s.setFrame k { s.frame k with lates := (s.frame k).lates ++ [i] }

/-- A late fault of an access (spec/15 R302, spec/21 R418): at the next boundary of its running activation, in place of a precise trap not
yet taken; at once for a parked one, or one that waits to be selected again; after the trap that stops it for a trapped one; without a
continuation where the activation has ended. -/
def lateFault (s : State) (a : Access) (i : TrapInfo) : State :=
  match s.runningOn a.aid with
  | some k =>
    match (s.ctx k).pend with
    | some j =>
      if j.flags.getLsbD 0 then s.queueLate (k / 4 * 128 + (s.ctx k).frame) i
      else (s.clearPlaces a.aid).onCtx k (fun st => st.takeTrap i)
    | none => (s.clearPlaces a.aid).onCtx k (fun st => st.takeTrap i)
  | none =>
    match s.keptOn a.aid with
    | some k =>
      let f := s.frame k
      if f.cont = .trapped || f.lateMark then s.queueLate k i
      else if f.cont = .parked then s.lateParked k i
      else (s.setFrame k { f with cont := .parked, wait := .nothing }).lateParked k i
    | none => s.engineTrap a.region a.part i a.rtag a.wave a.col a.opsl (a.tile % 32) (a.tile / 32)

/-- A trap that waited for the loads of its activation is taken once they have completed (spec/10 R208). -/
def settle (s : State) (aid : Nat) : State :=
  match s.runningOn aid with
  | none => s
  | some k =>
    match (s.ctx k).pend with
    | none => s
    | some i => if s.oldCount aid == 0 then s.onCtx k (fun st => st.trapNow i) else s

/-! What the home does (spec/15 R302 to R309, spec/05 R107). -/

/-- The parts of an access, each performed in one home event (spec/15 R301, R304); a FULL-setting write is one event whole (R308). -/
def partsOf (a : Access) : List (List Elem) :=
  if a.ts || a.kind == .vstf then [a.elems]
  else if a.kind == .vldg || a.kind == .vsts then a.elems.map (fun e => [e])
  else
    let b := (a.elems.head?.map (fun e => e.gva / 128)).getD 0
    [a.elems.filter (fun e => e.gva / 128 == b), a.elems.filter (fun e => e.gva / 128 != b)].filter (fun l => !l.isEmpty)

/-- Kinds that write data. -/
def writes (k : AccKind) : Bool :=
  match k with
  | .st | .vst | .vsts | .stef | .stf | .vstf => true
  | _ => false

/-- The state of any of the words that a few bytes touch. -/
def anyWord (s : State) (pa n : Nat) (v : BitVec 2) : Bool := isScratch pa && (wordsOf pa n).any (fun w => s.feOf w == v)
def allWords (s : State) (pa n : Nat) (v : BitVec 2) : Bool := (wordsOf pa n).all (fun w => s.feOf w == v)

/-- Whether the access's slot is its region's trap operator. -/
def byTrapOp (s : State) (a : Access) : Bool := hTrapOp (s.handler a.tile a.opsl.toNat a.col a.wave)

/-- The fault that the home finds in one element (spec/15 R302): ownership, the heap, word states, sequence pages. -/
def homeBad (s : State) (a : Access) (e : Elem) : Option (BitVec 8) :=
  let pa := s.forward e.pa
  let w := writes a.kind || a.kind == .feset
  if a.ts then none
  else if s.ownerOf pa != a.part then some Cause.perm
  else if w && (s.heapGuard a.region (s.byTrapOp a) pa a.bytes || s.spillGuard pa a.bytes) then some Cause.perm
  else if writes a.kind && s.anyWord pa a.bytes 2 then some Cause.barclob
  else if (a.kind.isLoad && a.kind != .feget || a.kind == .stef || a.kind == .stf || a.kind == .vstf) && s.anyWord pa a.bytes 3 then
    some Cause.poison
  else if writes a.kind && e.seqPage then s.seqCheck a.part pa a.bytes
  else none

/-- Where an element of an access stands for the errors of bytes: tile memory has keys of its own. -/
def uceKey (s : State) (a : Access) (e : Elem) : Nat := if a.ts then 2 ^ 48 + a.tile * 0x80000 + e.pa else s.forward e.pa

/-- Reads one element. -/
def readElem (s : State) (a : Access) (e : Elem) : Nat :=
  if a.ts then s.tsRead a.tile e.pa a.bytes else s.rmem e.pa a.bytes

/-- Sets the state of the words of an element. -/
def setWords (s : State) (pa n : Nat) (v : BitVec 2) : State := (wordsOf pa n).foldl (fun st w => st.setFe w v) s

/-- The store to an aperture: the copy is queued on its channel (spec/17 R340, R342). -/
def apertureStore (s : State) (a : Access) (core ch : Nat) : State :=
  let v := a.data.toNat
  let (n, s1) := s.fresh
  s1.setCopies core ch (s1.copies core ch ++ [{
    id := n, tpl := bits v 0 10, count := bits v 48 16, offset := bits v 16 32,
    reserved := bits v 13 3 != 0, region := a.region, col := a.col, wave := a.wave, rtag := a.rtag,
    token := some (a.tile, bits v 10 3) }])

/-- The agent of an access to one of its elements. -/
def byOf (a : Access) (e : Elem) : By := { part := a.part, col := a.col, rtag := a.rtag, die := a.tile / 512, nc := e.nc }

/-- Performs the write or the state change of one element. -/
def writeElem (s : State) (a : Access) (e : Elem) : State :=
  let v := lane (8 * a.bytes) a.data e.lane
  if a.ts then (if writes a.kind then s.tput a.tile e.pa a.bytes v else s)
  else
    let pa := s.forward e.pa
    match placeOf pa with
    | .aperture c ch _ => s.apertureStore a c ch
    | _ =>
      if writes a.kind then
        let s1 := s.homeWrite e.pa a.bytes v (byOf a e)
        match a.kind with
        | .stef | .stf | .vstf => s1.setWords pa a.bytes 1
        | _ => s1
      else if a.kind == .feset then s.setFe pa (BitVec.ofNat 2 (v % 4))
      else if a.kind.isLoad then s.homeRead e.pa a.bytes (byOf a e)
      else s

/-- Performs the parts of an access in order, to the first that faults: the state, which parts were performed, and the fault with
its address. -/
def doParts (s : State) (a : Access) : List (List Elem) → (p done : Nat) → State × Nat × Option (BitVec 8 × Elem)
  | [], _, done => (s, done, none)
  | es :: rest, p, done =>
    match es.findSome? (fun e => (s.homeBad a e).map (fun c => (c, e))) with
    | some f => (s, done, some f)
    | none =>
      match (if a.kind.isLoad && a.kind != .feget then es.find? (fun e => s.hasUce (s.uceKey a e) a.bytes) else none) with
      | some e => (s, done, some (Cause.uce, e))
      | none => doParts (es.foldl (fun st e => st.writeElem a e) s) a rest (p + 1) (done + 2 ^ p)

/-- The value that a load writes (spec/15 R303, R304, R309). -/
def loadValue (s : State) (a : Access) : Nat :=
  (a.elems.map (fun e => s.readElem a e * 2 ^ (8 * a.bytes * e.lane))).foldl (· + ·) 0

/-- Sign- or zero-extension of a scalar load. -/
def extLoad (sx : Bool) (bytes v : Nat) : Word :=
  if sx && v.testBit (8 * bytes - 1) then BitVec.ofInt 64 ((v : Int) - (2 ^ (8 * bytes) : Nat)) else BitVec.ofNat 64 v

/-- The outstanding loads of a register once one of them has been answered: those issued before it write nothing any more. -/
def loadsAfter (m : SMap (List Nat)) (r id : Nat) : SMap (List Nat) :=
  match (lget [] m r).filter (fun x => id < x) with
  | [] => ldel m r
  | l => lset m r l

/-- The answer of a load writes its destination, unless a later instruction has written it already; a later load of the register writes it
again (spec/11 R220). -/
def answer (s : State) (a : Access) (v : Nat) : State :=
  match s.runningOn a.aid with
  | none => s
  | some k =>
    let c := s.ctx k
    match a.kind with
    | .vld | .vldg =>
      if (lget [] c.pendV a.dst).contains a.id then
        s.setCtx k { c with vregs := lset c.vregs a.dst (BitVec.ofNat 512 v), pendV := loadsAfter c.pendV a.dst a.id }
      else s
    | _ =>
      if (lget [] c.pendS a.dst).contains a.id then
        s.setCtx k { c with sregs := lset c.sregs a.dst (extLoad a.sx a.bytes v), pendS := loadsAfter c.pendS a.dst a.id }
      else s

/-- The outstanding loads without one that has faulted. -/
def loadsBut (m : SMap (List Nat)) (id : Nat) : SMap (List Nat) :=
  (m.map (fun e => (e.1, e.2.filter (· != id)))).filter (fun e => !e.2.isEmpty)

/-- A faulted load's destination keeps its old value, which is that of an earlier load once that one is answered (spec/15 R302, spec/11
R220). -/
def unpend (s : State) (a : Access) : State :=
  match s.runningOn a.aid with
  | none => s
  | some k => s.setCtx k { s.ctx k with pendS := loadsBut (s.ctx k).pendS a.id, pendV := loadsBut (s.ctx k).pendV a.id }

def dropAccess (s : State) (id : Nat) : State := { s with accesses := s.accesses.filter (fun b => b.id != id) }

/-- The scratchpad words of n bytes that are found uncorrectable become POISON (spec/21 R424). -/
def poisonWord (s : State) (pa n : Nat) : State :=
  if isScratch pa then (wordsOf pa n).foldl (fun st x => if st.hasUce x 4 then st.setFe x 3 else st) s else s

/-- The late fault of an access: what its trap record says. -/
def lateInfo (a : Access) (c : BitVec 8) (done : Nat) (e : Elem) : TrapInfo :=
  {
    cause := c, flags := if a.dindex = 0xFFFF then 1 else 5, arg := BitVec.ofNat 16 a.seq, parts := BitVec.ofNat 32 done,
    addr := BitVec.ofNat 64 e.gva, ip := a.ip, word := a.word, dindex := a.dindex }

/-- The end of a faulted access: an uncorrectable error is contained, any other fault is late (spec/15 R302, spec/21 R424). A chain access
that faults at its home counts as performed for its successors, and closes its chain on SD = last: spec/05 R105 and spec/15 R302 do not
say (DESIGN CHOICE, log entry 63). -/
def accessFault (s : State) (a : Access) (done : Nat) (f : BitVec 8 × Elem) : State :=
  let s1 := ((s.dropAccess a.id).unpend a).chainDone a
  if f.1 = Cause.uce then
    (s1.poisonWord (s1.uceKey a f.2) a.bytes).uceContain a.region a.part (lateInfo a f.1 done f.2) a.rtag a.wave a.col a.opsl (a.tile % 32)
      (a.tile / 32)
  else ((s1.lateFault a (lateInfo a f.1 done f.2)).settle a.aid).wakeUp

/-- The answer to a store or state write that its homes outside the core have performed leaves (spec/08 R162). Nothing waits for it. -/
def ackStore (s : State) (a : Access) : State :=
  if a.ride = .none || a.kind.isLoad then s else (s.sendLegs a.trip false false .reply (s.replyLegs (a.pieces 0 true))).2

/-- Performs an access at its home and answers it; the value of a load from a home outside the core is on its way back (spec/08 R162). -/
def performAccess (s : State) (a : Access) : State :=
  let v := s.loadValue a
  match s.doParts a (partsOf a) 0 0 with
  | (s1, done, some f) => s1.accessFault a done f
  | (s1, _, none) =>
    let s2 := if a.kind == .feget then
        s1.answer a ((a.elems.head?.map (fun e => (s1.feOf (s1.forward e.pa)).toNat)).getD 0)
      else if a.kind.isLoad then
        (if a.ride = .none then s1.answer a v else { s1 with replies := s1.replies ++ [{ acc := a, val := v }] })
      else s1.ackStore a
    (((s2.dropAccess a.id).chainDone a).settle a.aid).wakeUp

/-- The value of a load comes back (spec/15 R305). -/
def takeReply (s : State) (k : Nat) (x : Reply) : State :=
  ((({ s with replies := dropAt s.replies k } : State).answer x.acc x.val).settle x.acc.aid).wakeUp

/-! Issue. -/

/-- Whether an element's home lies outside the core: the access then rides the fabric (spec/01 R18). -/
def isFar (ts : Bool) (es : List Elem) : Bool := !ts && es.any (fun e => (homeNode e.pa).isSome)

/-- The access that an instruction makes, with a fresh number. -/
def mkAccess (s : State) (x : Want) (es : List Elem) : Access :=
  {
    id := s.nextId, aid := s.cur.aid, tile := s.curTile, ctx := s.focus, frame := s.cur.frame, region := s.curRegion, part := s.curPart, col := s.cur.col,
    wave := s.cur.wave, rtag := s.cur.rtag, opsl := s.cur.opsl, kind := x.kind, ts := x.mf.ts, bytes := x.bytes, sx := x.mf.sx, wr := x.write,
    elems := es, data := x.data, dst := x.dst, acquire := moAcq x.mf.mo,
    release := moRel x.mf.mo || x.kind == .stef || x.kind == .stf || x.kind == .vstf, seq := x.mf.seq.toNat, pd := x.mf.pd.toNat,
    sd := x.mf.sd.toNat, sub := s.curSub, freed := x.mf.seq == 0,
    ride := if isFar x.mf.ts es then .fresh else .none, word := s.cur.word, ip := s.cur.ip, dindex := s.cur.dindex }

/-- The destination register waits for the answer (spec/11 R220); s0 waits for none. -/
def pendDst (s : State) (a : Access) : State :=
  match a.kind with
  | .vld | .vldg => s.setCur { s.cur with pendV := lset s.cur.pendV a.dst (lget [] s.cur.pendV a.dst ++ [a.id]) }
  | .ld | .feget =>
    if a.dst == 0 then s else s.setCur { s.cur with pendS := lset s.cur.pendS a.dst (lget [] s.cur.pendS a.dst ++ [a.id]) }
  | _ => s

/-- The access is on its way: counted as outstanding, and in the replay buffer if its SEQ is not 0. -/
def sendAccess (s : State) (a : Access) : State :=
  let s1 := ({ s with nextId := s.nextId + 1, accesses := s.accesses ++ [a] }).pendDst a
  if a.seq == 0 then s1 else s1.chainArrive a

/-- Whether one more access would take a count above 63 (spec/19 R381). -/
def countFull (s : State) (a : Access) : Bool :=
  (a.kind.isLoad && 63 ≤ s.oldCount s.cur.aid) || (a.inOst && 63 ≤ s.ostCount s.cur.aid)

/-- Whether an aperture store must wait: its token is BUSY, or four copies are queued on its channel (spec/17 R341). -/
def apertureFull (s : State) (a : Access) : Bool :=
  a.elems.any (fun e => !a.ts && (match placeOf e.pa with
    | .aperture c ch _ =>
      s.tokenOf s.curTile (bits a.data.toNat 10 3) == 1 ||
      4 ≤ (s.copies c ch).length + (s.accesses.filter (fun b => !b.ts && b.elems.any (fun y => placeOf y.pa = .aperture c ch 0))).length
    | _ => false))

/-- An accepted aperture store sets its token BUSY (spec/17 R341). -/
def takeToken (s : State) (a : Access) : State :=
  if a.elems.any (fun e => !a.ts && (match placeOf e.pa with
    | .aperture _ _ _ => true
    | _ => false))
  then s.setToken s.curTile (bits a.data.toNat 10 3) 1 else s

/-- The issue of a load, a store or a state access (spec/15 R300 to R305). One that is local to the tile is performed at once where
nothing is before it. -/
def issueAccess (s : State) (x : Want) : Act :=
  match s.check x with
  | .fault i => .trap i
  | .miss s1 => .hold s1 true
  | .ok es =>
    let a := s.mkAccess x es
    if s.countFull a || s.apertureFull a then .hold s true
    else if x.mf.ts && x.write && x.elems.any (fun e => s.mmatReads e.2 x.bytes) then .hold s false
    else
      let s1 := ((s.takeToken a).sendAccess a).advance
      if a.ts && a.seq == 0 && s1.inOrder a then .done (s1.performAccess a) else .done s1

/-- The null entry of a chain access that is not performed (spec/09 R192). -/
def nullEntry (s : State) (mf : MemF) : State :=
  let a := s.mkAccess { mf := { mf with ts := false, mo := .plain } } []
  s.sendAccess a

/-- An instruction of layout M under its predicate: one that is not performed sends its null entry (spec/09 R192, spec/15 R315). -/
def performM (s : State) (p : Pred) (mf : MemF) (rs : List SReg) (vs : List VReg) (a : Act) : Host.Outcome State Fault Refusal :=
  if s.holds p || mf.seq == 0 then s.perform p rs vs a
  else if 63 ≤ s.ostCount s.cur.aid then .next (s.finish (.hold s true))
  else .next (s.nullEntry mf).advance

/-! Operations that hold their activation until they are answered (spec/15 R306, R310). -/

/-- The access that keeps a held operation's place in its chain, if it has one already (spec/05 R106). -/
def heldPlace (s : State) (mf : MemF) : Option Access :=
  s.accesses.find? (fun b => b.kind == .sync && b.aid == s.cur.aid && b.ip == s.cur.ip && b.seq == mf.seq.toNat)

/-- A late fault of a held operation: it names the instruction, and is taken at the boundary after it (spec/15 R302). -/
def syncFault (s : State) (a : Access) (c : BitVec 8) (e : Elem) : State :=
  let s1 := s.advance
  if c = Cause.uce then
    (s1.poisonWord (s1.uceKey a e) a.bytes).uceContain a.region a.part (lateInfo a c 0 e) a.rtag a.wave a.col a.opsl (a.tile % 32) (a.tile / 32)
  else s1.takeTrap (lateInfo a c 0 e)

/-- A held operation with its translation: performed once its place in its chain has come and nothing earlier blocks it. One that came to
a closed chain is performed as if its SEQ were 0, and is counted once (spec/05 R106). `early` says what it does at the home while only
the order of R116 keeps it back: a synchronising load whose words are not FULL waits there, and observes nothing (spec/15 R306). -/
def syncGo (s : State) (a : Access) (early : State → Access → Option Act) (act : State → Access → Act) : Act :=
  let late := fun (st : State) => a.seq != 0 && st.accesses.any (fun b => b.id == a.id && b.freed)
  let s1 := if a.seq == 0 || late s then s else s.chainArrive { a with kind := .sync }
  let b : Access := if late s1 then { a with seq := 0 } else a
  if !(b.seq == 0 || s1.chainReady a) then .hold s1 false
  else s1.heldLegs false (if b.ts then [] else s1.requests (b.pieces b.data.toNat b.wr)) (s1.replyLegs (b.pieces 0 false)) (
    if s1.inOrder b then act s1 b
    else if s1.noneBefore s1.keepsHome b then (early s1 b).getD (.hold s1 false)
    else .hold s1 false)

/-- Performs a held operation. `act` says what the home does with the access. An operation that is held again keeps the translation
it was given (spec/14 R294); one that resumes after a park takes over its entry in the chain and is translated anew. -/
def syncOp (s : State) (x : Want) (early : State → Access → Option Act) (act : State → Access → Act) : Act :=
  let place := s.heldPlace x.mf
  match place.filter (fun b => !b.elems.isEmpty) with
  | some b => s.syncGo { b with kind := x.kind } early act
  | none =>
    match s.check x with
    | .fault i => .trap i
    | .miss s1 => .hold s1 true
    | .ok es =>
      if 63 ≤ s.oldCount s.cur.aid || (place.isNone && x.mf.seq != 0 && 63 ≤ s.ostCount s.cur.aid) then .hold s true
      else if x.mf.ts && x.write && x.elems.any (fun e => s.mmatReads e.2 x.bytes) then .hold s false
      else
        let a0 := s.mkAccess x es
        match place with
        | some b =>
          let s1 : State := { s with accesses := s.accesses.map (fun q => if q.id == b.id then { q with elems := es } else q) }
          s1.syncGo { a0 with id := b.id, freed := b.freed } early act
        | none =>
          if a0.seq == 0 && s.inOrder a0 && !isFar x.mf.ts es then act s a0
          else ({ s with nextId := s.nextId + 1, accesses := s.accesses ++ [{ a0 with kind := .sync }] } : State).syncGo a0 early act

/-- A held operation has been performed. -/
def syncDone (s : State) (a : Access) : State := ((s.dropAccess a.id).chainDone a)

end State

end Sys2Proof.Machine
end

