-- ==== Sys2Proof/Machine/Mem.lean ====
section
/-!
DEFINITION. Machine/Mem.lean: loads and stores, full/empty instructions, fences, cache operations and operand slot claims (spec/15
R297 to R309, R311 to R313).
-/

namespace Sys2Proof.Machine

namespace State

/-- The address s[A] + s[B] (spec/15 R300). -/
def addr (s : State) (a b : SReg) : Nat := (s.rdS a + s.rdS b).toNat

/-- Elements of a vector access: 512 / w of them, one after the other (spec/15 R303). -/
def vecElems (addr n : Nat) : List (Nat × Nat) := (List.range (64 / n)).map (fun i => (i, (addr + i * n) % 2 ^ 64))

/-- Elements of VLDG and VSTS (spec/15 R304). -/
def gatherElems (s : State) (a : SReg) (b : VReg) (n : Nat) : List (Nat × Nat) :=
  (List.range (if n = 8 then 8 else 16)).map (fun i => (i, ((s.rdS a).toNat + lane 32 (s.rdV b) i) % 2 ^ 64))

/-- A scalar as the data of an access. -/
def sdata (s : State) (c : SReg) : Vec := (s.rdS c).setWidth 512

end State

/-- LD (spec/15 R303). -/
def execLd (p : Pred) (mf : MemF) (d a b : SReg) (s : State) : Host.Outcome State Fault Refusal :=
  s.performM p mf [a, b] [] (s.issueAccess { kind := .ld, mf := mf, bytes := widthBytes mf.wd, elems := [(0, s.addr a b)], dst := d.toNat })

/-- ST; with WD 0b11 at offset 0 of an aperture it starts a copy (spec/15 R303, R314). -/
def execSt (p : Pred) (mf : MemF) (a b c : SReg) (s : State) : Host.Outcome State Fault Refusal :=
  s.performM p mf [a, b, c] [] (s.issueAccess { kind := .st, mf := mf, write := true, aperture := mf.wd == .d, bytes := widthBytes mf.wd,
                                                elems := [(0, s.addr a b)], data := s.sdata c })

/-- VLD (spec/15 R303). -/
def execVld (p : Pred) (mf : MemF) (d : VReg) (a b : SReg) (s : State) : Host.Outcome State Fault Refusal :=
  s.performM p mf [a, b] [] (s.issueAccess { kind := .vld, mf := mf, bytes := widthBytes mf.wd,
                                             elems := State.vecElems (s.addr a b) (widthBytes mf.wd), dst := d.toNat })

/-- VST (spec/15 R303). -/
def execVst (p : Pred) (mf : MemF) (a b : SReg) (c : VReg) (s : State) : Host.Outcome State Fault Refusal :=
  s.performM p mf [a, b] [c] (s.issueAccess { kind := .vst, mf := mf, write := true, bytes := widthBytes mf.wd,
                                              elems := State.vecElems (s.addr a b) (widthBytes mf.wd), data := s.rdV c })

/-- VLDG: lanes from g upward become zero (spec/15 R304). -/
def execVldg (p : Pred) (mf : MemF) (d : VReg) (a : SReg) (b : VReg) (s : State) : Host.Outcome State Fault Refusal :=
  s.performM p mf [a] [b] (s.issueAccess { kind := .vldg, mf := mf, gather := true, bytes := widthBytes mf.wd,
                                           elems := s.gatherElems a b (widthBytes mf.wd), dst := d.toNat })

/-- VSTS (spec/15 R304). -/
def execVsts (p : Pred) (mf : MemF) (a : SReg) (b c : VReg) (s : State) : Host.Outcome State Fault Refusal :=
  s.performM p mf [a] [b, c] (s.issueAccess { kind := .vsts, mf := mf, write := true, gather := true, bytes := widthBytes mf.wd,
                                              elems := s.gatherElems a b (widthBytes mf.wd), data := s.rdV c })

namespace State

/-- Wait entries of a scratchpad in use: waiters and waiting STEFs (spec/15 R307). -/
def waitUsed (s : State) (core : Nat) : Nat :=
  let here := fun pa => match placeOf pa with
    | .scratch c _ => c == core
    | _ => false
  (s.frames.filter (fun e => match e.2.wait with
    | .words _ pas => e.2.cont = .parked && !e.2.removed && pas.any here
    | _ => false)).length +
  (s.accesses.filter (fun a => a.waiting && a.resendAt == 0 && a.elems.any (fun e => here e.pa))).length

/-- A synchronising load that finds a word not FULL parks until its words are FULL or POISON, or to try again if no wait entry is free
(spec/15 R306, R307). -/
def syncPark (s : State) (a : Access) (pas : List Nat) : Act :=
  let gva := (a.elems.head?.map (·.gva)).getD 0
  .park (s.clearPlaces a.aid) 6
    (if Config.waitEntries ≤ s.waitUsed s.curCore then .wordsRetry gva pas (s.clkOf s.curCore + 1024) else .words gva pas) false

/-- The words of a synchronising load, at their homes. -/
def syncWords (s : State) (a : Access) : List Nat := a.elems.flatMap (fun e => wordsOf (s.forward e.pa) a.bytes)

/-- A synchronising load that only the order of R116 keeps back waits at its home if its words are not FULL (spec/15 R306). -/
def syncEarly (s : State) (a : Access) : Option Act :=
  if a.elems.any (fun e => (s.homeBad { a with kind := .ld } e).isSome) || (s.syncWords a).all (fun w => s.feOf w == 1) then none
  else some (s.syncPark a (s.syncWords a))

/-- A synchronising load at its home (spec/15 R306, R307). -/
def syncLoad (empty : Bool) (put : State → Nat → State) (s : State) (a : Access) : Act :=
  let pas := s.syncWords a
  match a.elems.findSome? (fun e => (s.homeBad { a with kind := .ld } e).map (fun c => (c, e))) with
  | some f => .done ((s.syncDone a).syncFault a f.1 f.2)
  | none =>
    if pas.all (fun w => s.feOf w == 1) then
      match a.elems.find? (fun e => s.hasUce (s.forward e.pa) a.bytes) with
      | some e => .done ((s.syncDone a).syncFault a Cause.uce e)
      | none =>
        let v := s.loadValue a
        let s1 := if empty then pas.foldl (fun st w => st.setFe w 0) s else s
        .ok (put (s1.syncDone a) v).wakeUp
    else s.syncPark a pas

end State

/-- LDF (spec/15 R306). -/
def execLdf (p : Pred) (mf : MemF) (d a b : SReg) (s : State) : Host.Outcome State Fault Refusal :=
  s.performM p mf [a, b] [] (s.syncOp { kind := .ld, mf := mf, fe := true, bytes := widthBytes mf.wd, elems := [(0, s.addr a b)] }
    State.syncEarly (State.syncLoad false (fun st v => st.wrS d (State.extLoad mf.sx (widthBytes mf.wd) v))))

/-- LDFE: the words become EMPTY in the event of the read (spec/15 R306). -/
def execLdfe (p : Pred) (mf : MemF) (d a b : SReg) (s : State) : Host.Outcome State Fault Refusal :=
  s.performM p mf [a, b] [] (s.syncOp { kind := .ld, mf := mf, fe := true, bytes := widthBytes mf.wd, elems := [(0, s.addr a b)] }
    State.syncEarly (State.syncLoad true (fun st v => st.wrS d (State.extLoad mf.sx (widthBytes mf.wd) v))))

/-- STEF (spec/15 R308). -/
def execStef (p : Pred) (mf : MemF) (a b c : SReg) (s : State) : Host.Outcome State Fault Refusal :=
  s.performM p mf [a, b, c] [] (s.issueAccess { kind := .stef, mf := mf, write := true, fe := true, bytes := widthBytes mf.wd,
                                                elems := [(0, s.addr a b)], data := s.sdata c })

/-- STF (spec/15 R308). -/
def execStf (p : Pred) (mf : MemF) (a b c : SReg) (s : State) : Host.Outcome State Fault Refusal :=
  s.performM p mf [a, b, c] [] (s.issueAccess { kind := .stf, mf := mf, write := true, fe := true, bytes := widthBytes mf.wd,
                                                elems := [(0, s.addr a b)], data := s.sdata c })

/-- VLDF: every word it covers in one home event (spec/15 R306). -/
def execVldf (p : Pred) (mf : MemF) (d : VReg) (a b : SReg) (s : State) : Host.Outcome State Fault Refusal :=
  s.performM p mf [a, b] [] (s.syncOp { kind := .vld, mf := mf, fe := true, bytes := widthBytes mf.wd,
                                        elems := State.vecElems (s.addr a b) (widthBytes mf.wd) }
    State.syncEarly (State.syncLoad false (fun st v => st.wrV d (BitVec.ofNat 512 v))))

/-- VSTF (spec/15 R308). -/
def execVstf (p : Pred) (mf : MemF) (a b : SReg) (c : VReg) (s : State) : Host.Outcome State Fault Refusal :=
  s.performM p mf [a, b] [c] (s.issueAccess { kind := .vstf, mf := mf, write := true, fe := true, bytes := widthBytes mf.wd,
                                              elems := State.vecElems (s.addr a b) (widthBytes mf.wd), data := s.rdV c })

/-- FEGET (spec/15 R309). -/
def execFeget (p : Pred) (mf : MemF) (d a b : SReg) (s : State) : Host.Outcome State Fault Refusal :=
  s.performM p mf [a, b] [] (s.issueAccess { kind := .feget, mf := mf, fe := true, bytes := 4, elems := [(0, s.addr a b)], dst := d.toNat })

/-- FESET (spec/15 R309). -/
def execFeset (p : Pred) (mf : MemF) (a b c : SReg) (s : State) : Host.Outcome State Fault Refusal :=
  s.performM p mf [a, b, c] [] (s.issueAccess { kind := .feset, mf := mf, write := true, fe := true, bytes := 4,
                                                elems := [(0, s.addr a b)], data := s.sdata c })

/-- FENCE: held until every earlier access of the activation has been performed (spec/15 R311). -/
def execFence (p : Pred) (mf : MemF) (s : State) : Host.Outcome State Fault Refusal :=
  s.performM p mf [] [] (if (s.pendingOf s.cur.aid).isEmpty then .ok s else .hold s false)

namespace State

/-- The 128 B block of an address, for a cache operation. -/
def lineWant (s : State) (mf : MemF) (a b : SReg) : Want := { mf := mf, elems := [(0, s.addr a b)] }

/-- The copies of a line go back: the slice's line stays valid and clean, gateway copies too; an uncorrectable error that this reveals in
a dirty line is charged to its owner (spec/14 R287, spec/15 R312, spec/21 R424). -/
def cleanLine (s : State) (num : Nat) : State :=
  let bad := s.lines.filter (fun y => y.num == num && y.dirty && s.hasUce (num * 128) 128)
  { s with lines := s.lines.map (fun y => if y.num == num then { y with dirty := false } else y), reveals := s.reveals ++ bad }

/-- A line leaves the slice and every gateway cache. -/
def invalidateLine (s : State) (num : Nat) : State := { s with lines := s.lines.filter (fun y => y.num != num) }

/-- Whether an earlier access of the activation to the 128 B block of an address is still to be performed (spec/15 R312). -/
def blockBusy (s : State) (ts : Bool) (pa : Nat) : Bool :=
  s.accesses.any (fun b => b.aid == s.cur.aid && b.kind != .sync && b.kind != .null && b.ts == ts &&
    b.elems.any (fun y => (if ts then y.pa else s.forward y.pa) / 128 == (if ts then pa else s.forward pa) / 128))

/-- CWB, CINV and PREF once they are translated: after every earlier access of the activation to the block, which the request has reached;
`f` is the effect on a block homed in HBM (spec/15 R312, spec/08 R162). -/
def onBlock (s : State) (ts : Bool) (es : List Elem) (f : Elem → State) : Act :=
  match es.head? with
  | none => .ok s
  | some e =>
    if s.blockBusy ts e.pa then .hold s false
    else if ts || placeOf (s.forward e.pa) ≠ .hbm then .ok s
    else s.heldVia [{ pa := e.pa, n := 0 }] (.ok (f e))

/-- CWB and CINV (spec/15 R312). -/
def cacheOp (s : State) (x : Want) (f : Elem → State) : Act :=
  match s.check x with
  | .fault i => .trap i
  | .miss s1 => .hold s1 true
  | .ok es => s.onBlock x.mf.ts es f

/-- What PREF brings: the line into the slice of its home and, from another die, into the die's gateway cache (spec/15 R312); a page marked
NC allocates none (spec/14 R286). -/
def prefetch (s : State) (e : Elem) : State :=
  let pa := s.forward e.pa
  if e.nc then s
  else
    let s1 := s.fillLine { num := pa / 128, sectors := 0xF }
    if homeDie pa == s.curDie then s1 else s1.fillLine { num := pa / 128, sectors := 0xF, gw := some s.curDie }

end State

/-- CWB: dirty copies go back to the home, whose line is written to HBM and stays valid and clean (spec/15 R312). -/
def execCwb (p : Pred) (mf : MemF) (a b : SReg) (s : State) : Host.Outcome State Fault Refusal :=
  s.performM p mf [a, b] [] (s.cacheOp (s.lineWant mf a b) (fun e => s.cleanLine (s.forward e.pa / 128)))

/-- CINV: as CWB, then the line is invalid in L2 and in every gateway cache (spec/15 R312). -/
def execCinv (p : Pred) (mf : MemF) (a b : SReg) (s : State) : Host.Outcome State Fault Refusal :=
  s.performM p mf [a, b] [] (s.cacheOp (s.lineWant mf a b) (fun e =>
    (s.cleanLine (s.forward e.pa / 128)).invalidateLine (s.forward e.pa / 128)))

/-- PREF: it waits for its translation as any access does (spec/15 R300); a prefetch that would fault is dropped (spec/15 R312). -/
def execPref (p : Pred) (mf : MemF) (a b : SReg) (s : State) : Host.Outcome State Fault Refusal :=
  s.performM p mf [a, b] [] (match s.check (s.lineWant mf a b) with
    | .fault _ => .ok s
    | .miss s1 => .hold s1 true
    | .ok es => s.onBlock mf.ts es s.prefetch)

namespace State

/-- The core, island and claim key that a selector names: none for a reserved field or an RCORE outside the region (spec/15 R313). -/
def claimPlace (s : State) (w : Word) : Option (Nat × Nat × Nat) :=
  let v := w.toNat
  if bits v 9 55 != 0 then none
  else ((s.region s.curRegion).coreAt (bits v 0 4)).map (fun c => (c, bits v 4 1, bits v 5 1 * 8 + bits v 6 3))

/-- Claim records of a slot. -/
def claimsAt (s : State) (x : Nat × Nat × Nat) : List (BitVec 5 × BitVec 16) := lget [] (s.island x.1 x.2.1).claims x.2.2
def setClaims (s : State) (x : Nat × Nat × Nat) (l : List (BitVec 5 × BitVec 16)) : State :=
  s.setIsland x.1 x.2.1 { s.island x.1 x.2.1 with claims := lset (s.island x.1 x.2.1).claims x.2.2 l }

end State

/-- OSCLM: adds a record of the activation's colour and request tag; the 17th faults SLOT (spec/15 R313). -/
def execOsclm (p : Pred) (mf : MemF) (d a : SReg) (s : State) : Host.Outcome State Fault Refusal :=
  s.performM p mf [a] [] (match s.claimPlace (s.rdS a) with
    | none => .trap (s.faultOf Cause.slot)
    | some x =>
      if 16 ≤ (s.claimsAt x).length then .trap (s.faultOf Cause.slot)
      else .ok ((s.setClaims x (s.claimsAt x ++ [(s.cur.col, s.cur.rtag)])).wrS d (BitVec.ofNat 64 ((s.claimsAt x).length + 1))))

/-- OSREL: removes one record of the activation's colour and request tag (spec/15 R313). -/
def execOsrel (p : Pred) (mf : MemF) (d a : SReg) (s : State) : Host.Outcome State Fault Refusal :=
  s.performM p mf [a] [] (match s.claimPlace (s.rdS a) with
    | none => .trap (s.faultOf Cause.slot)
    | some x =>
      match firstIdx (· == (s.cur.col, s.cur.rtag)) (s.claimsAt x) with
      | none => .trap (s.faultOf Cause.slot)
      | some k => .ok ((s.setClaims x (dropAt (s.claimsAt x) k)).wrS d (BitVec.ofNat 64 ((s.claimsAt x).length - 1))))

end Sys2Proof.Machine
end

