-- ==== Sys2Proof/Machine/Atomics.lean ====
section
/-!
DEFINITION. Machine/Atomics.lean: the atomics, performed in the arithmetic unit of the home (spec/15 R310).
-/

namespace Sys2Proof.Machine

/-- The result of an atomic on a value of n bytes (spec/15 R310). -/
def atomResult (op : AtomOp) (n old x cmp : Nat) : Nat :=
  let w := 8 * n
  let sg := fun (v : Nat) => (if v.testBit (w - 1) then (v : Int) - (2 ^ w : Nat) else v)
  match op with
  | .add => (old + x) % 2 ^ w
  | .min => if sg x < sg old then x else old
  | .max => if sg old < sg x then x else old
  | .and => old &&& x
  | .or => old ||| x
  | .xor => old ^^^ x
  | .swap => x
  | .cas => if old = cmp then x else old
  | .fadd => (fAdd (if n = 4 then .f32 else .f64) .rne .none old x).v

/-- Whether an atomic writes: an ACAS that does not match writes nothing. -/
def atomWrites (op : AtomOp) (old cmp : Nat) : Bool := op != .cas || old == cmp

namespace State

/-- The fault that the home finds for an atomic (spec/15 R302, R310). -/
def atomBad (s : State) (a : Access) (e : Elem) (w : Bool) : Option (BitVec 8) :=
  let pa := s.forward e.pa
  if a.ts then none
  else if s.ownerOf pa != a.part then some Cause.perm
  else if w && (s.heapGuard a.region (s.byTrapOp a) pa a.bytes || s.spillGuard pa a.bytes) then some Cause.perm
  else if s.anyWord pa a.bytes 2 then some Cause.barclob
  else if s.anyWord pa a.bytes 3 then some Cause.poison
  else if w && e.seqPage then s.seqCheck a.part pa a.bytes
  else none

/-- An atomic at its home: one home event. -/
def atomAt (op : AtomOp) (sx : Bool) (d : SReg) (x cmp : Nat) (s : State) (a : Access) : Act :=
  match a.elems.head? with
  | none => .ok s
  | some e =>
    let old := s.readElem a e
    let w := atomWrites op old cmp
    match s.atomBad a e w with
    | some c => .done ((s.syncDone a).syncFault a c e)
    | none =>
      if s.hasUce (s.uceKey a e) a.bytes then .done ((s.syncDone a).syncFault a Cause.uce e)
      else
        let v := atomResult op a.bytes old x cmp
        let s1 := if !w then (if a.ts then s else s.homeRead e.pa a.bytes (byOf a e))
          else if a.ts then s.tput a.tile e.pa a.bytes v
          else s.homeWrite e.pa a.bytes v (byOf a e)
        .ok ((s1.syncDone a).wrS d (extLoad sx a.bytes old)).wakeUp

/-- The shared meaning of the atomics (spec/15 R310). -/
def atomic (s : State) (op : AtomOp) (p : Pred) (mf : MemF) (d a b c : SReg) : Host.Outcome State Fault Refusal :=
  let n := widthBytes mf.wd
  s.performM p mf (if op == .cas then [a, b, c, d] else [a, b, c]) []
    (s.syncOp { kind := .ld, mf := mf, write := true, bytes := n, elems := [(0, s.addr a b)], data := s.sdata c }
      (fun _ _ => none) (atomAt op mf.sx d ((s.rdS c).toNat % 2 ^ (8 * n)) ((s.rdS d).toNat % 2 ^ (8 * n))))

end State

/-- AADD (spec/15 R310). -/
def execAadd (p : Pred) (mf : MemF) (d a b c : SReg) (s : State) : Host.Outcome State Fault Refusal :=
  s.atomic .add p mf d a b c

/-- AMIN: the signed minimum (spec/15 R310). -/
def execAmin (p : Pred) (mf : MemF) (d a b c : SReg) (s : State) : Host.Outcome State Fault Refusal :=
  s.atomic .min p mf d a b c

/-- AMAX: the signed maximum (spec/15 R310). -/
def execAmax (p : Pred) (mf : MemF) (d a b c : SReg) (s : State) : Host.Outcome State Fault Refusal :=
  s.atomic .max p mf d a b c

/-- AAND (spec/15 R310). -/
def execAand (p : Pred) (mf : MemF) (d a b c : SReg) (s : State) : Host.Outcome State Fault Refusal :=
  s.atomic .and p mf d a b c

/-- AOR (spec/15 R310). -/
def execAor (p : Pred) (mf : MemF) (d a b c : SReg) (s : State) : Host.Outcome State Fault Refusal :=
  s.atomic .or p mf d a b c

/-- AXOR (spec/15 R310). -/
def execAxor (p : Pred) (mf : MemF) (d a b c : SReg) (s : State) : Host.Outcome State Fault Refusal :=
  s.atomic .xor p mf d a b c

/-- ASWP (spec/15 R310). -/
def execAswp (p : Pred) (mf : MemF) (d a b c : SReg) (s : State) : Host.Outcome State Fault Refusal :=
  s.atomic .swap p mf d a b c

/-- ACAS: s[D] is compared, and read before it is written (spec/15 R310). -/
def execAcas (p : Pred) (mf : MemF) (d a b c : SReg) (s : State) : Host.Outcome State Fault Refusal :=
  s.atomic .cas p mf d a b c

/-- AFADD: rounded in RNE; no flag, no trap on arithmetic (spec/15 R310). -/
def execAfadd (p : Pred) (mf : MemF) (d a b c : SReg) (s : State) : Host.Outcome State Fault Refusal :=
  s.atomic .fadd p mf d a b c

end Sys2Proof.Machine
end

