-- ==== Sys2Proof/Machine/AccessEv.lean ====
section
/-!
DEFINITION. Machine/AccessEv.lean: the events of outstanding accesses (spec/15 R305 to R308, spec/05 R105), the walker (spec/14
R293), page modes (R295), migration (R296) and ownership (R290). An event that finds nothing to do changes nothing.
-/

namespace Sys2Proof.Machine

namespace State

/-- An access that its chain has let go, that has come to its home, and that nothing earlier blocks. -/
def mayPerform (s : State) (a : Access) : Bool :=
  a.kind != .sync && a.freed && (a.kind == .null || (s.rideDone a.ride && s.inOrder a))

/-- Whether every word of a full/empty store is EMPTY. -/
def allEmpty (s : State) (a : Access) : Bool := a.elems.all (fun e => s.allWords (s.forward e.pa) a.bytes 0)

/-- STEFs that wait at the home before one on a common byte, in order of arrival. -/
def stefBefore (s : State) (a : Access) : Bool :=
  (s.accesses.takeWhile (fun b => b.id != a.id || !a.waiting)).any (fun b => b.waiting && b.id != a.id && s.overlaps a b)

/-- A STEF reaches its home (spec/15 R307, R308). -/
def stefArrives (s : State) (a : Access) : State :=
  if (a.elems.findSome? (s.homeBad a)).isSome || (s.allEmpty a && !s.stefBefore a) then s.performAccess a
  else
    let core := match a.elems.head?.map (fun e => placeOf e.pa) with
      | some (.scratch c _) => c
      | _ => 0
    if Config.waitEntries ≤ s.waitUsed core then
      { s with accesses := s.accesses.map (fun b => if b.id == a.id then { b with resendAt := s.clkOf (b.tile / 32) + 256 } else b) }
    else { s with accesses := s.accesses.filter (fun b => b.id != a.id) ++ [{ a with waiting := true }] }

end State

/-- ACCESS_RESPONSE: a load or a state read is performed at its home and answered (spec/15 R305); past the accesses, k counts the values
that are on their way back, and one that has come is taken. -/
def execAccessResponse (k : Nat) (s : State) : Host.Outcome State Fault Refusal :=
  match s.accesses[k]? with
  | some a => .next (if a.kind.isLoad && s.mayPerform a then s.performAccess a else s)
  | none =>
    match s.replies[k - s.accesses.length]? with
    | some x => .next (if s.rideDone x.ride then s.takeReply (k - s.accesses.length) x else s)
    | none => .next s

/-- STORE_PERFORMED (spec/15 R305, R308). -/
def execStorePerformed (k : Nat) (s : State) : Host.Outcome State Fault Refusal :=
  match s.accesses[k]? with
  | some a =>
    .next (if a.kind.isLoad || a.waiting || a.resendAt != 0 || !s.mayPerform a then s
      else if a.kind == .stef then s.stefArrives a
      else s.performAccess a)
  | none => .next s

/-- CHAIN_ACCESS_RELEASE: an access takes its entry, and is let go once its predecessors have been performed (spec/05 R105,
R106). -/
def execChainAccessRelease (k : Nat) (s : State) : Host.Outcome State Fault Refusal :=
  match s.accesses[k]? with
  | some a =>
    .next (if a.seq == 0 || a.freed || a.kind == .sync then s
      else if s.arrived a then
        (if s.chainReady a then
          { s with accesses := s.accesses.map (fun b => if b.id == a.id then { b with freed := true } else b) }
         else s)
      else s.chainArrive a)
  | none => .next s

/-- STEF_WAKE: the waiting STEF that reached the home first is performed once every word is EMPTY (spec/15 R308). -/
def execStefWake (k : Nat) (s : State) : Host.Outcome State Fault Refusal :=
  match s.accesses[k]? with
  | some a => .next (if a.waiting && s.allEmpty a && !s.stefBefore a then s.performAccess a else s)
  | none => .next s

/-- A continuation whose wait entry's time has come, or whose cause is gone, is runnable again. -/
def State.wakeFrame (s : State) (k : Nat) : State :=
  let f := s.frame k
  if f.cont = .parked && !f.lateMark && s.waitMet k then
    s.setFrame k { f with cont := .runnable, readyAt := s.clkOf (k / 4096), promoted := none }
  else s

/-- WAIT_ENTRY_RETRY: after 1,024 clk (spec/15 R307). -/
def execWaitEntryRetry (t f : Nat) (s : State) : Host.Outcome State Fault Refusal :=
  match (s.frame (t * 128 + f)).wait with
  | .wordsRetry _ _ _ => .next (s.wakeFrame (t * 128 + f))
  | _ => .next s

/-- STEF_RESEND: every 256 clk (spec/15 R307). -/
def execStefResend (k : Nat) (s : State) : Host.Outcome State Fault Refusal :=
  match s.accesses[k]? with
  | some a =>
    .next (if a.kind == .stef && a.resendAt != 0 && a.resendAt ≤ s.clkOf (a.tile / 32) then
        { s with accesses := s.accesses.map (fun b => if b.id == a.id then { b with resendAt := 0 } else b) }
      else s)
  | none => .next s

/-- SEQ_WAIT_RETRY: after 1,024 clk (spec/20 R404). -/
def execSeqWaitRetry (t f : Nat) (s : State) : Host.Outcome State Fault Refusal :=
  match (s.frame (t * 128 + f)).wait with
  | .seqRetry _ _ _ => .next (s.wakeFrame (t * 128 + f))
  | _ => .next s

/-- A TLB with one more entry: the oldest goes when it is full. -/
def tlbFill (n : Nat) (l : List TlbEntry) (e : TlbEntry) : List TlbEntry :=
  let l1 := l.filter (fun x => !(x.vmid == e.vmid && x.asid == e.asid && x.gva < e.gva + e.size && e.gva < x.gva + x.size)) ++ [e]
  l1.drop (l1.length - n)

/-- A translation enters the TLBs of a tile and of its core (spec/14 R293). -/
def State.tlbEnter (s : State) (e : TlbEntry) (t : Nat) : State :=
  let s1 := s.setTile t { s.tile t with tlb := tlbFill 32 (s.tile t).tlb e }
  s1.setCore (t / 32) { s1.core (t / 32) with tlb := tlbFill 2048 (s1.core (t / 32)).tlb e }

/-- A walk as one who asks: the walker of its die, at the gateway (log entry 78). -/
def State.walkTrip (s : State) (w : Walk) : Trip :=
  { who := [6, w.tile, w.vmid, w.asid, w.gva], src := w.tile / 512 * 512 + 80, region := some (s.regOfTile w.tile), part := s.partOf (w.tile / 32) }

/-- What a walk reads at the homes of the entries. -/
def State.walkPieces (s : State) (w : Walk) : List Piece := (s.walkReads w.vmid w.asid w.gva).map (fun x => { pa := x.1, n := 8 })

/-- The end of a walk: its leaves take A, and D on a write; the TLBs hold the translation. -/
def State.walkEnds (k : Nat) (w : Walk) (s : State) : State :=
  let s1 := ({ s with walks := dropAt s.walks k } : State).walkTouch (w.tile / 512) w.vmid w.asid w.gva
  match s1.walk w.vmid w.asid w.gva with
  | .error _ => s1
  | .ok (e, e1, e2) =>
    let d := w.write && !e.ro
    (w.tile :: w.also).foldl (fun st t => st.tlbEnter { e with dirty := e.dirty || d } t) (s1.walkMark (w.tile / 512) e1 e2 d)

/-- TABLE_WALK: a walk completes once its reads have come to the homes of the entries (spec/08 R162); its leaves take A, and D on a write; the
TLBs of every tile that waits for it, and of their cores, hold the translation. A walk that faults fills nothing: the access that waits for it
finds the fault (spec/14 R292, R293). -/
def execTableWalk (k : Nat) (s : State) : Host.Outcome State Fault Refusal :=
  match s.walks[k]? with
  | none => .next s
  | some w => .next (s.viaFabric (s.walkTrip w) (s.walkPieces w) (State.walkEnds k w))

/-- PAGE_MODE_INTERVAL: the end of 64 µs (spec/14 R295). -/
def execPageModeInterval (s : State) : Host.Outcome State Fault Refusal :=
  .next { s with hub := { s.hub with pageAt := s.now }, pages := s.pages.map (fun e =>
    let moving := s.migs.any (fun m => m.part == s.ownerOf (e.1 * 0x10000))
    (e.1, { replicated := e.2.replicated || (s.hub.replTh != 0 && s.hub.replTh ≤ e.2.reads && e.2.writes == 0 && !moving),
            reads := 0, writes := 0 })) }

namespace State

/-- A range of memory scrubbed to zero, scratchpad states EMPTY (spec/14 R290). -/
def scrub (s : State) (a n : Nat) : State :=
  { s with mem := mscrub s.mem a n,
           uce := s.uce.filter (fun x => !(a ≤ x && x < a + n)),
           fe := s.fe.filter (fun e => !(a ≤ e.1 * 4 && e.1 * 4 < a + n)),
           lines := s.lines.filter (fun y => !(a ≤ y.num * 128 && y.num * 128 < a + n)),
           pages := s.pages.filter (fun e => !(a ≤ e.1 * 0x10000 && e.1 * 0x10000 < a + n)) }

/-- The lines of a page go back to HBM and leave every cache (spec/14 R296). -/
def writeBackPage (s : State) (pa n : Nat) : State :=
  let inn := fun (y : Line) => pa ≤ y.num * 128 && y.num * 128 < pa + n
  { s with lines := s.lines.filter (fun y => !inn y),
           reveals := s.reveals ++ s.lines.filter (fun y => inn y && y.dirty && s.hasUce (y.num * 128) 128) }

/-- Bytes copied within HBM, with the errors that they hold. -/
def moveBytes (s : State) (src dst n : Nat) : State :=
  { s with mem := mcopy s.mem src dst n,
           uce := s.uce.filter (fun x => !(dst ≤ x && x < dst + n)) ++
             (s.uce.filter (fun x => src ≤ x && x < src + n)).map (fun x => dst + (x - src)) }

/-- Copies lines of a page that is on its way. -/
def copyLines (s : State) (m : Migration) (ls : List Nat) : State :=
  ls.foldl (fun st i => st.moveBytes (m.src + 128 * i) (m.dst + 128 * i) 128) s

/-- Whether a partition owns every slice that n bytes of HBM lie in. -/
def ownsRange (s : State) (p pa n : Nat) : Bool :=
  (List.range ((n + 0xFFFFFFFF) / 0x100000000)).all (fun i =>
    placeOf (pa + i * 0x100000000) = .hbm && s.ownerOf (pa + i * 0x100000000) == p)

/-- A quiesce point of a partition (spec/14 R296): no copy, drain or message of it is in flight, those of its sequence instructions among
them. Which of them are addressed to a leaving slice is not asked for one by one (DESIGN CHOICE, log entry 64). -/
def quiesced (s : State) (p : Nat) : Bool :=
  s.cores.all (fun c => s.partOf c.1 != p ||
    (c.2.copies.all (fun q => q.2.all (fun y => !y.started)) && c.2.tcbs.all (fun b => b.2.st != .issued))) &&
  s.forks.all (fun f => f.part != p) &&
  s.fabric.all (fun f => f.2.msgs.all (fun m => m.done || (m.region.map s.partOf).getD 16 != p))

/-- Whether a stage-2 leaf of some guest of a partition still leads into a slice (spec/14 R296, spec/18 R367). -/
def leavesIn (s : State) (p sl : Nat) : Bool :=
  s.vmids.any (fun v => bits v.2.toNat 1 4 == p &&
    (s.leaves2 v.1).any (fun l => l.2.1 < (sl + 1) * 0x100000000 && sl * 0x100000000 < l.2.1 + l.2.2))

/-- TLB entries that lead into a physical page, gone everywhere. -/
def dropTlb (s : State) (bad : TlbEntry → Bool) : State :=
  { s with tiles := s.tiles.map (fun e => (e.1, { e.2 with tlb := e.2.tlb.filter (fun x => !bad x) })),
           cores := s.cores.map (fun e => (e.1, { e.2 with tlb := e.2.tlb.filter (fun x => !bad x) })) }

end State

/-- SLICE_MIGRATION: one page of a leaving slice is copied, copied again where it was written, committed; then the slice is scrubbed
and leaves (spec/14 R296). A page is that of a stage-2 leaf, of any size, and its target lies on slices that the partition owns and
that the page does not touch. An older home of a page that moves again forwards to the new one. -/
def execSliceMigration (m : MigStep) (s : State) : Host.Outcome State Fault Refusal :=
  match m with
  | .start p vmid gpa target =>
    match s.stage2 vmid gpa with
    | .error _ => .next s
    | .ok (l, pa) =>
      let src := pa / l.size * l.size
      let dst := target / l.size * l.size
      let apart := src / 0x100000000 != dst / 0x100000000 && (dst + l.size ≤ src || src + l.size ≤ dst)
      if !s.quiesced p || !s.ownsRange p src l.size || !s.ownsRange p dst l.size || !apart ||
          s.migs.any (fun x => x.src < src + l.size && src < x.src + x.size) then .next s
      else
        let s1 := (s.writeBackPage src l.size).writeBackPage dst l.size
        let inn := fun (k : Nat) => (src ≤ k * 0x10000 && k * 0x10000 < src + l.size) || (dst ≤ k * 0x10000 && k * 0x10000 < dst + l.size)
        let s2 := ({ s1 with pages := s1.pages.filter (fun e => !inn e.1) } : State).moveBytes src dst l.size
        .next { s2 with migs := s2.migs ++ [{ part := p, vmid := vmid, gpa := gpa / l.size * l.size, src := src, dst := dst,
                                              size := l.size }] }
  | .recopy k =>
    match s.migs[k]? with
    | none => .next s
    | some x => .next { s.copyLines x x.dirty with migs := setAt s.migs k { x with dirty := [] } }
  | .commit k =>
    match s.migs[k]? with
    | none => .next s
    | some x =>
      if !x.dirty.isEmpty || x.committed then .next s
      else match s.stage2 x.vmid x.gpa with
        | .error _ => .next s
        | .ok (l, _) =>
          let again := fun (y : Migration) => if y.committed && x.src ≤ y.dst && y.dst < x.src + x.size then
            { y with dst := x.dst + (y.dst - x.src) } else y
          let s1 : State := { s with migs := (setAt s.migs k { x with committed := true }).map again }
          .next ((s1.homeWrite l.entryPa 8 (l.entry % 0x10000 + x.dst) { part := x.part }).dropTlb
            (fun e => e.pa < x.src + x.size && x.src < e.pa + e.size))
  | .finish sl =>
    let a := sl * 0x100000000
    let p := s.ownerOf a
    let old := fun (x : Migration) => x.src < a + 0x100000000 && a < x.src + x.size
    if s.migs.any (fun x => !x.committed && old x) || s.leavesIn p sl || !s.quiesced p ||
        s.accesses.any (fun b => !b.ts && b.elems.any (fun e => e.pa / 0x100000000 == sl)) then .next s
    else
      let s1 := s.scrub a 0x100000000
      let s2 : State := { s1 with ownSlice := ldel s1.ownSlice sl }
      .next { s2 with migs := s2.migs.filter (fun x => !old x ||
        (List.range ((x.size + 0xFFFFFFFF) / 0x100000000)).any (fun i => s2.ownerOf (x.src + i * 0x100000000) == p)) }

/-- OWNERSHIP_SET: a unit that leaves a partition is scrubbed before its new owner reaches it (spec/14 R290); a slice leaves only at a quiesce
point of its partition (R296). The device has partitions 0 to 15 (spec/02 R22): no unit can be given to another number. -/
def execOwnershipSet (u : OwnUnit) (part : Option Nat) (s : State) : Host.Outcome State Fault Refusal :=
  if 16 ≤ part.getD 0 then .next s else
  let set := fun (m : SMap Nat) k => match part with
    | some p => lset m k p
    | none => ldel m k
  match u with
  | .core c =>
    let s1 := if (lget? s.ownCore c).isSome && lget? s.ownCore c != part then s.scrub (scratchPa c 0) 0x800000 else s
    .next { s1 with ownCore := set s.ownCore c }
  | .slice sl =>
    if (lget? s.ownSlice sl).any (fun q => part != some q && !s.quiesced q) then .next s else
    let s1 := if (lget? s.ownSlice sl).isSome && lget? s.ownSlice sl != part then s.scrub (sl * 0x100000000) 0x100000000 else s
    .next { s1 with ownSlice := set s.ownSlice sl }
  | .sram r =>
    let s1 := if (lget? s.ownSram r).isSome && lget? s.ownSram r != part then s.scrub (sramPa (r / 32) (r % 32 * 0x4000000)) 0x4000000 else s
    .next { s1 with ownSram := set s.ownSram r }

end Sys2Proof.Machine
end

