-- ==== Sys2Proof/Machine/Engine.lean ====
section
/-!
DEFINITION. Machine/Engine.lean: what the engines share: freezes (spec/17 R349), progress (spec/21 R425), the reads and writes of an
engine, tile-task records (spec/18 R362, R363), the enqueueing, release and completion of tasks (spec/17 R338, R339, spec/06 R125
to R127), and the end of a copy (spec/17 R342).
-/

namespace Sys2Proof.Machine

namespace State

/-- Whether a colour of a region is frozen, by itself or with its whole partition (spec/17 R349). -/
def isFrozen (s : State) (r : Nat) (c : BitVec 5) : Bool :=
  (s.colour r c.toNat).frozen || (s.part (s.partOf r)).wholeFrozen

/-- A progress event of a colour (spec/21 R425). -/
def progress (s : State) (r : Nat) (c : BitVec 5) : State :=
  s.setColour r c.toNat { s.colour r c.toNat with wdog := 0 }

/-- The first issue of an activation after its start or a resume is a progress event (spec/21 R425): context k issued, and its
instruction was performed. -/
def noteIssue (before : State) (k : Nat) (s : State) : State :=
  let c := before.ctx k
  let d := s.ctx k
  let f := (s.frame (k / 4 * 128 + c.frame)).cont
  let moved := if d.busy && d.aid == c.aid then d.issued != 0 else !(f = .parked || f = .trapped)
  if c.busy && c.issued == 0 && moved then s.progress (((s.core (k / 128)).region).getD (k / 128)) c.col else s

/-- The partition of a region runs: it is neither halting nor saved (spec/21 R427). -/
def regionRuns (s : State) (r : Nat) : Bool := (s.part (s.partOf r)).phase = .run

/-! Reads and writes of an engine that lies in a core (spec/05 R101, spec/14 R285, R290). -/

/-- The fault that an engine's access finds at its home, beside word states and uncorrectable bytes. -/
def engBad (s : State) (p core pa : Nat) : Option (BitVec 8) :=
  match placeOf pa with
  | .aperture _ _ _ => some Cause.attr
  | .scratch c _ => if c != core then some Cause.perm else if s.ownerOf pa != p then some Cause.perm else none
  | _ => if s.ownerOf pa != p then some Cause.perm else none

/-- An engine's translation of an address for the colour it works for, and where the access is performed. -/
def engXlate (s : State) (r p core : Nat) (c : BitVec 5) (w : BitVec 16) (gva : Nat) (write : Bool) :
    Except (BitVec 8) (TlbEntry × Nat × State) :=
  let e := s.colourEntry r c w
  match s.xlateEng (core / 16) (kVmid e) (kAsid e) gva write with
  | .error k => .error k
  | .ok (t, pa0, s1) =>
    match s1.engBad p core (s1.forward pa0) with
    | some k => .error k
    | none => .ok (t, s1.forward pa0, s1)

/-- The pieces of n bytes from an address that lie in one 64 KiB page each: address and length. -/
def pagePieces (gva n : Nat) : List (Nat × Nat) :=
  (List.range (if n == 0 then 0 else (gva % 0x10000 + n + 0xFFFF) / 0x10000)).map (fun i =>
    let lo := max gva (gva / 0x10000 * 0x10000 + 0x10000 * i)
    (lo, min (gva + n) (gva / 0x10000 * 0x10000 + 0x10000 * (i + 1)) - lo))

/-- What an engine's access to n bytes asks of their homes, where they translate (spec/08 R162). -/
def engPieces (s : State) (r p core : Nat) (c : BitVec 5) (w : BitVec 16) (wr : Bool) (gva n v : Nat) : List Piece :=
  (pagePieces gva n).flatMap (fun x => match s.engXlate r p core c w x.1 wr with
    | .error _ => []
    | .ok (_, pa, _) => [{ pa := pa, n := x.2, v := v / 256 ^ (x.1 - gva) % 256 ^ x.2, wr := wr }])

/-- An engine of a core that asks, for a colour, wave and request tag. -/
def engTrip (who : List Nat) (r p core : Nat) (c : BitVec 5) (w rtag : BitVec 16) : Trip :=
  { who := who, src := coreNode core, region := some r, part := p, col := c, wave := w, rtag := rtag }

/-- Bytes of an access that lie in the page of its first. -/
def inPage (gva n : Nat) : Nat := min n (0x10000 - gva % 0x10000)

/-- Reads n bytes that lie in one page. -/
def engReadPage (s : State) (r p core : Nat) (c : BitVec 5) (w : BitVec 16) (gva n : Nat) : Except (BitVec 8) (Nat × State) :=
  match s.engXlate r p core c w gva false with
  | .error k => .error k
  | .ok (t, pa, s1) =>
    if s1.hasUce pa n then .error Cause.uce
    else if isScratch pa && s1.anyWord pa n 3 then .error Cause.poison
    else .ok (s1.rmem pa n, s1.homeRead pa n { part := p, col := c, die := core / 16, nc := t.nc })

/-- Reads n bytes, of two pages at most: a translation holds for one page (spec/14 R291). -/
def engRead (s : State) (r p core : Nat) (c : BitVec 5) (w : BitVec 16) (gva n : Nat) : Except (BitVec 8) (Nat × State) :=
  let k := inPage gva n
  match s.engReadPage r p core c w gva k with
  | .error e => .error e
  | .ok (a, s1) =>
    if k == n then .ok (a, s1)
    else match s1.engReadPage r p core c w (gva + k) (n - k) with
      | .error e => .error e
      | .ok (b, s2) => .ok (a + b * 256 ^ k, s2)

/-- Scratchpad words of one page that a read found uncorrectable. -/
def uceMarkPage (s : State) (r p core : Nat) (c : BitVec 5) (w : BitVec 16) (gva n : Nat) : State :=
  match s.engXlate r p core c w gva false with
  | .error _ => s
  | .ok (_, pa, _) =>
    if isScratch pa then (wordsOf pa n).foldl (fun st x => if st.hasUce x 4 then st.setFe x 3 else st) s else s

/-- A scratchpad word that a read found uncorrectable becomes POISON (spec/21 R424). -/
def uceMark (s : State) (r p core : Nat) (c : BitVec 5) (w : BitVec 16) (gva n : Nat) : State :=
  (pagePieces gva n).foldl (fun st x => st.uceMarkPage r p core c w x.1 x.2) s

/-- Writes n bytes that lie in one page; a scratchpad word written becomes FULL; a BARRIER or POISON word suppresses the write
(spec/05 R107). -/
def engWritePage (s : State) (r p core : Nat) (c : BitVec 5) (w : BitVec 16) (tag : BitVec 16) (gva n v : Nat) :
    Except (BitVec 8) State :=
  match s.engXlate r p core c w gva true with
  | .error k => .error k
  | .ok (t, pa, s1) =>
    if s1.spillGuard pa n || s1.heapGuard r false pa n then .error Cause.perm
    else if s1.anyWord pa n 2 then .error Cause.barclob
    else if s1.anyWord pa n 3 then .error Cause.poison
    else if t.seq then
      (match s1.seqCheck p pa n with
       | some k => .error k
       | none => .ok (s1.homeWrite pa n v { part := p, col := c, rtag := tag, die := core / 16, nc := t.nc }))
    else
      let s2 := s1.homeWrite pa n v { part := p, col := c, rtag := tag, die := core / 16, nc := t.nc }
      .ok (if isScratch pa then s2.setWords pa n 1 else s2)

/-- Writes n bytes, of two pages at most; nothing is written where either faults. -/
def engWrite (s : State) (r p core : Nat) (c : BitVec 5) (w : BitVec 16) (tag : BitVec 16) (gva n v : Nat) :
    Except (BitVec 8) State :=
  let k := inPage gva n
  match s.engWritePage r p core c w tag gva k (if k == n then v else v % 256 ^ k) with
  | .error e => .error e
  | .ok s1 => if k == n then .ok s1 else s1.engWritePage r p core c w tag (gva + k) (n - k) (v / 256 ^ k)

end State

/-! Tile-task records (spec/18 R362). -/

def tType (v : BitVec 512) : Nat := bits v.toNat 0 8
def tClass (v : BitVec 512) : Nat := bits v.toNat 8 2
def tCplv (v : BitVec 512) : Bool := bit v.toNat 10
def tPreds (v : BitVec 512) : Nat := bits v.toNat 16 16
def tCplch (v : BitVec 512) : Nat := bits v.toNat 32 6
def tInlen (v : BitVec 512) : Nat := bits v.toNat 80 16
def tSucc (v : BitVec 512) (k : Nat) : Nat := bits v.toNat (128 + 16 * k) 16
def tOvf (v : BitVec 512) : Nat := bits v.toNat 256 64
def tInput (v : BitVec 512) : Nat := bits v.toNat 320 64
def tOper (v : BitVec 512) : Nat := bits v.toNat 384 128

/-- Successors lo to lo + n − 1 that are named. -/
def tSuccs (v : BitVec 512) (lo n : Nat) : List Nat := ((List.range n).map (fun k => tSucc v (lo + k))).filter (· != 0xFFFF)

/-- Whether a record keeps the rules (spec/18 R363); n tasks are loaded. Addresses and strides that the tables call multiples of 4 have
their low bits zero. -/
def taskOk (n : Nat) (v : BitVec 512) : Bool :=
  let o := tOper v
  let ty := tType v
  ty ≤ 6 && bits v.toNat 11 5 == 0 && tPreds v ≤ 1023 && bits v.toNat 38 2 == 0 && bits v.toNat 45 3 == 0 && bits v.toNat 96 32 == 0 &&
  (tSuccs v 0 8).all (· < n) &&
  (match ty with
   | 0 => bits o 67 61 == 0 && bits o 0 3 < 4
   | 1 => bits o 88 40 == 0 && bits o 16 2 == 0 && bits o 32 2 == 0
   | 2 => bits o 10 118 == 0
   | 3 => bits o 14 2 == 0 && bits o 64 64 == 0
   | 4 => bits o 20 108 == 0
   | _ => bits o 56 72 == 0 && bits o 0 2 == 0 && tOvf v == 0)

namespace State

/-- The partition of a core's region. -/
def partAt (s : State) (c : Nat) : Nat := s.partOf c
/-- The region of a core. -/
def regionAt (s : State) (c : Nat) : Nat := ((s.core c).region).getD c

def tcb (s : State) (c b : Nat) : Tcb := lget {} (s.core c).tcbs b
def setTcb (s : State) (c b : Nat) (x : Tcb) : State := s.setCore c { s.core c with tcbs := lset (s.core c).tcbs b x }
def delTcb (s : State) (c b : Nat) : State := s.setCore c { s.core c with tcbs := ldel (s.core c).tcbs b }

/-- The core and block of the region that hold a task's name and have not retired (spec/17 R338). -/
def taskNamed (s : State) (r : Nat) (rtag : BitVec 16) (idx : Nat) : Option (Nat × Nat) :=
  (s.region r).cores.findSome? (fun c =>
    ((s.core c).tcbs.find? (fun b => b.2.idx == some idx && b.2.rtag == rtag && b.2.st != .retired)).map (fun b => (c, b.1)))

/-- What a task carries from the activation or task that enqueued it. -/
structure TaskBy where
  col : BitVec 5
  wave : BitVec 16
  rtag : BitVec 16
  aid : Nat
  tile : Nat
  slot : BitVec 4
deriving DecidableEq, Repr

/-- Enqueues a record at a core's task engine: in the block kept for its name, or in the lowest-numbered free one (spec/17 R338,
spec/27 R449). None: no block is free. -/
def enqueueTask (s : State) (core : Nat) (raw : BitVec 512) (idx : Option Nat) (b : TaskBy) : Option (Nat × State) :=
  let r := s.regionAt core
  let held := match idx with
    | none => none
    | some i =>
      match s.taskNamed r b.rtag i with
      | none => none
      | some (c, k) => if (s.tcb c k).st = .named then some (c, k) else none
  let x : Tcb := {
    raw := raw, idx := idx, col := b.col, wave := b.wave, rtag := b.rtag, aid := b.aid, tile := b.tile, slot := b.slot,
    readyAt := s.clkOf core }
  let place := match held with
    | some (c, k) => if c == core then some k else firstFree (s.core core).tcbs 512
    | none => firstFree (s.core core).tcbs 512
  match place with
  | none => none
  | some k =>
    let old : Tcb := match held with
      | some (c, j) => s.tcb c j
      | none => {}
    let s1 := match held with
      | some (c, j) => s.delTcb c j
      | none => s
    let cnt := (tPreds raw : Int) + old.cnt
    some (k, s1.setTcb core k
      { x with cnt := cnt, skip := old.skip,
               st := if old.skip then .retired else if cnt ≤ 0 then .waitin else .waitpred,
               decs := if old.skip then tSuccs raw 0 8 else [] })

/-- One decrement of a task's predecessor count; a task not yet enqueued takes a block for it on this core (spec/17 R338). None: no
block is free. -/
def decrement (s : State) (core : Nat) (col : BitVec 5) (rtag : BitVec 16) (idx : Nat) : Option State :=
  match s.taskNamed (s.regionAt core) rtag idx with
  | some (c, k) =>
    let x := s.tcb c k
    some (s.setTcb c k { x with cnt := x.cnt - 1, st := if x.st = .waitpred && x.cnt ≤ 1 then .waitin else x.st })
  | none =>
    match firstFree (s.core core).tcbs 512 with
    | none => none
    | some k => some (s.setTcb core k { idx := some idx, st := .named, cnt := -1, col := col, rtag := rtag })

/-- The completion record of a task (spec/17 R339). -/
def sendCompletion (s : State) (core b : Nat) (x : Tcb) (status : BitVec 8) : State :=
  let r := s.regionAt core
  if tCplv x.raw then
    let ch := tCplch x.raw
    s.prodSend r ch core (mkRec x.col x.wave x.rtag 0 0 false ch
      [lanesBeat [status.toNat, x.idx.getD 0xFFFFFFFF, b, (s.region r).rcoreOf core]])
  else s

/-- A task's engine is done with it: what is left is to count down its successors and to report (spec/06 R127). -/
def retireTask (s : State) (core b : Nat) (status : BitVec 8) (decs : List Nat) : State :=
  s.setTcb core b { s.tcb core b with st := .retired, status := status, decs := decs }

/-- The trap record of an engine item of a colour, with NOCONT (spec/21 R414). -/
def itemTrap (s : State) (core : Nat) (i : TrapInfo) (rtag wave : BitVec 16) (col : BitVec 5) : State :=
  s.engineTrap (s.regionAt core) (s.partOf core) i rtag wave col 0 0 core

/-- The fault of an engine item with the cause beneath it: an uncorrectable error that the item has consumed is contained, too (spec/21
R424, log entry 37). -/
def itemFault (s : State) (core : Nat) (i : TrapInfo) (under : BitVec 8) (rtag wave : BitVec 16) (col : BitVec 5) : State :=
  if under = Cause.uce then s.uceContainAs (s.regionAt core) (s.partOf core) i rtag wave col 0 0 core else s.itemTrap core i rtag wave col

/-- A task that cannot read what it names retires with the cause, which also goes to the trap operator (spec/06 R457). -/
def taskFault (s : State) (core b : Nat) (cause : BitVec 8) (addr : Nat) : State :=
  let x := s.tcb core b
  (s.retireTask core b cause (tSuccs x.raw 0 8)).itemFault core { cause := cause, addr := BitVec.ofNat 64 addr } cause x.rtag x.wave x.col

/-- A 32-bit word of core scratchpad that a task waits on: where it stands, or its fault (spec/06 R457). -/
def taskWord (s : State) (core : Nat) (x : Tcb) (gva : Nat) : Except (BitVec 8) (Nat × State) :=
  match s.engXlate (s.regionAt core) (s.partOf core) core x.col x.wave gva false with
  | .error k => .error k
  | .ok (_, pa, s1) =>
    if !isScratch pa then .error Cause.attr
    else if s1.hasUce pa 4 then .error Cause.uce
    else .ok (pa, s1)

/-- The end of a copy: its token, and the task it serves (spec/17 R342, spec/18 R362). -/
def endCopy (s : State) (core ch : Nat) (x : Copy) (ok : Bool) (status : BitVec 8) : State :=
  let s1 := s.setCopies core ch ((s.copies core ch).filter (fun y => y.id != x.id))
  let s2 := match x.token with
    | some (t, k) => s1.setToken t k (if ok then 2 else 3)
    | none => s1
  (match x.task with
   | some b => s2.retireTask core b status (tSuccs (s2.tcb core b).raw 0 8)
   | none => s2).wakeUp

end State

end Sys2Proof.Machine
end

