-- ==== Sys2Proof/Machine/Save.lean ====
section
/-!
DEFINITION. Machine/Save.lean: what belongs to a partition, as pre-emption saves it (spec/21 R429) and SNAP captures it (spec/17
R350). The layout of a save area is not visible to programs (R429): it is held as data (log entry 10).
-/

namespace Sys2Proof.Machine

namespace State

/-- Cores of a partition. -/
def coresOf (s : State) (p : Nat) : List Nat := (s.ownCore.filter (fun e => e.2 == p)).map (·.1)

/-- The core at which a record's destination stands. -/
def destCore (d : Dest) : Nat :=
  match d with
  | .slot t _ => t / 32
  | .op r _ _ => r
  | .waveCtl r => r
  | .reconf r => r

/-- Ring image entries enabled for a partition (spec/18 R364). -/
def entriesOf (s : State) (p : Nat) : List Nat :=
  (s.ring.images.filter (fun e => bit e.2.toNat 0 && bits e.2.toNat 1 4 == p)).map (·.1)

/-- What a partition holds, beside the memories that stay where they are. -/
def savePart (s : State) (p : Nat) : Saved :=
  let cs := s.coresOf p
  {
    ctxs := s.ctxs.filter (fun e => cs.contains (e.1 / 128)),
    frames := s.frames.filter (fun e => cs.contains (e.1 / 4096)),
    tiles := s.tiles.filter (fun e => cs.contains (e.1 / 32)),
    cores := s.cores.filter (fun e => cs.contains e.1),
    regions := s.regions.filter (fun e => cs.contains e.1),
    tmem := s.tmem.filter (fun e => cs.contains (e.1 / 0x1000000)),
    transit := s.transit.filter (fun x => cs.contains (destCore x.dst)),
    accesses := s.accesses.filter (fun a => a.part == p),
    replies := s.replies.filter (fun x => x.acc.part == p),
    trips := s.trips.filter (fun t => t.part == p),
    entries := s.entriesOf p }

/-- Entries put into a table. -/
def putAll {α : Type} (m : SMap α) (l : SMap α) : SMap α := l.foldl (fun acc e => lset acc e.1 e.2) m

/-- The machine with a saved partition's units as they were saved: March holds its launches and judges them by these (spec/06 R120, spec/21
R427). -/
def judged (s : State) (p : Nat) : State :=
  match (s.part p).phase, (s.part p).save with
  | .saved, some v => { s with regions := putAll s.regions v.regions, tiles := putAll s.tiles v.tiles, cores := putAll s.cores v.cores }
  | _, _ => s

/-- Memories of a partition: HBM of its slices, its ranges of stack SRAM, its scratchpads (spec/14 R290). -/
def memoryOf (s : State) (p : Nat) : List Host.Cell := s.mem.filter (fun e => s.ownerOf e.1 == p)

/-- Word states of a partition's scratchpads (spec/05 R107). -/
def statesOf (s : State) (p : Nat) : SMap (BitVec 2) := s.fe.filter (fun e => s.ownerOf (4 * e.1) == p)

/-- Regions of a partition. -/
def regionsOf (s : State) (p : Nat) : List Nat := (s.regions.map (·.1)).filter (fun r => s.partOf r == p)

end State

end Sys2Proof.Machine
end

