-- ==== Sys2Proof/Machine/QueueInstr.lean ====
section
/-!
DEFINITION. Machine/QueueInstr.lean: the instructions that act on queues and engines (spec/17 R329 to R351, spec/07 R145 to R152).
-/

namespace Sys2Proof.Machine

namespace State

/-- An instruction that names a destination channel but appends nothing (spec/09 R190). -/
def onOut (s : State) (c : Chan) (a : Act) : Act := if s.dstOk c.toNat then a else .trap (s.faultOf Cause.chan)

/-- An instruction that names a source channel (spec/09 R190). -/
def onIn (s : State) (c : Chan) (a : Act) : Act := if s.srcOk c.toNat then a else .trap (s.faultOf Cause.chan)

end State

/-- EMIT (spec/17 R331). -/
def execEmit (p : Pred) (d : Chan) (s : State) : Host.Outcome State Fault Refusal :=
  s.perform p [] [] (s.onOut d (match s.openOn d.toNat with
    | some o => .ok (s.sendOpen o)
    | none => .ok s))

/-- DROP (spec/17 R331). -/
def execDrop (p : Pred) (d : Chan) (s : State) : Host.Outcome State Fault Refusal :=
  s.perform p [] [] (s.onOut d (.ok (s.dropOpen d.toNat)))

/-- SKIPE: a record of zeros of the configured beat count, which builds no beats (spec/17 R333). -/
def execSkipe (p : Pred) (d : Chan) (s : State) : Host.Outcome State Fault Refusal :=
  let n := cBeats (s.chanCur d.toNat)
  s.perform p [] [] (s.onOut d (
    if (s.openOn d.toNat).isSome then .trap (s.faultOf Cause.chan)
    else .ok (s.sendBeats d.toNat (List.replicate n 0) (List.replicate n 0) 0 0)))

/-- What PRES writes (spec/17 R334). -/
def State.presWord (s : State) (ch : Nat) : Word :=
  let h := lget 0 s.curFrame.hdrs ch
  BitVec.ofNat 64 (s.curFrame.present.toNat + s.cursor ch * 2 ^ 32 +
    (if s.slotPresent ch then (rhBeats h - 1) * 2 ^ 16 + (rhKind h).toNat * 2 ^ 22 + (rhSkip h).toNat * 2 ^ 24 else 0))

/-- PRES (spec/17 R334). -/
def execPres (p : Pred) (d : SReg) (a : Chan) (s : State) : Host.Outcome State Fault Refusal :=
  s.perform p [] [] (s.onIn a (.ok (s.wrS d (s.presWord a.toNat))))

/-- POPS (spec/17 R335). -/
def execPops (p : Pred) (d : SReg) (a : Chan) (s : State) : Host.Outcome State Fault Refusal :=
  let ch := a.toNat
  let n := cBase (s.chanCur ch) + s.recBeats ch - s.cursor ch
  s.perform p [] [] (s.onIn a (
    if !s.slotPresent ch then .park s 5 (.slotOf ch) false
    else
      let f := s.curFrame
      let gone := (List.range n).foldl (fun (m : BitVec 16) i => m ||| (1#16 <<< (s.cursor ch + i))) 0
      let s1 := s.setFrame s.curFrameKey { f with present := f.present &&& ~~~gone, cursors := lset f.cursors ch (cBase (s.chanCur ch)) }
      .ok (s1.wrS d (BitVec.ofNat 64 n))))

/-- The header bits that each field of HDR's mask covers (spec/17 R336, spec/02 R35). -/
def hdrMask (fm : BitVec 5) : BitVec 64 :=
  (if fm.getLsbD 0 then 0x0000C00000000000#64 else 0) ||| (if fm.getLsbD 1 then 0x00000000001FFFE0#64 else 0) |||
  (if fm.getLsbD 2 then 0x000000000000001F#64 else 0) ||| (if fm.getLsbD 3 then 0x0000001FFFE00000#64 else 0) |||
  (if fm.getLsbD 4 then 0x0001000000000000#64 else 0)

namespace State

/-- The rule of each field of HDR, in the order of the table (spec/17 R336). -/
def hdrBad (s : State) (v : BitVec 64) (fm : BitVec 5) : Option (BitVec 8) :=
  if fm.getLsbD 0 && rhKind v == 3 && !s.priv then some Cause.priv
  else if fm.getLsbD 1 && (rhWave v).toNat / s.ws s.curRegion != s.cur.wave.toNat / s.ws s.curRegion then some Cause.chan
  else if fm.getLsbD 2 && !s.priv then some Cause.priv
  else if fm.getLsbD 2 && !kArmed (lget 0 (s.region s.curRegion).colours (rhCol v).toNat) then some Cause.chan
  else if (fm.getLsbD 3 || fm.getLsbD 4) && !s.priv then some Cause.priv
  else none

/-- The open record with header fields set; one is opened if none is. -/
def setHdr (s : State) (ch : Nat) (v : BitVec 64) (fm : BitVec 5) : State :=
  let o : OpenRec := (s.openOn ch).getD { aid := s.cur.aid, ch := ch }
  let o1 := { o with hdrSet := o.hdrSet ||| fm, hdrVal := (o.hdrVal &&& ~~~hdrMask fm) ||| (v &&& hdrMask fm) }
  let t := s.tile s.curTile
  s.setTile s.curTile { t with
    pool := if (s.openOn ch).isSome then t.pool.map (fun x => if x.aid == s.cur.aid && x.ch == ch then o1 else x) else t.pool ++ [o1] }

end State

/-- HDR (spec/17 R336). -/
def execHdr (p : Pred) (d : Chan) (a : SReg) (fm : BitVec 5) (s : State) : Host.Outcome State Fault Refusal :=
  s.perform p [a] [] (s.onOut d (match s.hdrBad (s.rdS a) fm with
    | some c => .trap (s.faultOf c)
    | none => .ok (s.setHdr d.toNat (s.rdS a) fm)))

namespace State

/-- The task record that TTENQ names for a core's engine, or why it cannot be had (spec/17 R338). Each core of a region has a task table
of its own (spec/18 R352): that of the engine's core is read (DESIGN CHOICE, log entry 65). -/
def ttRecord (s : State) (core : Nat) (v : Word) (src : Bool) : Except TrapInfo (BitVec 512 × Option Nat) :=
  let x := s.core core
  if src then
    match s.panelCheck v 64 with
    | some i => .error i
    | none =>
      let raw := BitVec.ofNat 512 (s.tread s.curTile v.toNat 64)
      if taskOk x.nTasks raw then .ok (raw, none) else .error (s.faultOf Cause.cfg)
  else
    let k := bits v.toNat 0 10
    if bits v.toNat 10 54 != 0 || x.nTasks ≤ k || !taskOk x.nTasks (lget 0 x.tasks k) then .error (s.faultOf Cause.cfg)
    else .ok (lget 0 x.tasks k, some k)

/-- The activation as the owner of a task. -/
def byMe (s : State) : TaskBy :=
  { col := s.cur.col, wave := s.cur.wave, rtag := s.cur.rtag, aid := s.cur.aid, tile := s.curTile, slot := s.cur.opsl }

end State

/-- The request of a TTENQ to the task engine of another core: the record, or the operand that names one (spec/08 R162). -/
def State.ttLegs (s : State) (core : Nat) (raw : BitVec 512) (idx : Option Nat) : List Leg :=
  if core == s.curCore then []
  else [legOf (State.coreNode core) (match idx with
    | none => toBytes 64 raw.toNat
    | some i => toBytes 8 i) 0]

/-- TTENQ (spec/17 R338, spec/27 R450): a read of an uncorrectable record is contained. One to another core goes to its engine and comes back
with the block's number. -/
def execTtenq (p : Pred) (d a : SReg) (rcore : BitVec 4) (src : Bool) (s : State) : Host.Outcome State Fault Refusal :=
  let v := s.rdS a
  s.perform p [a] [] (match (s.region s.curRegion).coreAt rcore.toNat with
    | none => .trap (s.faultOf Cause.cfg)
    | some core =>
      if src && (s.panelCheck v 64).isNone && s.tsBusy v.toNat 64 then .hold s false
      else if src && (s.panelCheck v 64).isNone && s.hasUce (2 ^ 48 + s.curTile * 0x80000 + v.toNat) 64 then .done (s.uceCur v.toNat)
      else match s.ttRecord core v src with
        | .error i => .trap i
        | .ok (raw, idx) =>
          if 15 ≤ s.otoCount s.cur.aid then .hold s true
          else s.heldLegs true (s.ttLegs core raw idx) [legOf (State.coreNode core) [] s.nextId] (
            match s.enqueueTask core raw idx s.byMe with
            | none => .hold s true
            | some (b, s1) => .ok (s1.wrS d (BitVec.ofNat 64 b))))

namespace State

/-- The entry of a colour's peer list: PDEV, PORTS, MAC and PEP, if it is one (spec/22 R434, spec/17 R337). -/
def peerAt (s : State) (e : BitVec 256) (i : Nat) : Option (Nat × Nat × BitVec 48 × BitVec 16) :=
  if kNpeer e ≤ i then none
  else match s.stage2 (kVmid e) (kPeers e + 16 * i) with
    | .error _ => none
    | .ok (_, pa) =>
      let v := s.rmem pa 16
      if bits v 96 12 == 0 || bits v 108 20 != 0 then none else some (bits v 64 32, bits v 96 12, BitVec.ofNat 48 v, BitVec.ofNat 16 (bits v 48 16))

/-- Records sent since an earlier state, addressed to a peer. -/
def toPeer (s old : State) (i : Nat) : State :=
  { s with transit := s.transit.take old.transit.length ++ (s.transit.drop old.transit.length).map (fun x => { x with peer := some i }) }

/-- Whether a channel's consumer is an exit port of the activation's colour. -/
def exitOf (s : State) (ch : Nat) : Bool :=
  match s.destOf s.curRegion ch s.cur.col with
  | some (.op r n _) => oKind (s.opEntry r n) == 2 && oColour (s.opEntry r n) == s.cur.col
  | _ => false

end State

/-- XSEND (spec/17 R337). -/
def execXsend (p : Pred) (d : Chan) (a : SReg) (s : State) : Host.Outcome State Fault Refusal :=
  let v := (s.rdS a).toNat
  s.perform p [a] [] (s.onOut d (
    if !s.exitOf d.toNat then .trap (s.faultOf Cause.chan)
    else if bits v 4 60 != 0 || (s.peerAt s.curColour (bits v 0 4)).isNone then .trap (s.faultOf Cause.perm)
    else match s.openOn d.toNat with
      | none => .ok s
      | some o => .ok ((s.sendOpen o).toPeer s (bits v 0 4))))

/-! Boardings (spec/07 R145 to R151, spec/17 R343, R344). -/

/-- Fields of a boarding word (spec/07 R145). -/
def bwImage (v : Word) : Nat := bits v.toNat 0 3
def bwLayer (v : Word) : Nat := bits v.toNat 3 16
def bwSlice (v : Word) : Nat := bits v.toNat 19 8
def bwPair (v : Word) : Bool := bit v.toNat 27
def bwMask (v : Word) : Nat := bits v.toNat 28 8
def bwRcore (v : Word) : Nat := bits v.toNat 36 4
def bwIsl (v : Word) : Nat := bits v.toNat 40 1
def bwBank (v : Word) : Nat := bits v.toNat 41 1
def bwMissn (v : Word) : Nat := if bits v.toNat 42 3 == 0 then 3 else bits v.toNat 42 3
def bwAuto (v : Word) : Bool := bit v.toNat 45

/-- Fields of a ring image table entry (spec/18 R364). -/
def riEn (e : BitVec 512) : Bool := bit e.toNat 0
def riPart (e : BitVec 512) : Nat := bits e.toNat 1 4
def riLayers (e : BitVec 512) : Nat := bits e.toNat 16 16
def riTiles (e : BitVec 512) : Nat := bits e.toNat 32 32
/-- Physical address of the store of die d. -/
def riSrc (e : BitVec 512) (d : Nat) : Nat := bits e.toNat (64 + 64 * d) 64

namespace State

def image (s : State) (k : Nat) : BitVec 512 := lget 0 s.ring.images k

/-- Where tile n of an image stands (spec/18 R364). -/
def tilePa (e : BitVec 512) (n : Nat) : Nat := riSrc e (n % 16 / 4) + (n / 16 * 4 + n % 4) * 17408

/-- The first 16 bytes of a tile's header (spec/07 R141). -/
def tileHdr (s : State) (e : BitVec 512) (n : Nat) : Nat := s.rmem (tilePa e n) 16
def thImage (h : Nat) : Nat := bits h 0 8
def thLayer (h : Nat) : Nat := bits h 16 16
def thSlice (h : Nat) : Nat := bits h 32 16
def thKblk (h : Nat) : Nat := bits h 64 16
def thLastk (h : Nat) : Bool := bit h 8
def thCorrupt (h : Nat) : Bool := bit h 9

/-- Whether an image has a slice of a layer. -/
def imageHas (s : State) (e : BitVec 512) (layer slice : Nat) : Bool :=
  layer < riLayers e && (List.range (riTiles e)).any (fun n => thLayer (s.tileHdr e n) == layer && thSlice (s.tileHdr e n) == slice)

/-- Claim records of a B slot. -/
def bClaims (s : State) (core isl k : Nat) : List (BitVec 5 × BitVec 16) := s.claimsAt (core, isl, 8 + k)

/-- The fault of a boarding word, in the order of spec/07 R145. -/
def boardBad (s : State) (v : Word) : Option (BitVec 8) :=
  let e := s.image (bwImage v)
  match (s.region s.curRegion).coreAt (bwRcore v) with
  | none => some Cause.cfg
  | some core =>
    if bits v.toNat 46 18 != 0 || bwMask v == 0 then some Cause.cfg
    else if !riEn e || riPart e != s.curPart then some Cause.perm
    else if !s.imageHas e (bwLayer v) (bwSlice v) || (bwPair v && !s.imageHas e (bwLayer v) (bwSlice v + 1)) then some Cause.cfg
    else if (List.range 8).any (fun k => bit (bwMask v) k && (s.bClaims core (bwIsl v) k).isEmpty) then some Cause.slot
    else none

/-- Whether a boarding armed now boards in the lap that is in progress or comes next of its image (spec/07 R147). -/
def beforeLead (s : State) (v : Word) : Bool :=
  let k := bwImage v
  let e := s.image k
  if !s.ring.running then true
  else if s.ring.lead ≤ bwLayer v then
    s.ring.cur != k ||
    (match (List.range (riTiles e)).find? (fun n => thLayer (s.tileHdr e n) == bwLayer v - s.ring.lead) with
     | none => true
     | some n => s.ring.pos < 544 * (n / 16))
  else k < s.ring.cur

/-- Tiles of the lap in progress whose heads have reached the ports (spec/07 R139). -/
def tilesPassed (s : State) : Nat :=
  if s.ring.running then min (riTiles (s.image s.ring.cur)) (16 * (s.ring.pos / 544 + 1)) else 0

/-- A boarding's handle (spec/17 R343). -/
def boardHandle (s : State) (core rcore num : Nat) : Word :=
  BitVec.ofNat 64 (num + rcore * 16 + (lget 0 (s.core core).boardGen num).toNat * 256)

/-- The core and number that a handle names in the region, unless its generation is stale. -/
def boardAt (s : State) (h : Word) : Option (Nat × Nat × Boarding) :=
  match (s.region s.curRegion).coreAt (bits h.toNat 4 4) with
  | none => none
  | some core =>
    match lget? (s.core core).boards (bits h.toNat 0 4) with
    | none => none
    | some b => if lget 0 (s.core core).boardGen (bits h.toNat 0 4) == h.extractLsb' 8 8 && bits h.toNat 16 48 == 0 then
        some (core, bits h.toNat 0 4, b) else none

/-- A boarding is freed: its number's next use has another generation. -/
def freeBoard (s : State) (core num : Nat) : State :=
  ({ s.setCore core { s.core core with boards := ldel (s.core core).boards num } with ring := s.ring.unask (core * 16 + num) } : State).wakeUp

/-- Whether a lap of an image is in progress while a colour is frozen (spec/17 R345). -/
def lapFrozen (s : State) (r : Nat) (c : BitVec 5) (v : Word) : Bool :=
  s.ring.running && s.ring.cur == bwImage v && s.isFrozen r c

/-- State code of a boarding (spec/17 R346). -/
def boardCode (b : Boarding) : Nat :=
  match b.st with
  | .armed => 0 | .active => 1 | .waitlap => 2 | .done => 3 | .faulted => 4

end State

/-- BOARD (spec/17 R343, spec/07 R145). -/
def execBoard (p : Pred) (d a : SReg) (s : State) : Host.Outcome State Fault Refusal :=
  let v := s.rdS a
  s.perform p [a] [] (match s.boardBad v, (s.region s.curRegion).coreAt (bwRcore v) with
    | some c, _ => .trap (s.faultOf c)
    | none, none => .trap (s.faultOf Cause.cfg)
    | none, some core =>
      match firstFree (s.core core).boards 16 with
      | none => .park s 8 (.boarding core) false
      | some n =>
        let x := s.core core
        let g := (lget 0xFF x.boardGen n) + 1
        let b : Boarding := {
          word := v, region := s.curRegion, col := s.cur.col, wave := s.cur.wave, rtag := s.cur.rtag,
          slice := bwSlice v, boards := s.beforeLead v, frozenLap := s.lapFrozen s.curRegion s.cur.col v }
        let s1 := s.setCore core {
          x with boards := lset x.boards n b, boardGen := lset x.boardGen n g, seen := if x.boards.isEmpty then s.tilesPassed else x.seen }
        .ok (s1.wrS d (s1.boardHandle core (bwRcore v) n)))

/-- UNBRD (spec/17 R344). -/
def execUnbrd (p : Pred) (d a : SReg) (s : State) : Host.Outcome State Fault Refusal :=
  s.perform p [a] [] (match s.boardAt (s.rdS a) with
    | none => .ok (s.wrS d 7)
    | some (core, n, b) =>
      if b.col != s.cur.col then .trap (s.faultOf Cause.perm)
      else .ok ((s.freeBoard core n).wrS d (BitVec.ofNat 64 (State.boardCode b))))

/-- RHOLD: a hold is asked for (spec/17 R344); the ring grants it at the next tile boundary (spec/07 R152). -/
def execRhold (p : Pred) (a b : SReg) (s : State) : Host.Outcome State Fault Refusal :=
  let n := bits (s.rdS b).toNat 0 16
  s.perform p [a, b] [] (match s.boardAt (s.rdS a) with
    | none => .ok s
    | some (core, k, x) =>
      if x.col != s.cur.col then .trap (s.faultOf Cause.perm)
      else if n == 0 || !(x.st = .active || x.st = .waitlap) then .ok s
      else .ok { s with ring := { s.ring with want := s.ring.want ++ [(core * 16 + k, n)] } })

/-- The status word of a boarding (spec/17 R346). -/
def State.boardStatus (b : Boarding) : Word :=
  BitVec.ofNat 64 (State.boardCode b + (if b.st = .faulted then b.cause.toNat else 0) * 2 ^ 8 + b.missw % 2 ^ 16 * 2 ^ 16 +
    b.mlaps % 8 * 2 ^ 32 + b.slice % 256 * 2 ^ 40 + b.kblk % 2 ^ 16 * 2 ^ 48)

/-- RSTAT: reading DONE or FAULTED frees the boarding (spec/17 R344, R346). -/
def execRstat (p : Pred) (d a : SReg) (s : State) : Host.Outcome State Fault Refusal :=
  s.perform p [a] [] (match s.boardAt (s.rdS a) with
    | none => .ok (s.wrS d 7)
    | some (core, n, b) =>
      if b.col != s.cur.col then .trap (s.faultOf Cause.perm)
      else
        let s1 := if b.st = .done || b.st = .faulted then s.freeBoard core n else s
        .ok (s1.wrS d (State.boardStatus b)))

/-! Privileged instructions (spec/17 R347 to R351). -/

namespace State

/-- The running activations of a purge's tag, but for its issuer (spec/17 R347). -/
def runsOfTag (g : Tag) (s : State) : List Nat :=
  ((s.framesOf g.r).filter (fun k => (s.frame k).alloc && (s.frame k).cont = .running && (s.frame k).col == g.col && (s.frame k).rtag == g.rtag &&
    !spares g (s.frame k).aid)).flatMap s.runsOn

/-- The running activations of the tag stop at their next boundary. -/
def stopTag (g : Tag) (s : State) : State := (s.runsOfTag g).foldl (stopCtx g) s

end State

/-- PURGE: it holds while loads of the running activations that it stops are on their way (spec/17 R347). -/
def execPurge (p : Pred) (d a b : SReg) (s : State) : Host.Outcome State Fault Refusal :=
  let va := (s.rdS a).toNat
  let vb := (s.rdS b).toNat
  s.performPriv p [a, b] (
    if bits va 16 48 != 0 || bits vb 5 3 != 0 || bits vb 16 48 != 0 || bits vb 8 8 == 0 then .trap (s.faultOf Cause.cfg)
    else
      let g : State.Tag := { r := s.curRegion, p := s.curPart, col := BitVec.ofNat 5 vb, rtag := BitVec.ofNat 16 va,
                             cause := BitVec.ofNat 8 (bits vb 8 8), keep := s.cur.aid }
      let s0 := State.stopTag g s
      if (State.runsOfTag g s).any (fun k => s.drains (s.ctx k).aid) then .hold s0 false
      else
      let s1 := State.purgeTag g s0
      .ok (s1.wrS d (((s1.part s.curPart).rpt.head - (s.part s.curPart).rpt.head).setWidth 64)))

/-- SNAP: what the partition holds is captured; SNAP_END ends it (spec/17 R350). SYS of the colour is asked for beside the privilege of
spec/09 R203, as a fault of the instruction's own. -/
def execSnap (p : Pred) (a b : SReg) (s : State) : Host.Outcome State Fault Refusal :=
  let va := (s.rdS a).toNat
  s.performPriv p [a, b] (
    if !kSys s.curColour then .trap (s.faultOf Cause.priv)
    else if bits va 8 56 != 0 || !(s.part s.curPart).wholeFrozen || (s.part s.curPart).snap.isSome then .trap (s.faultOf Cause.cfg)
    else match s.check { fe := true, write := true, bytes := 4, elems := [(0, (s.rdS b).toNat)] } with
      | .fault i => .trap i
      | .miss s1 => .hold s1 true
      | .ok es =>
        let x := s.part s.curPart
        .ok (s.setPart s.curPart { x with
          snap := some (BitVec.ofNat 8 va, (es.head?.map (·.pa)).getD 0),
          snapshot := s.memoryOf s.curPart, snapFe := s.statesOf s.curPart, snapped := some (s.savePart s.curPart) }))

namespace State

/-- The selector of FREEZE and THAW: a nonzero bit outside it, or a colour that is not armed, traps CFG; WHOLE = 1 needs SYS
(spec/17 R349). -/
def freezeBad (s : State) (v : Nat) : Option (BitVec 8) :=
  if bits v 6 58 != 0 then some Cause.cfg
  else if bit v 0 then (if kSys s.curColour then none else some Cause.priv)
  else if kArmed (lget 0 (s.region s.curRegion).colours (bits v 1 5)) then none
  else some Cause.cfg

/-- Whether a freeze is not complete yet (spec/17 R349): a context of the frozen colours must still reach a park point or ENDH, but for the
issuer and activations in trap-operator mode, or the K-steps of an issued IMMA must still complete. -/
def stillRuns (s : State) (whole : Bool) (c : Nat) : Bool :=
  let mine := fun (core : Nat) (col : BitVec 5) =>
    if whole then s.partOf core == s.curPart else s.regionAt core == s.curRegion && col.toNat == c
  s.ctxs.any (fun e => e.2.busy && !e.2.ended && e.1 != s.focus && !hTrapOp (s.handler (e.1 / 4) e.2.opsl.toNat e.2.col e.2.wave) &&
    mine (e.1 / 128) e.2.col) ||
  s.cores.any (fun e => e.2.tcbs.any (fun b => b.2.st = .issued && tType b.2.raw == 0 && mine e.1 b.2.col))

/-- Boardings of a frozen colour: a lap of their image that is in progress does not count as missed (spec/17 R345). -/
def markFrozenLaps (s : State) : State :=
  { s with cores := s.cores.map (fun c => (c.1, { c.2 with boards := c.2.boards.map (fun b =>
      (b.1, { b.2 with frozenLap := b.2.frozenLap || s.lapFrozen b.2.region b.2.col b.2.word })) })) }

def setFrozen (s : State) (v : Nat) (on : Bool) : State :=
  markFrozenLaps <| if bit v 0 then s.setPart s.curPart { s.part s.curPart with wholeFrozen := on }
  else s.setColour s.curRegion (bits v 1 5) { s.colour s.curRegion (bits v 1 5) with frozen := on }

end State

/-- FREEZE (spec/17 R349): it holds until every effect has been reached. -/
def execFreeze (p : Pred) (a : SReg) (s : State) : Host.Outcome State Fault Refusal :=
  let v := (s.rdS a).toNat
  s.performPriv p [a] (match s.freezeBad v with
    | some c => .trap (s.faultOf c)
    | none =>
      if s.stillRuns (bit v 0) (bits v 1 5) then .hold (s.setFrozen v true) false else .ok (s.setFrozen v true))

/-- THAW (spec/17 R349): WHOLE = 1 holds while a SNAP of the partition runs. -/
def execThaw (p : Pred) (a : SReg) (s : State) : Host.Outcome State Fault Refusal :=
  let v := (s.rdS a).toNat
  s.performPriv p [a] (match s.freezeBad v with
    | some c => .trap (s.faultOf c)
    | none => if bit v 0 && (s.part s.curPart).snap.isSome then .hold s false else .ok (s.setFrozen v false))

namespace State

/-- The items of a queue that a flush removes (spec/17 R351): of one colour and request tag, or all. -/
def flushMatch (v : Nat) (c : BitVec 5) (rtag : BitVec 16) : Bool :=
  !bit v 10 || (c.toNat == bits v 32 5 && rtag.toNat == bits v 16 16)

/-- The flush of a streamer channel: each token becomes ERR. -/
def flushCopies (s : State) (core v : Nat) : State × Nat :=
  let ch := bits v 6 1 * 8 + bits v 7 3
  let xs := (s.copies core ch).filter (fun x => flushMatch v x.col x.rtag)
  (xs.foldl (fun st x => (st.endFill x).endCopy core ch x false Cause.copyerr) s, xs.length)

/-- The flush of a task class: blocks in WAITPRED, WAITIN and READY, with completion status QERR. -/
def flushTasks (s : State) (core v : Nat) : State × Nat :=
  let xs := (s.core core).tcbs.filter (fun b =>
    (b.2.st = .waitpred || b.2.st = .waitin || b.2.st = .ready) && tClass b.2.raw == bits v 7 2 && flushMatch v b.2.col b.2.rtag)
  (xs.foldl (fun st b => (st.delTcb core b.1).sendCompletion core b.1 b.2 Cause.qerr) s, xs.length)

/-- The flush of a boarding port. -/
def flushBoards (s : State) (core v : Nat) : State × Nat :=
  let xs := (s.core core).boards.filter (fun b => flushMatch v b.2.col b.2.rtag)
  (xs.foldl (fun st b => st.freeBoard core b.1) s, xs.length)

/-- The flush that a selector names, and how many items it removes. -/
def flush (s : State) (core v : Nat) : State × Nat :=
  match bits v 0 2 with
  | 0 => s.flushCopies core v
  | 1 => s.flushTasks core v
  | _ => s.flushBoards core v

/-- Whether a completion record that a flush of copies causes is still to be sent: a task of the channel is retired, and its successors are
being counted down (spec/27 R452). -/
def flushOwes (s : State) (core v : Nat) : Bool :=
  bits v 0 2 == 0 && (s.core core).tcbs.any (fun b =>
    b.2.st = .retired && tType b.2.raw == 3 && bits (tOper b.2.raw) 10 4 == bits v 6 1 * 8 + bits v 7 3 && b.2.status == Cause.copyerr &&
    flushMatch v b.2.col b.2.rtag)

end State

/-- QFLUSH (spec/17 R351): it holds until the flush has been applied and the completion records that it causes have been sent (spec/27
R452). -/
def execQflush (p : Pred) (d a : SReg) (s : State) : Host.Outcome State Fault Refusal :=
  let v := (s.rdS a).toNat
  s.performPriv p [a] (
    if bits v 11 5 != 0 || bits v 37 27 != 0 || bits v 0 2 == 3 then .trap (s.faultOf Cause.cfg)
    else match (s.region s.curRegion).coreAt (bits v 2 4) with
      | none => .trap (s.faultOf Cause.cfg)
      | some core =>
        match s.cur.kept with
        | some n => if s.flushOwes core v then .hold s false else .ok (s.wrS d (BitVec.ofNat 64 n))
        | none =>
          let r := s.flush core v
          if r.1.flushOwes core v then .hold (r.1.wakeUp.keep r.2) false else .ok ((r.1.wakeUp).wrS d (BitVec.ofNat 64 r.2)))

end Sys2Proof.Machine
end

