-- ==== Sys2Proof/Machine/SeqInstr.lean ====
section
/-!
DEFINITION. Machine/SeqInstr.lean: the sequence instructions (spec/20 R397 to R407), each one event at the descriptor's home.
-/

namespace Sys2Proof.Machine

namespace State

/-- Whether a handle lies beyond the partition's descriptors (spec/20 R397). -/
def handleBad (s : State) (h : Word) : Bool := bits h.toNat 32 32 != 0 || (s.part s.curPart).seqCount ≤ bits h.toNat 0 32

/-- The place of the descriptor that a handle names. -/
def handleAt (s : State) (h : Word) : Nat := s.seqAddr s.curPart (bits h.toNat 0 32)

/-- The descriptor a handle names, or the fault (spec/20 R397, spec/14 R290); none while a fork's copy into it runs (R406). -/
def seqOf (s : State) (h : Word) : Except (BitVec 8) Nat :=
  let d := s.handleAt h
  if s.handleBad h then .error Cause.cfg
  else if s.seqBad s.curPart [{ pa := d, n := 64 }] then .error Cause.perm
  else if !s.dV d then .error Cause.cfg
  else if s.dOwner d != s.cur.col.toNat then .error Cause.perm
  else .ok d

/-- An instruction on one sequence, at its descriptor's home (spec/20 R397, spec/08 R162): faults of the handle, then the hold of a fork's
copy, then its own meaning. -/
def onSeq (s : State) (h : Word) (f : State → Nat → Act) : Act :=
  s.heldVia (if s.handleBad h then [] else [{ pa := s.handleAt h, n := 64 }]) (match s.seqOf h with
    | .error c => .trap (s.faultOf c)
    | .ok d =>
      if s.forks.any (fun k => k.handle == d) then .hold s false else f (s.seqTouch s.seqBy [{ pa := d, n := 64 }]) d)

/-- Further uses of memory by a sequence instruction: PERM where a home refuses one. -/
def onUses (s : State) (l : List SeqUse) (f : State → Act) : Act :=
  if s.seqBad s.curPart l then .trap (s.faultOf Cause.perm) else f (s.seqTouch s.seqBy l)

/-- An instruction that reads or writes the tables of a sequence: where stage 2 of the guest does not reach them, PAGE2 (spec/18 R365,
spec/14 R292); where a home refuses, PERM. -/
def onTables (s : State) (h : Word) (segt void resv : Bool) (f : State → Nat → Act) : Act :=
  s.onSeq h (fun s d => if s.seqReach s.curVm.1 d then s.onUses (s.tableUses s.curVm.1 d segt void resv) (fun s => f s d)
    else .trap { s.faultOf Cause.page2 with addr := BitVec.ofNat 64 (s.dSegt d) })

/-- Whether the guest of the activation's colour can name the first n segments of its partition's free list: its stage-2 tables lead
to each of them. -/
def namesFree (s : State) (n : Nat) : Bool := ((s.part s.curPart).poolFree.take n).all (fun g => (s.gpaOf s.curVm.1 g).isSome)

/-- The level-2 entry for SVA in the owner's stage 1, to be written (spec/20 R399, spec/14 R290, R292). -/
def level2At (s : State) (sva : Nat) : Except (BitVec 8) SeqUse :=
  let vm := s.curVm
  if 2 ^ 56 ≤ sva then .error Cause.page
  else match s.root1 vm.1 vm.2 with
    | .error c => .error c
    | .ok root =>
      match s.stage2 vm.1 (root + 8 * bits sva 46 10) with
      | .error c => .error c
      | .ok (_, p0) =>
        let e0 := s.rmem p0 8
        if !pteV e0 || !pteOk false e0 || pteLeaf e0 then .error Cause.page
        else match s.stage2 vm.1 (pteNext e0 + 8 * bits sva 36 10) with
          | .error c => .error c
          | .ok (_, p1) =>
            let e1 := s.rmem p1 8
            if !pteV e1 || !pteOk false e1 then .error Cause.page
            else if pteLeaf e1 then .error Cause.cfg
            else match s.gUse vm.1 (pteNext e1 + 8 * bits sva 26 10) 8 true with
              | none => .error Cause.page2
              | some u => if s.seqBad s.curPart [u] then .error Cause.perm else .ok u

/-- Its physical address. -/
def level2Pa (s : State) (sva : Nat) : Except (BitVec 8) Nat := (s.level2At sva).map (·.pa)

/-- Whether its home refuses the write. -/
def level2Refused (s : State) (sva : Nat) : Bool :=
  match s.level2At sva with
  | .error c => c == Cause.perm
  | .ok _ => false

/-- What its use leaves in the page tables. -/
def level2Touch (s : State) (q : SeqBy) (sva : Nat) : State :=
  match s.level2At sva with
  | .ok u => s.seqTouch q [u]
  | .error _ => s

/-- What SQNEW and SQFORK need of a new sequence's address and of the partition: the level-2 entry's address and the new descriptor's
handle (spec/20 R399); `extra` segments are needed beside the metadata segment. A segment of the free list that the guest's stage-2
tables do not map has no guest physical address that SEGT or a segment's entry could hold: PAGE2 (DESIGN CHOICE, log entry 13). -/
def newSeqPlace (s : State) (sva extra : Nat) : Except (BitVec 8) (Nat × Nat) :=
  if sva % 0x4000000 != 0 then .error Cause.align
  else match s.level2Pa sva with
    | .error c => .error c
    | .ok p2 =>
      if pteV (s.rmem p2 8) then .error Cause.cfg
      else
        match (List.range (s.part s.curPart).seqCount).find? (fun h => !s.dV (s.seqAddr s.curPart h)) with
        | none => .error Cause.seqfull
        | some h =>
          if (s.part s.curPart).poolFree.length < 1 + extra then .error Cause.seqfull
          else if !s.namesFree (1 + extra) then .error Cause.page2
          else .ok (p2, h)

/-- A segment scrubbed to zero where it stands. -/
def zeroSeg (s : State) (seg : Nat) : State := (s.scrub (s.forward seg) 0x10000).noteDirty (s.forward seg) 0x10000

/-- Takes the first segment of the partition's free list, which is zero then (spec/20 R398). -/
def takeSeg (s : State) (p : Nat) : Nat × State :=
  match (s.part p).poolFree with
  | [] => (0, s)
  | x :: rest => (x, (s.zeroSeg x).setPart p { s.part p with poolFree := rest })

/-- A data segment enters a sequence at place k: its segment table entry, its pool count 1 (spec/20 R400, spec/18 R366). -/
def addSeg (s : State) (q : SeqBy) (d k : Nat) : State :=
  let (seg, s1) := s.takeSeg q.b.part
  (s1.gwrite q (s1.dSegt d + 8 * k) 8 ((s1.gpaOf q.vm seg).getD 0 + 0x23)).homeWrite (s1.poolEntry q.b.part seg) 16 1 q.b

/-- Creates a descriptor with its metadata segment, and points the level-2 entry at its segment table (spec/20 R398, R399). -/
def newSeq (s : State) (q : SeqBy) (loges owner sva p2 h len : Nat) : State :=
  let d := s.seqAddr q.b.part h
  let (seg, s1) := s.takeSeg q.b.part
  let m := (s1.gpaOf q.vm seg).getD 0
  let w := fun (st : State) (a n v : Nat) => st.homeWrite a n v q.b
  let s2 := w (w s1 d 8 (1 + loges * 2 + owner * 256 + 2 ^ 32)) (d + 8) 8 len
  let s3 := w (w (w s2 (d + 0x10) 8 len) (d + 0x18) 8 sva) (d + 0x20) 8 m
  w (w (w s3 (d + 0x28) 8 (m + 0x2480)) (d + 0x30) 16 (m + 0x2000)) p2 8 (m + 1)

end State

/-- SQNEW (spec/20 R399). -/
def execSqnew (p : Pred) (d a b : SReg) (s : State) : Host.Outcome State Fault Refusal :=
  let va := (s.rdS a).toNat
  let sva := (s.rdS b).toNat
  s.perform p [a, b] [] (
    if bits va 4 60 != 0 || va == 0 || 12 < va then .trap (s.faultOf Cause.cfg)
    else match s.newSeqPlace sva 0 with
      | .error c => .trap { s.faultOf c with addr := s.rdS b }
      | .ok (p2, h) =>
        s.heldVia [{ pa := s.seqAddr s.curPart h, n := 64 }] (
          if s.seqBad s.curPart [{ pa := s.seqAddr s.curPart h, n := 64, wr := true }] then .trap (s.faultOf Cause.perm)
          else .ok (((s.level2Touch s.seqBy sva).newSeq s.seqBy va s.cur.col.toNat sva p2 h 0).wrS d (BitVec.ofNat 64 h))))

namespace State

/-- Segments of a run of elements that the segment table lacks. -/
def missingSegs (s : State) (vm d lo n : Nat) : List Nat :=
  let es := s.dEs d
  (List.range ((lo + n) * es / 0x10000 + 1)).filter (fun k =>
    lo * es / 0x10000 ≤ k && k * 0x10000 < (lo + n) * es && (s.segPa vm d k).isNone)

/-- SQRSV once its checks have passed (spec/20 R400). -/
def reserve (s : State) (q : SeqBy) (d n : Nat) : State :=
  let b := s.dRl d
  let s1 := (s.missingSegs q.vm d b n).foldl (fun st k => st.addSeg q d k) s
  let r := ((List.range 64).find? (fun r => s1.resCount q.vm d r == 0)).getD 0
  let s2 := ((s1.homeWrite (d + 0x10) 8 (b + n) q.b).gwrite q (s1.dResv d + 16 * r) 8 b).gwrite q (s1.dResv d + 16 * r + 8) 8 n
  let s3 := (s2.gwrite q (s2.dSegt d + 0x2400 + 2 * r) 2 q.b.rtag.toNat).homeWrite (d + 2) 1 (s2.dNres d + 1) q.b
  s3.setLimits q d 8 ((b + n) * s3.dEs d)

end State

/-- SQRSV (spec/20 R400). -/
def execSqrsv (p : Pred) (d a b : SReg) (fault : Bool) (s : State) : Host.Outcome State Fault Refusal :=
  let n := (s.rdS b).toNat
  s.perform p [a, b] [] (s.onTables (s.rdS a) true false true (fun s q =>
    if n == 0 || s.dCap q < s.dRl q + n then .trap (s.faultOf Cause.seqrange)
    else if 64 ≤ s.dNres q then (if fault then .trap (s.faultOf Cause.seqfull) else .park s 4 (.reserve q (s.dNres q)) false)
    else if (s.part s.curPart).poolFree.length < (s.missingSegs s.curVm.1 q (s.dRl q) n).length then .trap (s.faultOf Cause.seqfull)
    else if !s.namesFree (s.missingSegs s.curVm.1 q (s.dRl q) n).length then .trap (s.faultOf Cause.page2)
    else .ok ((s.reserve s.seqBy q n).wrS d (BitVec.ofNat 64 (s.dRl q)))))

/-- SQADR (spec/20 R401). -/
def execSqadr (p : Pred) (d a b : SReg) (s : State) : Host.Outcome State Fault Refusal :=
  let i := (s.rdS b).toNat
  s.perform p [a, b] [] (s.onSeq (s.rdS a) (fun s q =>
    if s.dRl q ≤ i then .trap (s.faultOf Cause.seqrange) else .ok (s.wrS d (BitVec.ofNat 64 (s.dSva q + i * s.dEs q)))))

namespace State

/-- The elements of a reservation, segment by segment, as SQVOID writes them. -/
def voidUses (s : State) (vm d r : Nat) : List SeqUse :=
  let lo := s.resBase vm d r * s.dEs d
  let hi := lo + s.resCount vm d r * s.dEs d
  (s.segIdx vm d).filterMap (fun k => if hi ≤ k * 0x10000 || k * 0x10000 + 0x10000 ≤ lo then none else s.eUse vm d (k * 0x10000) 1 true)

/-- A commit or a void of the reservation at a base, once every earlier access of the activation has been performed (spec/20 R402). A
change of CL is progress of the colour (spec/21 R425). -/
def commit (s : State) (h : Word) (b : Nat) (void : Bool) : Act :=
  let before := s
  s.onTables h false void true (fun s q =>
    if !(s.pendingOf s.cur.aid).isEmpty then .hold before false
    else match s.resAt s.curVm.1 q b with
      | none => .trap (s.faultOf Cause.seqrange)
      | some r =>
        if s.resReady s.curVm.1 q r then .trap (s.faultOf Cause.seqrange)
        else s.onUses (if void then s.voidUses s.curVm.1 q r else []) (fun s =>
          let s1 := ((if void then s.voidElems s.seqBy q r else s).makeReady s.seqBy q r)
          .ok (if s1.dCl q != s.dCl q then s1.progress s.curRegion s.cur.col else s1).wakeUp))

end State

/-- SQCMT (spec/20 R402). -/
def execSqcmt (p : Pred) (a b : SReg) (_sc : SC) (s : State) : Host.Outcome State Fault Refusal :=
  s.perform p [a, b] [] (s.commit (s.rdS a) (s.rdS b).toNat false)

/-- SQVOID (spec/20 R402). -/
def execSqvoid (p : Pred) (a b : SReg) (_sc : SC) (s : State) : Host.Outcome State Fault Refusal :=
  s.perform p [a, b] [] (s.commit (s.rdS a) (s.rdS b).toNat true)

/-- SQLEN (spec/20 R404). -/
def execSqlen (p : Pred) (d a : SReg) (_sc : SC) (s : State) : Host.Outcome State Fault Refusal :=
  s.perform p [a] [] (s.onSeq (s.rdS a) (fun s q => .ok (s.wrS d (BitVec.ofNat 64 (s.dCl q)))))

namespace State

/-- The unit that homes a descriptor: an L2 slice or a stack SRAM controller (spec/20 R404). -/
def seqUnit (pa : Nat) : Nat :=
  match placeOf pa with
  | .sram st _ => 1024 + st
  | _ => pa / 0x100000000

/-- Sequence wait entries of a unit in use. -/
def seqWaitUsed (s : State) (u : Nat) : Nat :=
  (s.frames.filter (fun e => match e.2.wait with
    | .seqLen d _ => e.2.cont = .parked && seqUnit d == u
    | _ => false)).length

end State

/-- SQWAIT (spec/20 R404). -/
def execSqwait (p : Pred) (a b : SReg) (_sc : SC) (s : State) : Host.Outcome State Fault Refusal :=
  let n := (s.rdS b).toNat
  s.perform p [a, b] [] (s.onSeq (s.rdS a) (fun s q =>
    if n ≤ s.dCl q then .ok s
    else if Config.seqWaitEntries ≤ s.seqWaitUsed (State.seqUnit q) then .park s 4 (.seqRetry q n (s.clkOf s.curCore + 1024)) false
    else .park s 4 (.seqLen q n) false))

namespace State

/-- SQFORK once its checks have passed (spec/20 R406): `l` elements of sequence `h0` are shared; the partial segment's bytes are copied by
a tile operation. -/
def fork (s : State) (q : SeqBy) (h0 l sva p2 h : Nat) : State :=
  let nb := l * s.dEs h0
  let d := s.seqAddr q.b.part h
  let s1 := s.newSeq q (s.dLoges h0) s.cur.col.toNat sva p2 h l
  let s2 := (List.range (nb / 0x10000)).foldl (fun st k =>
    match st.segPa q.vm h0 k with
    | none => st
    | some seg =>
      let e := st.poolEntry q.b.part seg
      (st.gwrite q (st.dSegt d + 8 * k) 8 (st.gread q.vm (st.dSegt h0 + 8 * k) 8)).homeWrite e 4 (st.rmem e 4 + 1) q.b) s1
  let s3 := (List.range ((l + 7) / 8)).foldl (fun st i =>
    st.gwrite q (st.dVoid d + i) 1 (st.gread q.vm (st.dVoid h0 + i) 1 % 2 ^ (min 8 (l - 8 * i)))) s2
  if nb % 0x10000 == 0 then s3
  else
    let k := nb / 0x10000
    let s4 := s3.addSeg q d k
    let seg := (s4.segPa q.vm d k).getD 0
    let e := s4.poolEntry q.b.part seg
    let s5 := (s4.homeWrite (e + 4) 3 (nb % 0x10000) q.b).homeWrite (e + 8) 3 (nb % 0x10000) q.b
    { s5 with nextId := s5.nextId + 1,
              forks := s5.forks ++ [{ id := s5.nextId, aid := s.cur.aid, part := q.b.part, handle := d, src := (s5.segPa q.vm h0 k).getD 0,
                                      dst := seg, bytes := nb % 0x10000 }] }

end State

/-- What a fork uses beside the tables of its source: the new descriptor and the segments it takes, which it writes, and the partial segment,
which it reads. -/
def State.forkUses (s : State) (q l h : Nat) : List SeqUse :=
  let vm := s.curVm.1
  let nb := l * s.dEs q
  let part := nb % 0x10000 != 0
  [{ pa := s.seqAddr s.curPart h, n := 64, wr := true }] ++
  ((s.part s.curPart).poolFree.take (if part then 2 else 1)).filterMap (fun g => (s.gpaOf vm g).bind (fun a => s.gUse vm a 8 true)) ++
  (if part then (s.eUse vm q (nb / 0x10000 * 0x10000) (nb % 0x10000) false).toList else [])

/-- SQFORK (spec/20 R406). -/
def execSqfork (p : Pred) (d a b c : SReg) (s : State) : Host.Outcome State Fault Refusal :=
  let l := (s.rdS b).toNat
  let sva := (s.rdS c).toNat
  let before := s
  s.perform p [a, b, c] [] (s.onTables (s.rdS a) false false false (fun s q =>
    if s.dCl q < l then .trap (s.faultOf Cause.seqrange)
    else if l * s.dEs q % 0x10000 != 0 && 15 ≤ s.otoCount s.cur.aid then .hold before true
    else match s.newSeqPlace sva (if l * s.dEs q % 0x10000 == 0 then 0 else 1) with
      | .error e => .trap { s.faultOf e with addr := s.rdS c }
      | .ok (p2, h) => s.onUses (s.forkUses q l h) (fun s =>
        .ok (((s.level2Touch s.seqBy sva).fork s.seqBy q l sva p2 h).wrS d (BitVec.ofNat 64 h)))))

/-- SQREF (spec/20 R407). -/
def execSqref (p : Pred) (d a : SReg) (s : State) : Host.Outcome State Fault Refusal :=
  s.perform p [a] [] (s.onSeq (s.rdS a) (fun s q =>
    if s.dRefcnt q == 2 ^ 32 - 1 then .trap (s.faultOf Cause.cfg)
    else .ok ((s.homeWrite (q + 4) 4 (s.dRefcnt q + 1) s.byCur).wrS d (BitVec.ofNat 64 (s.dRefcnt q + 1)))))

namespace State

/-- A segment goes back to the free list, scrubbed to zero. -/
def freeSeg (s : State) (p seg : Nat) : State :=
  (s.zeroSeg seg).setPart p { s.part p with poolFree := (s.part p).poolFree ++ [seg] }

/-- The last reference to a sequence is gone: its segments, its level-2 entry and its metadata segment go, and V is clear (spec/20 R407). -/
def dropSeq (s : State) (q : SeqBy) (d : Nat) : State :=
  let asid := s.curVm.2
  let sva := s.dSva d
  let p := q.b.part
  let s1 := (s.segIdx q.vm d).foldl (fun st k =>
    match st.segPa q.vm d k with
    | none => st
    | some seg =>
      let e := st.poolEntry p seg
      let n := st.rmem e 4 - 1
      let st1 := (st.homeWrite e 4 n q.b).gwrite q (st.dSegt d + 8 * k) 8 0
      if n == 0 then (st1.homeWrite e 16 0 q.b).freeSeg p seg else st1) s
  let s2 := match s1.level2Pa sva with
    | .ok p2 => (s1.level2Touch q sva).homeWrite p2 8 0 q.b
    | .error _ => s1
  let s3 := s2.dropTlb (fun t => t.vmid == q.vm && t.asid == asid && t.gva < sva + 0x4000000 && sva < t.gva + t.size)
  let s4 := match s3.gpaPa q.vm (s3.dSegt d) with
    | some m => s3.freeSeg p m
    | none => s3
  s4.homeWrite d 1 (s4.rmem d 1 / 2 * 2) q.b

end State

/-- SQREL (spec/20 R407). -/
def execSqrel (p : Pred) (d a : SReg) (s : State) : Host.Outcome State Fault Refusal :=
  s.perform p [a] [] (s.onSeq (s.rdS a) (fun s q =>
    let n := s.dRefcnt q - 1
    if n == 0 && s.dNres q != 0 then .trap (s.faultOf Cause.cfg)
    else if n == 0 && !s.seqReach s.curVm.1 q then .trap { s.faultOf Cause.page2 with addr := BitVec.ofNat 64 (s.dSegt q) }
    else if n == 0 && s.level2Refused (s.dSva q) then .trap (s.faultOf Cause.perm)
    else s.onUses (if n == 0 then s.tableUses s.curVm.1 q true false false else []) (fun s =>
      .ok (((if n == 0 then s.dropSeq s.seqBy q else s.homeWrite (q + 4) 4 n s.byCur).wakeUp).wrS d (BitVec.ofNat 64 n)))))

/-- SQLD (spec/20 R405). An element whose segment the segment table does not hold any more is a page that stage 1 does not map. -/
def execSqld (p : Pred) (d a b c : SReg) (_sc : SC) (s : State) : Host.Outcome State Fault Refusal :=
  let i := (s.rdS b).toNat
  let o := (s.rdS c).toNat
  s.perform p [a, b, c] [] (s.onTables (s.rdS a) false false false (fun s q =>
    let g := min (s.dEs q) 8
    if s.dCl q ≤ i then .trap (s.faultOf Cause.seqrange)
    else if o % g != 0 || s.dEs q < o + g then .trap { s.faultOf Cause.align with addr := BitVec.ofNat 64 (s.dSva q + i * s.dEs q + o) }
    else match s.eUse s.curVm.1 q (i * s.dEs q + o) g false with
      | none => .trap { s.faultOf Cause.page with addr := BitVec.ofNat 64 (s.dSva q + i * s.dEs q + o) }
      | some u => s.onUses [u] (fun s =>
        if s.hasUce (s.forward u.pa) g then .done (s.uceCur (s.dSva q + i * s.dEs q + o))
        else .ok (s.wrS d (BitVec.ofNat 64 (s.rmem u.pa g))))))

/-- SQFORK_COPY_END: the bytes below L of the partial segment stand in the new one (spec/20 R406). -/
def execSqforkCopyEnd (k : Nat) (s : State) : Host.Outcome State Fault Refusal :=
  match s.forks[k]? with
  | none => .next s
  | some f => .next ({ s.homeCopy f.src f.dst f.bytes { part := f.part } with forks := dropAt s.forks k } : State).wakeUp

end Sys2Proof.Machine
end

