-- ==== Sys2Proof/Machine/Counter.lean ====
section
/-!
DEFINITION. Machine/Counter.lean: the counter instructions (spec/20 R409 to R412).
-/

namespace Sys2Proof.Machine

namespace State

/-- The fields of a counter selector (spec/20 R409). -/
def csKind (v : Nat) : Nat := bits v 0 4
def csIndex (v : Nat) : Nat := bits v 8 6
def csColour (v : Nat) : Nat := bits v 16 5

/-- A selector with a bit outside its fields, an unknown KIND, or a field its KIND does not use (spec/20 R409). -/
def csBad (v : Nat) : Bool :=
  bits v 21 43 != 0 || bits v 14 2 != 0 || bits v 4 4 != 0 || 8 ≤ csKind v ||
  (csColour v != 0 && !(3 ≤ csKind v && csKind v ≤ 5)) || (csIndex v != 0 && csKind v != 2 && csKind v != 7) ||
  (csKind v == 7 && 32 ≤ csIndex v)

/-- The counter that a selector names (spec/20 R409). -/
def counter (s : State) (v : Nat) : Nat :=
  let r := s.curRegion
  match csKind v with
  | 0 => s.oldCount s.cur.aid % 64 + s.ostCount s.cur.aid % 64 * 2 ^ 8 + s.otoCount s.cur.aid % 16 * 2 ^ 16
  | 1 => (List.range 8).foldl (fun x t => x + (s.tokenOf s.curTile t).toNat * 4 ^ t) 0
  | 2 => lget 0 (s.tile s.curTile).cherr (csIndex v)
  | 3 => (s.colour r (csColour v)).livea
  | 4 => (s.colour r (csColour v)).q
  | 5 => (s.colour r (csColour v)).stalew
  | 6 => (s.region r).linklate
  | _ =>
    let b := s.barrier s.curCore (csIndex v)
    b.exp + b.arr * 2 ^ 16 + b.phase.toNat * 2 ^ 32

end State

/-- CNTRD (spec/20 R409). -/
def execCntrd (p : Pred) (d a : SReg) (s : State) : Host.Outcome State Fault Refusal :=
  let v := (s.rdS a).toNat
  s.perform p [a] [] (
    if State.csBad v then .trap (s.faultOf Cause.cfg)
    else if 3 ≤ State.csKind v && State.csKind v ≤ 5 && State.csColour v != s.cur.col.toNat && !s.priv then .trap (s.faultOf Cause.perm)
    else .ok (s.wrS d (BitVec.ofNat 64 (s.counter v))))

/-- OWCRD (spec/20 R410). -/
def execOwcrd (p : Pred) (d a : SReg) (s : State) : Host.Outcome State Fault Refusal :=
  let v := (s.rdS a).toNat
  s.perform p [a] [] (
    if bits v 5 59 != 0 then .trap (s.faultOf Cause.cfg)
    else if v != s.cur.col.toNat && !s.priv then .trap (s.faultOf Cause.perm)
    else
      let k := s.colour s.curRegion v
      .ok (s.wrS d (BitVec.ofNat 64 (k.owc.toNat + k.nxw.toNat * 2 ^ 16 + (lget 0 (s.tile s.curTile).owc v).toNat * 2 ^ 32))))

/-- QSET (spec/20 R411). -/
def execQset (p : Pred) (a b : SReg) (s : State) : Host.Outcome State Fault Refusal :=
  let v := (s.rdS a).toNat
  let q := (s.rdS b).toNat
  s.performPriv p [a, b] (
    if bits v 5 59 != 0 || !kArmed (lget 0 (s.region s.curRegion).colours v) || q == 0 || 16384 < q || 16384 < q * s.ws s.curRegion then
      .trap (s.faultOf Cause.cfg)
    else .ok (s.setColour s.curRegion v { s.colour s.curRegion v with q := q }))

/-- CNTSET (spec/20 R412). -/
def execCntset (p : Pred) (a b : SReg) (s : State) : Host.Outcome State Fault Refusal :=
  let v := (s.rdS a).toNat
  let x := (s.rdS b).toNat
  let r := s.curRegion
  s.performPriv p [a, b] (
    if State.csBad v then .trap (s.faultOf Cause.cfg)
    else match State.csKind v with
      | 2 => if 0xFFFF < x then .trap (s.faultOf Cause.cfg)
        else .ok (s.setTile s.curTile { s.tile s.curTile with cherr := lset (s.tile s.curTile).cherr (State.csIndex v) x })
      | 5 => if 0xFFFF < x then .trap (s.faultOf Cause.cfg)
        else .ok (s.setColour r (State.csColour v) { s.colour r (State.csColour v) with stalew := x })
      | 6 => if 0xFFFFFFFF < x then .trap (s.faultOf Cause.cfg)
        else .ok (s.setRegion r { s.region r with linklate := x })
      | _ => .trap (s.faultOf Cause.cfg))

end Sys2Proof.Machine
end

