-- ==== Sys2Proof/Machine/ConfigInstr.lean ====
section
/-!
DEFINITION. Machine/ConfigInstr.lean: loading, arming and disarming a region (spec/18 R369 to R374), dictionaries and codebooks
(R375, R376), and TLB invalidation (R377).
-/

namespace Sys2Proof.Machine

namespace State

/-- A configuration instruction: privileged, complete before the next one issues, and a release of DEVICE scope (spec/18 R369). -/
def performCfg (s : State) (p : Pred) (rs : List SReg) (a : Act) : Host.Outcome State Fault Refusal :=
  s.performPriv p rs (if s.holds p && !(s.pendingOf s.cur.aid).isEmpty then .hold s false else a)

/-- The status word (spec/18 R373). -/
def cfgStatus (code colour item : Nat) : Word := BitVec.ofNat 64 (code + colour * 2 ^ 8 + item * 2 ^ 16)

/-! Reading what a configuration instruction names. -/

/-- Reads 64-byte pieces upward from an address: their value as one number, or the fault and its address. -/
def readPieces (s : State) (gva : Nat) : (pieces k : Nat) → Nat → State → Except (BitVec 8 × Nat) (Nat × State)
  | 0, _, acc, st => .ok (acc, st)
  | n + 1, k, acc, st =>
    match st.engRead s.curRegion s.curPart s.curCore s.cur.col s.cur.wave (gva + 64 * k) 64 with
    | .error c => .error (c, gva + 64 * k)
    | .ok (v, st1) => readPieces s gva n (k + 1) (acc + v * 2 ^ (512 * k)) st1

/-- Reads n words of some bytes upward from an address. -/
def readWords (s : State) (gva bytes : Nat) : (n k : Nat) → List Nat → State → Except (BitVec 8 × Nat) (List Nat × State)
  | 0, _, acc, st => .ok (acc.reverse, st)
  | n + 1, k, acc, st =>
    match st.engRead s.curRegion s.curPart s.curCore s.cur.col s.cur.wave (gva + bytes * k) bytes with
    | .error c => .error (c, gva + bytes * k)
    | .ok (v, st1) => readWords s gva bytes n (k + 1) (v :: acc) st1

/-- The memory that a configuration instruction reads: n bytes from an address. -/
def curPieces (s : State) (gva n : Nat) : List Piece := s.engPieces s.curRegion s.curPart s.curCore s.cur.col s.cur.wave false gva n 0

/-- A fault while reading: it traps precisely with nothing written; an uncorrectable error is contained (spec/18 R370, spec/21
R424). -/
def readFault (s : State) (f : BitVec 8 × Nat) : Act :=
  if f.1 = Cause.uce then
    .done ((s.uceMark s.curRegion s.curPart s.curCore s.cur.col s.cur.wave f.2 64).uceCur f.2)
  else .trap { s.faultOf f.1 with addr := BitVec.ofNat 64 f.2 }

end State

/-! Configuration images (spec/18 R371). -/

/-- A section descriptor. -/
structure Section where
  kind : Nat := 0
  rcore : Nat := 0
  tile : Nat := 0
  first : Nat := 0
  count : Nat := 0
  offset : Nat := 0
deriving DecidableEq, Repr

/-- One more than the highest entry that a section writes. -/
def Section.top (x : Section) : Nat := if x.count == 0 then 0 else x.first + x.count

/-- n bytes of an image at an offset. -/
def imgAt (img off n : Nat) : Nat := bits img (8 * off) (8 * n)

/-- Bytes of one entry of a kind of section; 0 for an unknown kind. -/
def secUnit : Nat → Nat
  | 1 | 2 | 7 | 12 => 32
  | 3 | 4 | 5 => 8
  | 6 => 4
  | 8 => 64
  | 9 | 10 | 11 => 1
  | _ => 0

/-- Entries that a kind's table has; for data, the first place beyond the memory. -/
def secLimit : Nat → Nat
  | 1 => 1
  | 2 => 32
  | 3 => 16
  | 4 => 64
  | 5 | 7 | 8 => 1024
  | 6 | 12 => 256
  | 9 => 0x10000
  | 10 => 0x80000
  | 11 => 0x800000
  | _ => 0

/-- Section k of an image. -/
def secAt (img k : Nat) : Section :=
  let o := 64 + 16 * k
  { kind := imgAt img o 1, rcore := imgAt img (o + 1) 1, tile := imgAt img (o + 2) 1, first := imgAt img (o + 4) 4,
    count := imgAt img (o + 8) 4, offset := imgAt img (o + 12) 4 }

/-- Whether a section is well formed: known kind, cores and tiles that exist, entries within the table and the image. -/
def secOk (img ncores size k : Nat) : Bool :=
  let x := secAt img k
  secUnit x.kind != 0 && imgAt img (64 + 16 * k + 3) 1 == 0 && x.rcore < ncores && x.tile < 32 &&
  x.first + x.count ≤ secLimit x.kind && (x.kind != 10 || Config.dataHalf ≤ x.first) &&
  (x.kind != 9 || (x.first % 2 == 0 && x.count % 2 == 0)) && x.offset + x.count * secUnit x.kind ≤ size

/-- Whether an image's header is well formed. A nonzero byte that spec/18 R371 says is zero makes the header, or a section's descriptor,
malformed (DESIGN CHOICE, log entry 67). -/
def headerOk (img : Nat) : Bool :=
  imgAt img 0 2 == 1 && 1 ≤ imgAt img 2 1 && imgAt img 2 1 ≤ 16 && imgAt img 3 1 == 0 && imgAt img 0x0A 54 == 0 &&
  64 + 16 * imgAt img 8 2 ≤ imgAt img 4 4

/-- The first malformed section, an image without a region record being malformed at its end. -/
def badSection (img : Nat) : Option Nat :=
  let n := imgAt img 8 2
  match (List.range n).find? (fun k => !secOk img (imgAt img 2 1) (imgAt img 4 4) k) with
  | some k => some k
  | none => if (List.range n).any (fun k => (secAt img k).kind == 1) then none else some n

namespace State

/-- The region that a region record describes, on the cores it is loaded onto (spec/18 R355, R370). -/
def regionFrom (v : Nat) (cores : List Nat) (graph die : Nat) : Region :=
  { st := 1, trapv := bit v 2, logws := bits v 8 8, trapTile := bits v 16 5, trapSlot := bits v 24 4, trapCore := bits v 28 4,
    graph := BitVec.ofNat 16 graph, cores := cores, subsc := BitVec.ofNat 48 (bits v 64 48), die := die,
    heap := BitVec.ofNat 64 (bits v 128 64), spill := BitVec.ofNat 64 (bits v 192 64) }

/-- A table with a section's entries put in. -/
def putEntries {w : Nat} (img : Nat) (x : Section) (m : SMap (BitVec w)) : SMap (BitVec w) :=
  (List.range x.count).foldl
    (fun m i => lset m (x.first + i) (BitVec.ofNat w (imgAt img (x.offset + i * secUnit x.kind) (secUnit x.kind)))) m

/-- The bits that a table's entries have (spec/18 R353, R354, R356); the others read as zero (spec/00 R7), and so does ARMED of a colour's
entry, which CFGARM alone sets (spec/00 R6). -/
def entryBits : (table : Nat) → BitVec 256
  | 2 => ~~~(0xF8#256 ||| (0xE0#256 <<< 24) ||| (0xFFF#256 <<< 64) ||| (0xFFFF#256 <<< 112) ||| (0xFFFFFF#256 <<< 168))
  | 3 => 0xFFFFFFFFC0007FFF#256
  | _ => 0xFFFFFFFFFFFFFFFF#256

/-- Colour entries of a section: their reserved bits and ARMED are zero, and Q is the colour's admission quota (spec/19 R383). -/
def putColours (s : State) (r img : Nat) (x : Section) : State :=
  let s1 := s.setRegion r { s.region r with colours := (putEntries img x (s.region r).colours).map (fun e => (e.1, e.2 &&& entryBits 2)) }
  (List.range x.count).foldl (fun st i =>
    st.setColour r (x.first + i) { st.colour r (x.first + i) with q := kQ (lget 0 (st.region r).colours (x.first + i)) }) s1

/-- Writes one section onto the cores (spec/18 R370): entries into tables, bytes into memories. -/
def writeSection (s : State) (r : Nat) (cores : List Nat) (img : Nat) (x : Section) : State :=
  let c := (cores[x.rcore]?).getD r
  let t := c * 32 + x.tile
  match x.kind with
  | 2 => s.putColours r img x
  | 3 => s.setTile t { s.tile t with
      handlers := (putEntries img x (s.tile t).handlers).map (fun e => (e.1, e.2 &&& (entryBits 3).setWidth 64)) }
  | 4 => s.setTile t { s.tile t with chans := putEntries img x (s.tile t).chans }
  | 5 => s.setTile t { s.tile t with
      dict := putEntries img x (s.tile t).dict,
      dictSize := max (s.tile t).dictSize x.top }
  | 6 => s.setRegion r { s.region r with codebook := putEntries img x (s.region r).codebook }
  | 7 => s.setCore c { s.core c with
      templates := putEntries img x (s.core c).templates,
      nTemplates := max (s.core c).nTemplates x.top }
  | 8 => s.setCore c { s.core c with
      tasks := putEntries img x (s.core c).tasks,
      nTasks := max (s.core c).nTasks x.top }
  | 9 =>
    let code := (List.range (x.count / 2)).foldl
      (fun m i => lset m (x.first / 2 + i) (BitVec.ofNat 16 (imgAt img (x.offset + 2 * i) 2))) (s.tile t).code
    s.setTile t { s.tile t with
      code := code,
      codeLen := max (s.tile t).codeLen ((x.first + x.count) / 2) }
  | 10 => s.twrite t x.first x.count (imgAt img x.offset x.count)
  | 11 =>
    let pa := scratchPa c x.first
    let s1 := { s with mem := mwrite s.mem pa x.count (imgAt img x.offset x.count),
                       uce := s.uce.filter (fun a => !(pa ≤ a && a < pa + x.count)) }
    if x.count == 0 then s1 else s1.setWords pa x.count 1
  | 12 => s.setRegion r { s.region r with fixed := putEntries img x (s.region r).fixed }
  | _ => s

/-- The offset in the spill area of each valid colour's ring, in ascending colour order, and where the last one ends (spec/18
R355). -/
def ringPlaces (r : Region) : List (Nat × Nat × Nat) × Nat :=
  (List.range 32).foldl (fun (acc : List (Nat × Nat × Nat) × Nat) c =>
    let e := lget 0 r.colours c
    if kValid e then
      let o := (acc.2 + 4095) / 4096 * 4096
      (acc.1 ++ [(c, o, o + kSpilln e * 5120)], o + kSpilln e * 5120)
    else acc) ([], 0)

/-- SPILLPA of each valid colour, filled (spec/18 R355, R356). -/
def fillSpill (s : State) (r : Nat) : State :=
  (ringPlaces (s.region r)).1.foldl (fun st x =>
    let g := st.region r
    let e := lget 0 g.colours x.1
    let base := st.areaPa r g.spill + x.2.1
    let e1 := (e &&& ~~~(0xFFFFFFFFFFFFFFFF#256 <<< 64)) ||| (BitVec.ofNat 256 (bits base 12 36 * 0x1000) <<< 64)
    st.setRegion r { g with colours := lset g.colours x.1 e1 }) s

/-- A tile that nothing has touched: it has been idle since reset, and gated as long idleness gates it (spec/22 R439). -/
def restedTile (s : State) : Tile :=
  let cg := s.hub.tileCg
  if cg == 0 || s.now < cg then { idle := s.now }
  else if s.hub.tilePg == 0 || s.now < cg + s.hub.tilePg then { gate := .clock, idle := s.now - cg }
  else { gate := .power }

/-- Whether a section belongs to a tile. -/
def Section.ofTile (x : Section) : Bool := (3 ≤ x.kind && x.kind ≤ 5) || x.kind == 9 || x.kind == 10

/-- Loads a checked image (spec/18 R370). -/
def loadImage (s : State) (img : Nat) (cores : List Nat) (graph die : Nat) : State :=
  let r := cores.headD 0
  let secs := (List.range (imgAt img 8 2)).map (secAt img)
  let rec_ := (secs.find? (fun x => x.kind == 1)).map (fun x => imgAt img x.offset 32)
  let s1 := s.setRegion r (regionFrom (rec_.getD 0) cores graph die)
  let s2 := cores.foldl (fun st c => st.setCore c { st.core c with region := some r }) s1
  let s2 : State := { s2 with tiles := s2.tiles.map (fun t => if cores.contains (t.1 / 32) then (t.1, { t.2 with code := [], codeLen := 0 }) else t) }
  let s3 := (secs.filter Section.ofTile).foldl (fun st x =>
    let t := (cores[x.rcore]?).getD r * 32 + x.tile
    if (lget? st.tiles t).isSome then st else st.setTile t s.restedTile) s2
  (secs.foldl (fun st x => st.writeSection r cores img x) s3).fillSpill r

end State

namespace State

/-- Whether an area of stack SRAM that a HEAP or SPILL field names lies outside the issuing partition (spec/18 R355, R369). -/
def areaBad (s : State) (die : Nat) (w : Nat) : Bool :=
  let off := bits w 12 20 * 0x1000
  bit w 0 && (List.range ((off % 0x4000000 + max (bits w 32 32) 1 + 0x3FFFFFF) / 0x4000000)).any (fun i =>
    s.ownerOf (sramPa die (off / 0x4000000 * 0x4000000 + i * 0x4000000)) != s.curPart)

/-- Whether an image names a stack SRAM range, or a valid colour's VMID, outside the issuing partition (spec/18 R369). -/
def imageBad (s : State) (img die : Nat) : Bool :=
  ((List.range (imgAt img 8 2)).map (secAt img)).any (fun x =>
    (x.kind == 1 && 0 < x.count && (s.areaBad die (imgAt img (x.offset + 16) 8) || s.areaBad die (imgAt img (x.offset + 24) 8))) ||
    (x.kind == 2 && (List.range x.count).any (fun i =>
      let e := imgAt img (x.offset + 32 * i) 32
      let v := s.vmEntry (bits e 8 8)
      bit e 0 && (!bit v 0 || bits v 1 4 != s.curPart))))

end State

/-- The memory that CFGLD reads: the image as its header gives its size, or the header alone. -/
def State.imagePieces (s : State) (gva : Nat) : List Piece :=
  match s.readPieces gva 1 0 0 s with
  | .error _ => s.curPieces gva 64
  | .ok (hd, _) => s.curPieces gva (if headerOk hd then (imgAt hd 4 4 + 63) / 64 * 64 else 64)

/-- CFGLD (spec/18 R369 to R371, R373). -/
def execCfgld (p : Pred) (d a b : SReg) (s : State) : Host.Outcome State Fault Refusal :=
  let gva := (s.rdS a).toNat
  let v := (s.rdS b).toNat
  let die := bits v 16 2
  let cores := ((List.range 16).filter (fun c => bit v c)).map (fun c => die * 16 + c)
  s.performCfg p [a, b] (
    if bits v 18 14 != 0 || bits v 48 16 != 0 then .trap (s.faultOf Cause.cfg)
    else if cores.any (fun c => s.partOf c != s.curPart) then .trap (s.faultOf Cause.perm)
    else if gva % 64 != 0 then .trap { s.faultOf Cause.align with addr := s.rdS a }
    else s.heldVia (s.imagePieces gva) (match s.readPieces gva 1 0 0 s with
      | .error f => s.readFault f
      | .ok (hd, s0) =>
        if !headerOk hd then .ok (s0.wrS d (State.cfgStatus 0x0A 0 0))
        else match s0.readPieces gva ((imgAt hd 4 4 + 63) / 64) 0 0 s0 with
          | .error f => s0.readFault f
          | .ok (img, s1) =>
            match badSection img with
            | some k => .ok (s1.wrS d (State.cfgStatus 0x0A 0 k))
            | none =>
              if s1.imageBad img die then .trap (s.faultOf Cause.perm)
              else if cores.any (fun c => (s.core c).region.isSome) then .ok (s1.wrS d (State.cfgStatus 0x0B 0 0))
              else if cores.length != imgAt img 2 1 then .ok (s1.wrS d (State.cfgStatus 0x0E 0 0))
              else .ok ((s1.loadImage img cores (bits v 32 16) die).wrS d 0)))

/-! The checks of arming (spec/18 R373). -/

/-- Channels of a fixed operator's outgoing ports (spec/03 R76). -/
def opOutPorts (e : BitVec 256) : List Nat := (List.range 4).filterMap (opOut e)

namespace State

/-- The channels of a region's graph, in ascending order. -/
def chanNums (s : State) (r : Nat) : List Nat :=
  (List.range 64).filter (fun n => (s.usedTiles r).any (fun t => (lget? (s.tile t).chans n).any cHere))

/-- Entries of a channel, with their tiles (spec/18 R354). -/
def entriesOfChan (s : State) (r n : Nat) : List (Nat × BitVec 64) :=
  (s.usedTiles r).filterMap (fun t => ((lget? (s.tile t).chans n).filter cHere).map (fun e => (t, e)))

/-- Σ RPW over every channel of the graph, as a wave of a colour sees the channels' entries (spec/02 R46, R59). -/
def sumRpw (s : State) (r : Nat) (c : BitVec 5) (w : BitVec 16) : Nat :=
  ((s.chanNums r).map (fun n => cRpw (s.chanOf r n c w))).foldl (· + ·) 0

/-- An end of a channel: the subgraph of its operator, the core it stands on, whether it is a boundary node. -/
structure ChanEnd where
  sub : Nat
  core : Nat
  boundary : Bool
deriving DecidableEq, Repr

def opEnd (s : State) (r : Nat) (e : BitVec 256) : ChanEnd :=
  { sub := oSub e, core := ((s.region r).coreAt (oPlace e)).getD r, boundary := oKind e == 5 }

def slotEnd (s : State) (t : Nat) (slot : BitVec 4) : ChanEnd :=
  { sub := hSub (lget 0 (s.tile t).handlers slot.toNat), core := t / 32, boundary := false }

/-- The producers of a channel, and its consumers: handler ends, and the fixed operators that name it; an island, streamer or
boarding node names it at the end that nothing else has. -/
def chanEnds (s : State) (r n : Nat) : List ChanEnd × List ChanEnd :=
  let es := s.entriesOfChan r n
  let ps := (es.filter (fun e => cOV e.2)).map (fun e => s.slotEnd e.1 (cOSlot e.2)) ++
    ((s.region r).fixed.filter (fun o => (opOutPorts o.2).contains n)).map (fun o => s.opEnd r o.2)
  let cs := (es.filter (fun e => cIV e.2)).map (fun e => s.slotEnd e.1 (cISlot e.2)) ++
    ((s.region r).fixed.filter (fun o => (opInPorts o.2).contains n)).map (fun o => s.opEnd r o.2)
  let ns := ((s.region r).fixed.filter (fun o => 10 ≤ oKind o.2 && oKind o.2 ≤ 12 && (List.range 4).any (fun k => oPort o.2 k == n))).map
    (fun o => s.opEnd r o.2)
  (if ps.isEmpty then ns else ps, if cs.isEmpty then ns else cs)

/-- Scope of a subgraph (spec/18 R355). -/
def subScope (s : State) (r k : Nat) : Nat := bits (s.region r).subsc.toNat (3 * k) 3

/-- The first check that a channel fails (spec/02 R27). -/
def chanBad (s : State) (r n : Nat) : Option Nat :=
  let es := s.entriesOfChan r n
  let (ps, cs) := s.chanEnds r n
  if es.any (fun a => es.any (fun b => cFmt a.2 != cFmt b.2)) then some 1
  else if ps.any (fun a => cs.any (fun b => s.subScope r a.sub != s.subScope r b.sub && !a.boundary && !b.boundary)) then some 2
  else if es.any (fun a => cIV a.2 && 16 < cBase a.2 + cBeats a.2) then some 3
  else none

/-- Cores that a channel's circuit joins: those of its producer and of its consumer, where they differ (spec/08 R157). The entry or exit
ports of several colours that form one port of the channel share its circuit. -/
def circuitOf (s : State) (r n : Nat) : List Nat :=
  let (ps, cs) := s.chanEnds r n
  if ps.any (fun a => cs.any (fun b => a.core != b.core)) then ((ps ++ cs).map (·.core)).eraseDups else []

/-- Cores that the circuit of a remote-scratchpad node joins. -/
def nodeCircuit (s : State) (r : Nat) (e : BitVec 256) : List Nat :=
  let x := s.region r
  if oKind e != 13 then [] else [(x.coreAt (oPlace e)).getD r, (x.coreAt (bits (oP0 e).toNat 1 4)).getD r].eraseDups

/-- The circuits of a region, each with the cores it joins: one for each channel between cores, one for each remote-scratchpad node with
its target on another core (numbered from 256), and the drain circuits of a gang, one from each core (numbered from 512) (spec/08
R157, spec/13 R280). -/
def circuitsOf (s : State) (r : Nat) : List (Nat × List Nat) :=
  let x := s.region r
  let chans : List (Nat × List Nat) := (s.chanNums r).map (fun n => (n, s.circuitOf r n))
  let nodes : List (Nat × List Nat) := x.fixed.map (fun o => (256 + o.1, s.nodeCircuit r o.2))
  let drains : List (Nat × List Nat) := if x.cores.length == 2 then x.cores.map (fun c => (512 + x.rcoreOf c, x.cores)) else []
  (chans ++ nodes ++ drains).filter (fun e => 1 < e.2.length)

/-- Circuits that end at a core. -/
def circuitsAt (s : State) (r c : Nat) : Nat := ((s.circuitsOf r).filter (fun e => e.2.contains c)).length

/-- Slots of a tile that hold a handler, in ascending order. -/
def slotsOf (s : State) (t : Nat) : List Nat := ((s.tile t).handlers.filter (fun h => hV h.2)).map (·.1)

/-- The frames of a tile that windows hold, with the windows' sizes. -/
def takenFrames (s : State) (r : Nat) (ws : SMap Nat) : List (Nat × Nat) :=
  ws.map (fun w => (w.2, kW (lget 0 (s.region r).colours (w.1 % 32))))

/-- The lowest run of w frames of a tile that no window holds (spec/02 R41). -/
def freeRun (s : State) (r : Nat) (ws : SMap Nat) (w : Nat) : Option Nat :=
  let taken := s.takenFrames r ws
  (List.range (Config.frames + 1 - w)).find? (fun b => taken.all (fun x => b + w ≤ x.1 || x.1 + x.2 ≤ b))

/-- The windows of a tile with one more for each slot and colour (spec/02 R41). -/
def carveTile (s : State) (r t : Nat) (cols : List Nat) : Option (SMap Nat) :=
  ((s.slotsOf t).flatMap (fun k => cols.map (fun c => (k * 32 + c, kW (lget 0 (s.region r).colours c))))).foldl
    (fun acc x => acc.bind (fun ws => (s.freeRun r ws x.2).map (fun b => lset ws x.1 b))) (some (s.tile t).windows)

/-- A template that breaks the rules (spec/18 R361). -/
def templateBad (v : BitVec 256) : Bool :=
  let x := v.toNat
  bits x 192 32 == 0 || bits x 229 3 != 0 || bits x 236 4 != 0 || bits x 224 3 == 7 ||
  (bit x 227 && bits x 116 12 != 0) || (!bit x 228 && (bits x 240 8 != 1 || bits x 248 8 != 1))

/-- A fixed operator entry that breaks the rules (spec/18 R357). -/
def fixedBad (s : State) (r : Nat) (e : BitVec 256) : Bool :=
  let x := e.toNat
  let k := oKind e
  let ports := (opPorts k).1 + (opPorts k).2
  let chans := s.chanNums r
  let into := fun n => chans.contains n && !(s.entriesOfChan r n).any (fun a => cIV a.2)
  let from_ := fun n => chans.contains n && !(s.entriesOfChan r n).any (fun a => cOV a.2)
  k != 0 && (
    13 < k || bits x 12 4 != 0 || bits x 20 4 != 0 || bits x 29 3 != 0 || (!(k == 1 || k == 2) && bits x 24 5 != 0) ||
    bits x 192 64 != 0 ||
    (match k with
     | 3 => bits x 128 64 != 0
     | 4 => bits x 70 26 != 0
     | 13 => bits x 69 27 != 0
     | 9 => bits x 69 27 != 0 || bits x 96 96 != 0
     | 10 => bits x 67 29 != 0 || bits x 96 96 != 0
     | _ => bits x 64 128 != 0) ||
    (opInPorts e).any (fun n => !into n) || (opOutPorts e).any (fun n => !from_ n) ||
    (10 ≤ k && k ≤ 12 && (List.range 4).any (fun i => oPort e i != 0xFF && !chans.contains (oPort e i))) ||
    (!(10 ≤ k && k ≤ 12) && (List.range 4).any (fun i => ports ≤ i && oPort e i != 0xFF)) ||
    (match k with
     | 2 => (opInPorts e).isEmpty
     | 3 | 4 | 5 | 6 | 13 => oPort e 0 == 0xFF
     | 7 | 8 => oPort e 0 == 0xFF || oPort e 1 == 0xFF
     | _ => false))

/-- The first of some numbers that a test gives a value for, with it. -/
def failing (l : List Nat) (f : Nat → Bool) : Option Nat := l.find? f

/-- The checks of arming in the order of spec/18 R373, for the colours to be armed: code, colour and item of the first that fails. No check
refuses a LOGW of 7 or a LOGWS above 6, which lie outside their tables: W is then 128 and WS 2 to the LOGWS (DESIGN CHOICE, log entry 68);
nor a channel of more than 16 beats into a counter, steer, merge, boundary, wave-advance or conversion node, which spec/02 R38 names for
no such channel (DESIGN CHOICE, log entry 69). -/
def armBad (s : State) (r : Nat) (cols : List Nat) : Option (Nat × Nat × Nat) :=
  let x := s.region r
  let col := fun c => lget 0 x.colours c
  let places := (ringPlaces x).1
  match (s.chanNums r).findSome? (fun n => (s.chanBad r n).map (fun c => (c, n))) with
  | some (code, n) => some (code, 0, n)
  | none =>
  match failing cols (fun c => kLogW (col c) < x.logws) with
  | some c => some (4, c, 0)
  | none =>
  match failing cols (fun c => 16384 < kQ (col c) * s.ws r) with
  | some c => some (7, c, 0)
  | none =>
  match failing cols (fun c => kSpilln (col c) < kQ (col c) * s.sumRpw r (BitVec.ofNat 5 c) 0 ||
      places.any (fun y => y.1 == c && (x.spill.extractLsb' 32 32).toNat < y.2.2)) with
  | some c => some (6, c, 0)
  | none =>
  match failing (s.heapTiles r) (fun t => (s.carveTile r t cols).isNone ||
      (x.heap.extractLsb' 32 32).toNat < ((firstIdx (· == t) (s.heapTiles r)).getD 0 + 1) * 0x41000) with
  | some t => some (5, 0, x.rcoreOf (t / 32) * 32 + t % 32)
  | none =>
  match failing x.cores (fun c => 64 < s.circuitsAt r c) with
  | some c => some (8, 0, c % 16)
  | none =>
  match failing (s.heapTiles r) (fun t => (s.slotsOf t).any (fun i => (s.slotsOf t).any (fun j =>
      i != j && (hAcc (lget 0 (s.tile t).handlers i) &&& hAcc (lget 0 (s.tile t).handlers j)) != 0))) with
  | some t => some (9, 0, t % 32)
  | none =>
  match x.cores.findSome? (fun c => failing (List.range (s.core c).nTemplates) (fun i =>
      ((lget? (s.core c).templates i).map templateBad).getD false)) with
  | some i => some (0x0D, 0, i)
  | none =>
  match x.cores.findSome? (fun c => failing (List.range (s.core c).nTasks) (fun i =>
      !taskOk (s.core c).nTasks (lget 0 (s.core c).tasks i))) with
  | some i => some (0x0D, 0, i)
  | none => (failing (x.fixed.map (·.1)) (fun n => s.fixedBad r (s.opEntry r n))).map (fun n => (0x0D, 0, n))

/-- What arming does for one colour (spec/18 R372). Q keeps the value that CFGLD, QSET or a reconfiguration gave it (spec/19 R383). The KS and
ROWS of bound records, which R372 does not list, outlive a disarming and an arming (DESIGN CHOICE, log entry 85). -/
def armColour (s : State) (r c : Nat) : State :=
  let x := s.region r
  let e := lget 0 x.colours c
  let s1 := s.setRegion r { x with colours := lset x.colours c (e ||| 8), skips := x.skips.filter (fun k => k.1 / 64 % 32 != c) }
  let s2 := s1.setColour r c { q := (s.colour r c).q }
  (s2.usedTiles r).foldl (fun st t =>
    let y := st.tile t
    st.setTile t { y with fctl := y.fctl.filter (fun k => k.1 % 32 != c), fstat := y.fstat.filter (fun k => k.1 % 32 != c),
                          skips := y.skips.filter (fun k => k.1 / 64 % 32 != c), owc := ldel y.owc c }) s2

/-- Arms colours of a region: windows carved, counters cleared, ARMED set (spec/18 R372). -/
def armColours (s : State) (r : Nat) (cols : List Nat) : State :=
  let s1 := (s.heapTiles r).foldl (fun st t => st.setTile t { st.tile t with windows := (s.carveTile r t cols).getD [] }) s
  cols.foldl (fun st c => st.armColour r c) s1

/-- What arming a whole region does besides: circuits, accumulators and top-k units, tokens, barriers, LINKLATE, and the tiles
awake (spec/18 R372, spec/19 R380, R383, R385, spec/22 R439). -/
def armRegion (s : State) (r : Nat) : State :=
  let s1 := (s.usedTiles r).foldl (fun st t =>
    st.setTile t { st.tile t with acc := [], accTag := [], topk := [], tokens := [], gate := .awake, idle := 0 }) s
  let s2 := (s1.region r).cores.foldl (fun st c => st.setCore c { st.core c with barriers := [] }) s1
  let x := s2.region r
  s2.setRegion r { x with
    st := 2, linklate := 0,
    circuits := s.circuitsOf r }

/-- The colours that CFGARM arms: those with ARMREQ, or the one named. None: the region or the colour is in the wrong state. -/
def armSet (s : State) (r : Nat) (one : Bool) (c : Nat) : Option (List Nat) :=
  let x := s.region r
  let e := lget 0 x.colours c
  if one then (if x.st == 2 && kValid e && !kArmed e then some [c] else none)
  else if x.st == 1 then some ((List.range 32).filter (fun k => kValid (lget 0 x.colours k) && kArmreq (lget 0 x.colours k)))
  else none

end State

/-- CFGARM (spec/18 R372, R373). -/
def execCfgarm (p : Pred) (d a : SReg) (s : State) : Host.Outcome State Fault Refusal :=
  let v := (s.rdS a).toNat
  let r := bits v 16 2 * 16 + bits v 0 4
  s.performCfg p [a] (
    if bits v 10 6 != 0 || bits v 18 46 != 0 then .trap (s.faultOf Cause.cfg)
    else if s.partOf r != s.curPart then .trap (s.faultOf Cause.perm)
    else match s.armSet r (bit v 9) (bits v 4 5) with
      | none => .ok (s.wrS d (State.cfgStatus 0x0C 0 0))
      | some cols =>
        match s.armBad r cols with
        | some (code, c, i) => .ok (s.wrS d (State.cfgStatus code c i))
        | none =>
          let s1 := s.armColours r cols
          .ok ((if bit v 9 then s1 else s1.armRegion r).wrS d 0))

namespace State

/-- Whether a colour is live (spec/18 R374). -/
def colourLive (s : State) (r c : Nat) : Bool :=
  let k := s.colour r c
  k.nxw != k.owc || !k.spill.isEmpty || (s.seqsOf (s.partOf r)).any (fun d => s.dOwner d == c && s.dNres d != 0)

/-- Disarms a colour: ARMED cleared, its frames returned (spec/18 R374). -/
def disarmColour (s : State) (r c : Nat) : State :=
  let x := s.region r
  let s1 := s.setRegion r { x with colours := lset x.colours c (lget 0 x.colours c &&& ~~~8#256) }
  let s2 := (s1.framesOf r).foldl (fun st k =>
    if (st.frame k).alloc && (st.frame k).col.toNat == c then st.setFrame k { gen := (st.frame k).gen } else st) s1
  (s2.usedTiles r).foldl (fun st t =>
    st.setTile t { st.tile t with windows := (st.tile t).windows.filter (fun w => w.1 % 32 != c) }) s2

/-- Every table of a region at its reset value, and its cores freed (spec/18 R352, R374). -/
def unload (s : State) (r : Nat) : State :=
  let cores := (s.region r).cores
  let s1 := (s.usedTiles r).foldl (fun st t =>
    st.setTile t { st.tile t with handlers := [], chans := [], dict := [], dictSize := 0, cherr := [] }) s
  let s2 := cores.foldl (fun st c => st.setCore c {
    st.core c with region := none, templates := [], nTemplates := 0, tasks := [], nTasks := 0 }) s1
  s2.setRegion r {}

/-- Colours that are armed. -/
def armedOf (s : State) (r : Nat) : List Nat := (List.range 32).filter (fun c => kArmed (lget 0 (s.region r).colours c))

end State

/-- CFGDIS (spec/18 R374). -/
def execCfgdis (p : Pred) (d a : SReg) (s : State) : Host.Outcome State Fault Refusal :=
  let v := (s.rdS a).toNat
  let r := bits v 16 2 * 16 + bits v 0 4
  let c := bits v 4 5
  let one := bit v 9
  let un := bit v 10
  let cols := if one then [c] else s.armedOf r
  s.performCfg p [a] (
    if bits v 11 5 != 0 || bits v 18 46 != 0 then .trap (s.faultOf Cause.cfg)
    else if s.partOf r != s.curPart then .trap (s.faultOf Cause.perm)
    else if (if one then (s.region r).st != 2 || !kArmed (lget 0 (s.region r).colours c)
        else (s.region r).st == 0 || ((s.region r).st == 1 && !un)) then .ok (s.wrS d (State.cfgStatus 0x0C 0 0))
    else match cols.find? (s.colourLive r) with
      | some _ => .ok (s.wrS d (State.cfgStatus 0x0B 0 0))
      | none =>
        let s1 := cols.foldl (fun st k => st.disarmColour r k) s
        if one then .ok (s1.wrS d 0)
        else
          let s2 := s1.setRegion r { s1.region r with st := 1, circuits := [], reconfs := [] }
          .ok ((if un then s2.unload r else s2).wrS d 0))

/-- DICTLD (spec/18 R375). -/
def execDictld (p : Pred) (d a b : SReg) (s : State) : Host.Outcome State Fault Refusal :=
  let gva := (s.rdS a).toNat
  let v := (s.rdS b).toNat
  let first := bits v 9 10
  let n := bits v 19 11
  s.performCfg p [a, b] (match (s.region s.curRegion).coreAt (bits v 5 4) with
    | none => .trap (s.faultOf Cause.cfg)
    | some core =>
      if bits v 30 34 != 0 || n == 0 || 1024 < n || 1024 < first + n then .trap (s.faultOf Cause.cfg)
      else if gva % 8 != 0 then .trap { s.faultOf Cause.align with addr := s.rdS a }
      else s.heldVia (s.curPieces gva (8 * n)) (match s.readWords gva 8 n 0 [] s with
        | .error f => s.readFault f
        | .ok (ws, s1) =>
          if ws.any (fun w => bits w 62 2 == 0) then .trap (s.faultOf Cause.cfg)
          else
            let t := core * 32 + bits v 0 5
            let y := s1.tile t
            let size := max y.dictSize (first + n)
            let dict := (List.range n).foldl (fun m i => lset m (first + i) (BitVec.ofNat 64 (ws[i]?.getD 0))) y.dict
            .ok ((s1.setTile t { y with dict := dict, dictSize := size }).wrS d (BitVec.ofNat 64 size))))

/-- CBLD (spec/18 R376): every copy of the codebook takes the new version (log entry 6). -/
def execCbld (p : Pred) (d a b : SReg) (s : State) : Host.Outcome State Fault Refusal :=
  let gva := (s.rdS a).toNat
  let v := (s.rdS b).toNat
  let first := bits v 0 8
  let n := bits v 8 9
  s.performCfg p [a, b] (
    if bits v 17 47 != 0 || n == 0 || 256 < n || 256 < first + n then .trap (s.faultOf Cause.cfg)
    else if gva % 4 != 0 then .trap { s.faultOf Cause.align with addr := s.rdS a }
    else s.heldVia (s.curPieces gva (4 * n)) (match s.readWords gva 4 n 0 [] s with
      | .error f => s.readFault f
      | .ok (ws, s1) =>
        let x := s1.region s1.curRegion
        let cb := (List.range n).foldl (fun m i => lset m (first + i) (BitVec.ofNat 32 (ws[i]?.getD 0))) x.codebook
        .ok ((s1.setRegion s1.curRegion { x with codebook := cb }).wrS d (BitVec.ofNat 64 n))))

/-- Whether TLBINV names an entry (spec/18 R377). -/
def State.tlbNamed (s : State) (kind vmid asid addr : Nat) (e : TlbEntry) : Bool :=
  match kind with
  | 0 => e.vmid == vmid
  | 1 => e.vmid == vmid && e.asid == asid
  | 2 => e.vmid == vmid && e.asid == asid && e.gva ≤ addr && addr < e.gva + e.size
  | 3 => e.vmid == vmid && e.gpa / e.size2 == addr / e.size2
  | _ => bits (s.vmEntry e.vmid) 1 4 == s.curPart

/-- TLBINV (spec/18 R377): a walk in flight reads the tables when it completes, so it needs no restart. -/
def execTlbinv (p : Pred) (a b : SReg) (s : State) : Host.Outcome State Fault Refusal :=
  let v := (s.rdS a).toNat
  let kind := bits v 0 3
  let vmid := bits v 8 8
  s.performCfg p [a, b] (
    if bits v 3 5 != 0 || bits v 24 40 != 0 || 5 ≤ kind || (kind != 2 && kind != 3 && s.rdS b != 0) then .trap (s.faultOf Cause.cfg)
    else if kind != 4 && (!bit (s.vmEntry vmid) 0 || bits (s.vmEntry vmid) 1 4 != s.curPart) then .trap (s.faultOf Cause.perm)
    else .ok (s.dropTlb (s.tlbNamed kind vmid (bits v 16 8) (s.rdS b).toNat)))

end Sys2Proof.Machine
end

