-- ==== Sys2Proof/Machine/Landing.lean ====
section
/-!
DEFINITION. Machine/Landing.lean: records on their way: circuits (spec/08 R158), landing and replay (spec/02 R43 to R48), wave control
records (spec/21 R421), reconfiguration records (spec/02 R59, R60, spec/18 R358), and the gating of tiles (spec/22 R439). An event
that finds nothing to do changes nothing.
-/

namespace Sys2Proof.Machine

namespace State

/-- Whether a record may reach its destination now: it has crossed its circuit, the accesses issued before it are performed, no
earlier record is on its way to the same place, and none of its channel is being converted (spec/02 R34, R49, spec/17 R332). -/
def atPlace (s : State) (n : Nat) (x : Transit) : Bool :=
  x.left == 0 && s.performed x.waits && s.rideDone x.ride && (s.transit.take n).all (fun y => !s.sameWay y.dst x.dst) &&
  (match x.dst with
   | .slot _ _ => s.transit.all (fun y => y.dst = x.dst || !s.sameWay y.dst x.dst)
   | _ => true)

/-- A record leaves the list of those on their way. -/
def takeTransit (s : State) (n : Nat) : State := { s with transit := dropAt s.transit n }

/-- Region of a tile. -/
def tileRegion (s : State) (t : Nat) : Nat := s.regionAt (t / 32)

end State

/-- CIRCUIT_BEAT: the next beat of a record crosses its circuit; one that fails its check is sent again (spec/08 R158). -/
def execCircuitBeat (n : Nat) (crcOk : Bool) (s : State) : Host.Outcome State Fault Refusal :=
  match s.transit[n]? with
  | none => .next s
  | some x =>
    .next (if crcOk && x.left != 0 && s.performed x.waits && (s.transit.take n).all (fun y => y.dst != x.dst) then
        { s with transit := setAt s.transit n { x with left := x.left - 1 } }
      else s)

/-- A record comes to an operator slot of a tile that is awake; one that a reconfiguration still on its way governs waits in the spill
ring (spec/02 R59). -/
def State.comeTo (s : State) (x : Transit) (t ch : Nat) : State :=
  if s.awaitsReconf (s.tileRegion t) (rhCol x.rc.hdr) (rhWave x.rc.hdr) && rhParityOk x.rc.hdr then s.spillRec (s.tileRegion t) x false
  else s.arrive x t ch (x.ahead != 0)

/-- RECORD_ARRIVAL: a record reaches an operator slot of a tile that is awake (spec/02 R43), whose wake buffer has landed (R48); one that a
reconfiguration still on its way governs waits in the spill ring (R59). -/
def execRecordArrival (n : Nat) (s : State) : Host.Outcome State Fault Refusal :=
  match s.transit[n]? with
  | none => .next s
  | some x =>
    match x.dst with
    | .slot t ch =>
      .next (if !s.atPlace n x || (s.tile t).gate != .awake || (x.ahead == 0 && !(s.tile t).wake.isEmpty) then s
        else (s.takeTransit n).comeTo x t ch)
    | _ => .next s

/-- Nominal clk from power gating to awake: 2 µs at 2.7 GHz (spec/02 R48, spec/00 R4). -/
def powerWake : Nat := 5400

/-- The state of a tile that starts to wake (spec/02 R48). -/
def wakeGate (g : Gate) : Gate :=
  match g with
  | .clock => .waking 8
  | .power => .powering powerWake
  | g => g

/-- WAKE_BUFFER_ARRIVAL: a record reaches a tile that is not awake (spec/02 R48); the stage checks its header's parity first (R37). One whose
channel and wave have an earlier record in the spill ring goes there (R45). -/
def execWakeBufferArrival (n : Nat) (s : State) : Host.Outcome State Fault Refusal :=
  match s.transit[n]? with
  | none => .next s
  | some x =>
    match x.dst with
    | .slot t ch =>
      let y := s.tile t
      .next (if !s.atPlace n x || y.gate = .awake then s
        else if !rhParityOk x.rc.hdr then (s.takeTransit n).parityDrop x (s.tileRegion t) 0 t (t / 32)
        else
          let s1 := s.takeTransit n
          if y.wake.length < 4 && (x.ahead != 0 || !s1.spilledBefore (s.tileRegion t) t ch (rhCol x.rc.hdr) (rhWave x.rc.hdr)) then
            s1.setTile t { y with gate := wakeGate y.gate, wake := y.wake ++ [{ x with ahead := max 1 x.ahead }] }
          else (s1.setTile t { y with gate := wakeGate y.gate }).spillRec (s.tileRegion t) x false)
    | _ => .next s

namespace State

/-- Whether a record of a spill ring may leave it now. -/
def landable (s : State) (r : Nat) (x : Spill) : Bool :=
  s.leavable r x && (match x.tr.dst with
    | .slot t _ => (s.tile t).gate = .awake && (s.tile t).wake.isEmpty
    | _ => true)

/-- Whether a gated tile has work: a continuation of its own that is runnable, or a spilled record that may land in it. Neither would be
an idle tile by spec/22 R439, which names no event that would wake it then. -/
def hasWork (s : State) (t : Nat) : Bool :=
  s.frames.any (fun e => e.1 / 128 == t && (e.2.cont = .fresh || e.2.cont = .runnable)) ||
  (s.region (s.tileRegion t)).cols.any (fun c => c.2.spill.any (fun x => (match x.tr.dst with
    | .slot u _ => u == t
    | _ => false) && s.leavable (s.tileRegion t) x))

end State

/-- The records of a wake buffer land in order, up to one whose channel has a record that is being converted (spec/02 R48, R49). -/
def State.landWake (t : Nat) : List Transit → State → State
  | [], st => st
  | x :: l, st =>
    match x.dst with
    | .slot u ch =>
      if st.converting u ch then st.setTile t { st.tile t with wake := x :: l } else landWake t l (st.comeTo x u ch)
    | _ => landWake t l st

/-- TILE_WAKE: the tile is awake and its buffered records land in order (spec/02 R48, spec/16 R321); a gated tile that has work starts to
wake (log entry 19). -/
def execTileWake (t : Nat) (s : State) : Host.Outcome State Fault Refusal :=
  let y := s.tile t
  .next (if y.gate = .waking 0 || y.gate = .powering 0 || (y.gate = .awake && !y.wake.isEmpty) then
      State.landWake t y.wake (s.setTile t { y with gate := .awake, idle := 0, wake := [] })
    else if (y.gate = .clock || y.gate = .power) && s.hasWork t then s.setTile t { y with gate := wakeGate y.gate }
    else s)

/-- CLOCK_GATING_ENTRY (spec/22 R439). -/
def execClockGatingEntry (t : Nat) (s : State) : Host.Outcome State Fault Refusal :=
  let y := s.tile t
  .next (if y.gate = .awake && s.hub.tileCg != 0 && s.hub.tileCg ≤ y.idle then s.setTile t { y with gate := .clock, idle := 0 } else s)

/-- A tile that is power-gated without retention: every state of it is as at reset, its frames and tile memory included (spec/22 R439). -/
def State.loseTile (s : State) (t : Nat) : State :=
  let s1 : State := { s with
    frames := s.frames.filter (fun e => e.1 / 128 != t),
    tmem := s.tmem.filter (fun e => e.1 / 0x80000 != t),
    uce := s.uce.filter (fun a => !(2 ^ 48 + t * 0x80000 ≤ a && a < 2 ^ 48 + (t + 1) * 0x80000)) }
  s1.setTile t { gate := .power }

/-- POWER_GATING_ENTRY, after TILE_PG idle clk in clock gating: the tile's TLB is emptied; a tile of a core of no armed region keeps nothing
(spec/22 R439, log entry 40). -/
def execPowerGatingEntry (t : Nat) (s : State) : Host.Outcome State Fault Refusal :=
  let y := s.tile t
  let armed := match (s.core (t / 32)).region with
    | some r => (s.region r).st == 2
    | none => false
  .next (if y.gate = .clock && s.hub.tilePg != 0 && s.hub.tilePg ≤ y.idle then
      if armed then s.setTile t { y with gate := .power, tlb := [] }
      else s.loseTile t
    else s)

/-- OWC_BROADCAST: the tile's copy catches up (spec/02 R44). -/
def execOwcBroadcast (t c : Nat) (s : State) : Host.Outcome State Fault Refusal :=
  let v := (s.colour (s.tileRegion t) c).owc
  .next (if lget 0 (s.tile t).owc c == v then s
    else s.setTile t { s.tile t with owc := lset (s.tile t).owc c v, owcAt := lset (s.tile t).owcAt c (s.clkOf (t / 32)) })

namespace State

/-- The place of a spilled record in the order of replay: its wave, then its channel (spec/02 R45). -/
def replayKey (s : State) (r : Nat) (x : Spill) : Nat :=
  (rhWave x.tr.rc.hdr - (s.colour r (rhCol x.tr.rc.hdr).toNat).owc).toNat * 64 + (rhChan x.tr.rc.hdr).toNat

/-- Whether a spilled record may land, and none that keeps its order with it comes before it. -/
def replayable (s : State) (r : Nat) (l : List Spill) (n : Nat) (x : Spill) : Bool :=
  s.landable r x && (l.take n).all (fun y => !(s.sameWay y.tr.dst x.tr.dst && rhWave y.tr.rc.hdr == rhWave x.tr.rc.hdr))

end State

/-- SPILL_REPLAY: the first record in the order of replay whose landing condition holds leaves the spill ring (spec/02 R45); for a fixed
operator, those of its channel and wave go on their way again together, in order. -/
def execSpillReplay (r c n : Nat) (s : State) : Host.Outcome State Fault Refusal :=
  let k := s.colour r c
  match k.spill[n]? with
  | none => .next s
  | some x =>
    let ok := s.replayable r k.spill n x && (List.range k.spill.length).all (fun m => match k.spill[m]? with
      | some y => !s.replayable r k.spill m y || s.replayKey r x ≤ s.replayKey r y
      | none => true)
    .next (if !ok then s
      else match x.tr.dst with
        | .slot t ch => (s.setColour r c { k with spill := dropAt k.spill n }).arrive { x.tr with ahead := 2 } t ch true
        | d =>
          let mine := fun (y : Spill) => (match y.tr.dst with
            | .slot _ _ => false
            | e => s.sameWay e d) && rhWave y.tr.rc.hdr == rhWave x.tr.rc.hdr && !y.frozen
          let s1 := s.setColour r c { k with spill := k.spill.filter (fun y => !mine y) }
          { s1 with transit := (k.spill.filter mine).map (fun y => { y.tr with left := 0, waits := [], ahead := 1 }) ++ s1.transit })

/-! Records that go to the region. -/

namespace State

/-- Clears every mark of a wave; poison records are discarded, and the frozen streams may be replayed (spec/21 R421). -/
def clearMarks (s : State) (r : Nat) (c : BitVec 5) (w : BitVec 16) : State :=
  let s1 := s.setRegion r { s.region r with marks := (s.region r).marks.filter (fun m => !(m.col == c && m.wave == w)) }
  let k := s1.colour r c.toNat
  let s2 := s1.setColour r c.toNat { k with
    spill := (k.spill.filter (fun x => !(x.frozen && rhPoison x.tr.rc.hdr && rhWave x.tr.rc.hdr == w))).map (fun x =>
      if rhWave x.tr.rc.hdr == w then { x with frozen := false } else x) }
  (s2.framesOf r).foldl (fun st i =>
    let f := st.frame i
    if f.alloc && f.col == c && f.wave == w then st.frameFromHeap r i else st) s2

/-- The operator that a POISON names, if it is one of the region (spec/21 R421). -/
def poisonTarget (s : State) (r v : Nat) (c : BitVec 5) (w : BitVec 16) : Option Mark :=
  if bits v 14 18 != 0 then none
  else if bit v 13 then
    (if oKind (s.opEntry r (bits v 9 4)) == 0 then none
     else some { fixed := true, op := bits v 9 4, col := c, wave := w })
  else match (s.region r).coreAt (bits v 5 4) with
    | none => none
    | some core =>
      if hV (s.handler (core * 32 + bits v 0 5) (bits v 9 4) c w) then
        some { tile := core * 32 + bits v 0 5, op := bits v 9 4, col := c, wave := w }
      else none

end State

/-- Whether a frame of a poisoned wave has still to be written back and pinned, because an activation runs on it: not the sender of the
POISON, nor one that is held by a wave control record of its own (spec/26 R447; DEDUCED, log entry 84). -/
def State.unpinned (s : State) (r : Nat) (c : BitVec 5) (w : BitVec 16) (sender : Nat) : Bool :=
  s.waveMarked r c w && (s.framesOf r).any (fun k =>
    let f := s.frame k
    f.alloc && f.col == c && f.wave == w && f.cont = .running && f.aid != sender && !s.transit.any (fun y => y.sender == f.aid))

/-- WAVE_CONTROL_RECORD (spec/21 R421): POISON, RESUME, or discarded. A POISON that is applied holds its sender until the wave's frames are
pinned (spec/26 R447). -/
def execWaveControlRecord (n : Nat) (s : State) : Host.Outcome State Fault Refusal :=
  match s.transit[n]? with
  | none => .next s
  | some x =>
    match x.dst with
    | .waveCtl r =>
      let v := (x.rc.beats.headD 0).toNat
      let c := rhCol x.rc.hdr
      let w := rhWave x.rc.hdr
      let s1 := s.takeTransit n
      .next (if !s.atPlace n x then s
        else if !rhParityOk x.rc.hdr then s1.parityDrop x r 0 0 r
        else if bits v 128 384 != 0 then s1.countCherr x.cherr.1 x.cherr.2
        else match bits v 0 32 with
          | 1 =>
            (match s1.poisonTarget r (bits v 96 32) c w with
             | none => s1.countCherr x.cherr.1 x.cherr.2
             | some m =>
               let s2 := if x.applied then s else (s.poisonOp r m (rhRtag x.rc.hdr)).progress r c
               if s2.unpinned r c w x.sender then { s2 with transit := setAt s2.transit n { x with applied := true } } else s2.takeTransit n)
          | 2 =>
            let s2 := s1.clearMarks r c w
            let s3 := match s2.trappedFrame r (BitVec.ofNat 64 (bits v 32 64)) with
              | some k => s2.resumeTrapped k true
              | none => s2
            (s3.progress r c).wakeUp
          | _ => s1.countCherr x.cherr.1 x.cherr.2)
    | _ => .next s

namespace State

/-- The newest entry of a table, accepted changes included. -/
def newestEntry (s : State) (r table rcore tile idx : Nat) : BitVec 256 :=
  let x := s.region r
  match (x.reconfs.reverse.findSome? fun q =>
      (q.entries.reverse.find? fun e => e.1 == table && e.2.1 == rcore && e.2.2.1 == tile && e.2.2.2.1 == idx)) with
  | some e => e.2.2.2.2
  | none =>
    let t := ((x.coreAt rcore).getD r) * 32 + tile
    match table with
    | 3 => (lget 0 (s.tile t).handlers idx).setWidth 256
    | 4 => (lget 0xFF00000#64 (s.tile t).chans idx).setWidth 256
    | _ => lget 0 x.colours idx

/-- The bits of an entry that a reconfiguration may change: handler entries whole; RPW, SKIPZ and CONV; CLASS, Q, SYS, NPEER and
PEERS (spec/18 R358). -/
def reconfBits (table : Nat) : BitVec 256 :=
  match table with
  | 3 => 0xFFFFFFFFFFFFFFFF#256
  | 4 => 0x1FF0FF00000#256
  | _ => 0xFFFFFFFFFFFFFFFF#256 <<< 192 ||| (0xFF#256 <<< 160) ||| (0xFFFF#256 <<< 32) ||| (3#256 <<< 24) ||| 4#256

/-- One entry beat: table, RCORE, tile, index, new entry (spec/18 R358). -/
def entryOf (b : Vec) : Nat × Nat × Nat × Nat × BitVec 256 :=
  (bits b.toNat 0 8, bits b.toNat 8 8, bits b.toNat 16 8, bits b.toNat 24 8, b.extractLsb' 32 256)

/-- Whether an entry beat keeps the rules; `mask` is CMASK. Reserved bits of an entry, and ARMED, which is read-only, change nothing (spec/00
R6, R7). -/
def entryOk (s : State) (r : Nat) (mask : BitVec 32) (b : Vec) : Bool :=
  let (t, rc, ti, i, e) := entryOf b
  let old := s.newestEntry r t rc ti i
  let armed := (List.range 32).all (fun c => !kArmed (lget 0 (s.region r).colours c) || mask.getLsbD c)
  bits b.toNat 288 224 == 0 &&
  (match t with
   | 3 => rc < (s.region r).cores.length && ti < 32 && i < 16 && bits e.toNat 64 192 == 0 && armed
   | 4 => rc < (s.region r).cores.length && ti < 32 && i < 64 && bits e.toNat 64 192 == 0 && armed
   | 2 => i < 32 && mask.getLsbD i
   | _ => false) &&
  ((e ^^^ old) &&& ~~~(reconfBits t) &&& entryBits t) == 0

/-- A colour's Q once a reconfiguration governs the wave that is admitted next (spec/19 R383). -/
def takeQ (s : State) (r c : Nat) (x : Reconf) : State :=
  let k := s.colour r c
  if x.governs (BitVec.ofNat 5 c) k.nxw then
    match x.entries.reverse.find? (fun e => e.1 == 2 && e.2.2.2.1 == c) with
    | some e => s.setColour r c { k with q := kQ e.2.2.2.2 }
    | none => s
  else s

/-- A reconfiguration that the region accepts; an entry keeps its ARMED. -/
def acceptReconf (s : State) (r : Nat) (rc : Rec) : State :=
  let es := (rc.beats.drop 2).map (fun b =>
    let e := entryOf b
    let v := e.2.2.2.2 &&& entryBits e.1
    if e.1 == 2 then (2, 0, 0, e.2.2.2.1, v ||| (lget 0 (s.region r).colours e.2.2.2.1 &&& 8#256))
    else (e.1, e.2.1, e.2.2.1, e.2.2.2.1, v))
  let q : Reconf := { cmask := rcMask rc, eff := rc.beats.headD 0, entries := es }
  let s1 := s.setRegion r { s.region r with reconfs := (s.region r).reconfs ++ [q] }
  (List.range 32).foldl (fun st c => st.takeQ r c q) s1

end State

/-- RECONFIGURATION_RECORD (spec/02 R59, R60, spec/18 R358): the region takes the new configuration whole, or refuses it whole with
CFG. A nonzero bit that R358 says is zero, in beat 1 beyond CMASK or in an entry beat beyond the entry, refuses it too (DESIGN CHOICE, log
entry 38). -/
def execReconfigurationRecord (n : Nat) (s : State) : Host.Outcome State Fault Refusal :=
  match s.transit[n]? with
  | none => .next s
  | some x =>
    match x.dst with
    | .reconf r =>
      let s1 := s.takeTransit n
      let m := rcMask x.rc
      .next (if !s.atPlace n x then s
        else if !rhParityOk x.rc.hdr then s1.parityDrop x r 0 0 r
        else if x.early || x.rc.beats.length < 3 || bits ((x.rc.beats[1]?).getD 0).toNat 32 480 != 0 ||
            !(x.rc.beats.drop 2).all (s.entryOk r m) then
          s1.engineTrap r (s.partOf r) { cause := Cause.cfg } (rhRtag x.rc.hdr) (rhWave x.rc.hdr) (rhCol x.rc.hdr) 0 0 r
        else s1.acceptReconf r x.rc)
    | _ => .next s

end Sys2Proof.Machine
end

