-- ==== Sys2Proof/Machine/Select.lean ====
section
/-!
DEFINITION. Machine/Select.lean: the selection of a continuation for a free context (spec/06 R131), its start or resume (spec/02 R50,
R52), and the promotion of the oldest wave.
-/

namespace Sys2Proof.Machine

namespace State

/-- Priority class of a frame's colour. -/
def frameClass (s : State) (k : Nat) : Nat :=
  let f := s.frame k
  kClass (s.colourEntry (s.regionAt (k / 4096)) f.col f.wave)

/-- Whether a continuation may be selected: runnable, its slot not masked, its colour not frozen unless it is the trap operator's, its
wave not marked at its operator (spec/06 R131, spec/17 R349, spec/21 R419). -/
def candidate (s : State) (k : Nat) : Bool :=
  let f := s.frame k
  let t := k / 128
  let r := s.regionAt (t / 32)
  (f.cont = .fresh || f.cont = .runnable) && !(s.tile t).hmask.getLsbD f.opsl.toNat &&
  (!s.isFrozen r f.col || hTrapOp (s.handler t f.opsl.toNat f.col f.wave)) && !s.marked r false t f.opsl.toNat f.col f.wave

/-- When a runnable continuation was promoted: it has been runnable for 256 clk, and its wave is the tile's copy of its colour's OWC
(spec/06 R131). -/
def promTime (s : State) (k : Nat) : Option Nat :=
  let f := s.frame k
  let x := s.tile (k / 128)
  let at_ := max (f.readyAt + 256) (lget 0 x.owcAt f.col.toNat)
  if (f.cont = .fresh || f.cont = .runnable) && f.wave == lget 0 x.owc f.col.toNat && at_ ≤ s.clkOf (k / 4096) then some at_ else none

/-- Order among candidates of one class: those promoted first, by the time of promotion; then by the time they became runnable; then
the colour after rr, the lower slot, the earlier wave (spec/06 R131). -/
def pickKey (s : State) (t cls k : Nat) : Nat × Nat × Nat × Nat × Nat :=
  let f := s.frame k
  let (a, b) := match s.promTime k with
    | some p => (0, p)
    | none => (1, f.readyAt)
  (a, b, circleDist 32 (lget 0 (s.tile t).rr cls) f.col.toNat, f.opsl.toNat,
   (waveDiff f.wave (lget 0 (s.tile t).owc f.col.toNat) + 32768).toNat)

/-- Lexicographic order of five numbers. -/
def keyLt (x y : Nat × Nat × Nat × Nat × Nat) : Bool :=
  x.1 < y.1 || (x.1 == y.1 && (x.2.1 < y.2.1 || (x.2.1 == y.2.1 && (x.2.2.1 < y.2.2.1 || (x.2.2.1 == y.2.2.1 &&
    (x.2.2.2.1 < y.2.2.2.1 || (x.2.2.2.1 == y.2.2.2.1 && x.2.2.2.2 < y.2.2.2.2)))))))

/-- The frame that a tile selects in a class (spec/06 R131). -/
def selectIn (s : State) (t cls : Nat) (ks : List Nat) : Option Nat :=
  (ks.filter (fun k => s.frameClass k == cls)).foldl (fun best k => match best with
    | none => some k
    | some b => if keyLt (s.pickKey t cls k) (s.pickKey t cls b) then some k else some b) none

/-- The frame that a tile selects for a context: context 0 takes only RT. -/
def selectFor (s : State) (t c : Nat) : Option (Nat × Nat) :=
  let ks := (s.frames.map (·.1)).filter (fun k => k / 128 == t && s.candidate k)
  (if c == 0 then [0] else [0, 1, 2, 3]).findSome? (fun cls => (s.selectIn t cls ks).map (fun k => (cls, k)))

/-- Starts a handler on a frame: IP at its entry, the frame's registers set, every other register undefined (spec/02 R50). -/
def startOn (s : State) (ck k : Nat) : State :=
  let f := s.frame k
  let h := s.handler (k / 128) f.opsl.toNat f.col f.wave
  let (aid, s1) := s.fresh
  let s2 := s1.setFrame k { f with cont := .running, aid := aid, promoted := none, waitOver := false, lates := [] }
  ({ s2 with free := s2.free + 1 }).setCtx ck
    { busy := true, aid := aid, frame := k % 128, ip := (hEntry h).setWidth 32, col := f.col, wave := f.wave, rtag := f.rtag,
      opsl := f.opsl, epoch := s2.free }

/-- Resumes a parked or trapped continuation (spec/02 R52). A late fault that waited for a boundary is taken at this one (spec/21 R418). -/
def resumeOn (s : State) (ck k : Nat) : State :=
  let f := s.frame k
  let s1 := (s.onCtx ck (fun st => st.loadSet (k % 128))).setFrame k
    { f with cont := .running, wait := .nothing, promoted := none, trapLate := false, lates := f.lates.tail }
  match f.lates.head? with
  | none => s1
  | some i => s1.onCtx ck (fun st => st.takeTrap i)

/-- Whether a context may take a continuation: it is free, on a tile awake, of a core not halted, in a partition that is not being
pre-empted. -/
def mayTake (s : State) (t c : Nat) : Bool :=
  c < 4 && !(s.ctx (t * 4 + c)).busy && (s.tile t).gate = .awake && !(s.core (t / 32)).halted && s.regionRuns (s.tileRegion t)

end State

/-- CONTEXT_SELECTION (spec/06 R131): the start or resume of the trap operator is a progress event of its colour (spec/21 R425). -/
def execContextSelection (t c : Nat) (s : State) : Host.Outcome State Fault Refusal :=
  .next (if !s.mayTake t c then s
    else match s.selectFor t c with
      | none => s
      | some (cls, k) =>
        let r := s.tileRegion t
        let s1 := s.frameFromHeap r k
        let f := s1.frame k
        let s2 := s1.setTile t { s1.tile t with rr := lset (s1.tile t).rr cls f.col.toNat }
        let s3 := if f.cont = .fresh then s2.startOn (t * 4 + c) k else s2.resumeOn (t * 4 + c) k
        if hTrapOp (s.handler t f.opsl.toNat f.col f.wave) then s3.progress r f.col else s3)

/-- OLDEST_WAVE_PROMOTION: a continuation of the tile's oldest wave has been runnable for 256 clk (spec/06 R131). The selection goes by the
same test whether the event has been made or not. -/
def execOldestWavePromotion (t f : Nat) (s : State) : Host.Outcome State Fault Refusal :=
  let k := t * 128 + f
  let x := s.frame k
  .next (match s.promTime k with
    | some p => if x.promoted = some p then s else s.setFrame k { x with promoted := some p }
    | none => s)

end Sys2Proof.Machine
end

