-- ==== Sys2Proof/Machine/Fabric.lean ====
section
/-!
DEFINITION. Machine/Fabric.lean: what happens to messages on their way (spec/08 R159, R160, R164, R165, R171 to R177): the arrival of
fragments and their decode, delivery, acknowledgements, retransmission and loss.
-/

namespace Sys2Proof.Machine

/-- One row of the equations for the missing fragments: coefficients by column, and the right side. -/
structure GfRow where
  coef : List Byte := []
  rhs : Vec := 0
deriving DecidableEq, Repr

/-- A row less a multiple of another. -/
def GfRow.sub (x p : GfRow) (f : Byte) : GfRow :=
  { coef := List.zipWith (fun a b => a ^^^ gfMul f b) x.coef p.coef, rhs := x.rhs ^^^ gfScale f p.rhs }

/-- Elimination, column by column: the pivot rows in order of column, or none where a column has no pivot. -/
def gfSolve : (cols c : Nat) → (done rows : List GfRow) → Option (List GfRow)
  | 0, _, done, _ => some done
  | n + 1, c, done, rows =>
    match firstIdx (fun (r : GfRow) => r.coef.getD c 0 != 0) rows with
    | none => none
    | some i =>
      let r := rows.getD i {}
      let k := gfInv (r.coef.getD c 0)
      let p : GfRow := { coef := r.coef.map (gfMul k), rhs := gfScale k r.rhs }
      gfSolve n (c + 1) (done.map (fun x => x.sub p (x.coef.getD c 0)) ++ [p])
        ((dropAt rows i).map (fun x => x.sub p (x.coef.getD c 0)))

/-- The k data fragments of a stripe from the fragments present (spec/08 R172). -/
def decodeStripe (id k : Nat) (fs : List Frag) : List Vec :=
  let have_ := fun i => (fs.find? (fun f => f.index == i)).map (·.data)
  let missing := (List.range k).filter (fun i => (have_ i).isNone)
  let rows := (fs.filter (fun f => k ≤ f.index)).map (fun f =>
    let j := f.index - k
    let known := (List.range k).foldl (fun acc i => match have_ i with
      | some d => acc ^^^ gfScale (gfAlpha (i * j % 255)) d
      | none => acc) f.data
    ({ coef := missing.map (fun i => gfAlpha (i * j % 255)), rhs := known } : GfRow))
  let sol := gfSolve missing.length 0 [] rows
  (List.range k).map (fun i => match have_ i with
    | some d => d
    | none => match sol, firstIdx (· == i) missing with
      | some rs, some c => (rs.getD c {}).rhs
      | _, _ => Config.lostFragment id i)

namespace State

/-- Whether a node number names a unit (spec/08 R161). -/
def isNode (n : Nat) : Bool :=
  let u := n % 512
  if n / 512 < 4 then u < 16 || (32 ≤ u && u < 64) || u == 64 || u == 80
  else n / 512 == 4 && (u < 12 || (16 ≤ u && u ≤ 18))

/-- Whether the ports serve what comes and goes: not stopped by heat (spec/22 R440). -/
def portsRun (s : State) : Bool := !s.hub.halted

/-- A message of this device's own, by its source, class and id. Its messages of classes 5 to 7 leave it, and its peers decode them (spec/08
R168): one of these classes that comes here is a peer's. -/
def msgOf (s : State) (src cls id : Nat) : Option Msg :=
  if 5 ≤ cls then none else (s.fab (src / 512)).msgs.find? (fun m => m.src == src && m.cls == cls && m.id == id)

/-- Whether a stripe is the last of its message: the source's code, which the message keeps (spec/08 R167), says so; for a message of a
peer, padding does, which only the last fragment of a message has, or a free value (spec/08 R162, R165, log entry 16). -/
def isLast (s : State) (e : DecEntry) : Bool :=
  match s.msgOf e.src e.cls e.id with
  | some m => e.stripe + 1 == m.stripes.length
  | none => e.last < 64 || Config.lastStripe e.src e.cls e.id e.stripe

/-- What March learns from a die's report (spec/06 R123). -/
def takeReport (s : State) (d : Nat) (cores : SMap Report) (live : SMap Nat) : State :=
  { s with hub := { s.hub with reports := cores.foldl (fun m e => lset m e.1 e.2) s.hub.reports,
                               live := live.foldl (fun m e => lset m e.1 e.2) (s.hub.live.filter (fun e => e.1 / 512 != d)) } }

/-- A message is delivered at its destination (spec/08 R172). One of this device's own lets what waits for it go on; one of a peer stands
at the node that it names, and no unit takes it (DESIGN CHOICE, log entry 82). -/
def deliver (s : State) (x : Deliv) : State :=
  match s.msgOf x.src x.cls x.id with
  | some m =>
    let f := s.fab (x.src / 512)
    let s1 := s.setFab (x.src / 512) { f with msgs := f.msgs.map (fun y => if y.num == m.num then { y with done := true } else y) }
    match m.what with
    | .report d cores live => s1.takeReport d cores live
    | _ => s1
  | none => s.setFab (x.dst / 512) { s.fab (x.dst / 512) with inbox := (s.fab (x.dst / 512)).inbox ++ [x] }

/-- The bytes of a completed stripe, without the padding of its last fragment (spec/08 R162, R163, R172). -/
def stripeBytes (e : DecEntry) : List Byte :=
  ((decodeStripe e.id e.k e.frags).flatMap (fun v => toBytes 64 v.toNat)).take (64 * (e.k - 1) + e.last)

/-- The bytes of the stripes 0 to n of a message, if all are there. -/
def gather (ps : List Stripe) : Nat → Option (List Byte)
  | 0 => (ps.find? (fun x => x.num == 0)).map (·.data)
  | n + 1 =>
    match gather ps n, ps.find? (fun x => x.num == n + 1) with
    | some l, some x => some (l ++ x.data)
    | _, _ => none

/-- A stripe is whole: its message too if every stripe of it is; then it is delivered, its id retired and acknowledged (spec/08 R165,
R172, R173). -/
def stripeDone (s : State) (d : Nat) (e : DecEntry) : State :=
  let f := s.fab d
  let mine := fun (x : Stripe) => x.src == e.src && x.cls == e.cls && x.id == e.id
  let parts := f.parts ++ [{ src := e.src, dst := e.dst, cls := e.cls, id := e.id, rtag := e.rtag, col := e.col, num := e.stripe,
                             last := s.isLast e, data := stripeBytes e }]
  let f1 := { f with entries := f.entries.filter (fun x => !(x.src == e.src && x.cls == e.cls && x.id == e.id && x.stripe == e.stripe)) }
  match ((parts.filter mine).find? (·.last)).bind (fun z => gather (parts.filter mine) z.num) with
  | none => s.setFab d { f1 with parts := parts }
  | some data =>
    (s.setFab d { f1 with
      parts := parts.filter (fun x => !mine x),
      retired := f1.retired ++ [(e.src, e.cls, e.id, s.now + 2 * e.decto)],
      acks := f1.acks ++ [{ dst := e.dst, src := e.src, cls := e.cls, id := e.id, since := s.now }] }).deliver
        { src := e.src, dst := e.dst, cls := e.cls, id := e.id, data := data }

/-- The die that a fragment reaches next: its destination's, or the hub die, through which all that passes between dies goes (spec/08
R160). -/
def nextDie (x : Flight) : Nat :=
  let dst := bits x.hdr.toNat 32 12 / 512
  if x.at_ == dst || x.at_ == 4 then dst else 4

/-- The place of a fragment on its way that reaches a die with a header, payload and check. -/
def flightTo (s : State) (d : Nat) (hdr : BitVec 128) (data : Vec) (crc : BitVec 32) : Option Nat :=
  firstIdx (fun (x : Flight) => nextDie x == d && x.hdr == hdr && x.data == data && x.crc == crc) s.flights

/-- Whether a fragment is for a port of the hub die from this device: it leaves the device there, for a peer (spec/08 R168, R169). -/
def leavesAt (d : Nat) (h : Nat) (own : Bool) : Bool := own && d == 4 && bits h 32 12 / 512 == 4 && bits h 32 9 < 12

end State

/-- FRAGMENT_ARRIVAL (spec/08 R159, R160, R163, R164, R171, R172): a fragment on its way comes to a die, or one from outside to the hub die.
The flit leaves its loop or link there. On the hub die it goes on over the second link where it is for another die; one that comes round
to a die it is not for has missed its destination, and is discarded. Ports that heat has stopped take and give none (spec/22 R440). One that
a port brings before READY is dropped; only BOOTPORT has link then (spec/22 R437). -/
def execFragmentArrival (d : Nat) (hdr : BitVec 128) (data : Vec) (crc : BitVec 32) (s0 : State) : Host.Outcome State Fault Refusal :=
  let own := s0.flightTo d hdr data crc
  let s : State := match own with
    | some n => { s0 with flights := dropAt s0.flights n }
    | none => s0
  let path := ((own.bind (fun n => s0.flights[n]?)).map (·.path)).getD 0
  let h := hdr.toNat
  let f := s.fab d
  let src := bits h 44 12
  let dst := bits h 32 12
  let cls := bits h 124 3
  let id := bits h 0 32
  let index := bits h 116 8
  let k := bits h 108 8 + 1
  let m := bits h 105 3 + 1
  let stripe := bits h 84 12
  let mine := fun (e : DecEntry) => e.src == src && e.cls == cls && e.id == id && e.stripe == stripe
  .next (
    if d == 4 && !s.portsRun && (own.isNone || State.leavesAt d h own.isSome) then s0
    else if d == 4 && !s.hub.ready && own.isNone then
      { s with hub := { s.hub with portdrop := lset s.hub.portdrop s.hub.bootport (lget 0 s.hub.portdrop s.hub.bootport + 1) } }
    else if parity h 128 || fragCrc hdr data != crc || bits h 96 2 != 0 || bits h 80 4 != 0 || bits h 56 3 != 0 || k + m ≤ index ||
        !State.isNode src || !State.isNode dst then s.setFab d { f with fragerr := f.fragerr + 1 }
    else if dst / 512 != d then
      (if d == 4 then { s with flights := s.flights ++ [{ hdr := hdr, data := data, crc := crc, at_ := 4, path := path }] } else s)
    else if State.leavesAt d h own.isSome then s
    else if f.retired.any (fun r => r.1 == src && r.2.1 == cls && r.2.2.1 == id) then
      s.setFab d { f with latedrop := f.latedrop + 1, acks := f.acks ++ [{ dst := dst, src := src, cls := cls, id := id, since := s.now }] }
    else if !f.entries.any mine && 4096 ≤ f.entries.length then s.setFab d { f with decfull := f.decfull + 1 }
    else
      let e : DecEntry := (f.entries.find? mine).getD {
        src := src, dst := dst, cls := cls, id := id, stripe := stripe, k := k, m := m, last := bits h 99 6 + 1,
        rtag := BitVec.ofNat 16 (bits h 64 16), col := BitVec.ofNat 5 (bits h 59 5), started := s.now,
        decto := ((s.msgOf src cls id).map (·.dectoAt)).getD (s.decto d cls) }
      if e.frags.any (fun x => x.index == index) then s
      else
        let e1 := { e with frags := e.frags ++ [{ index := index, data := data }] }
        if e.k ≤ e1.frags.length then s.stripeDone d e1
        else s.setFab d { f with entries := f.entries.filter (fun x => !mine x) ++ [e1] })

namespace State

/-- An acknowledgement or NACK leaves for its source: for a source of this device; a peer's leaves by its port (spec/08 R173, R174). -/
def sendSig (s : State) (src cls : Nat) (x : Sig) : State :=
  if 5 ≤ cls then s else s.setFab (src / 512) { s.fab (src / 512) with sigs := (s.fab (src / 512)).sigs ++ [x] }

/-- One like it on its way has arrived. -/
def takeSig (s : State) (d : Nat) (x : Sig) : State := s.setFab d { s.fab d with sigs := (s.fab d).sigs.erase x }

end State

/-- DECODE_TIMEOUT: DECTO expires with fewer than k fragments: a NACK leaves; the second expiry sends a final one and frees the entry
(spec/08 R174). -/
def execDecodeTimeout (d k : Nat) (s : State) : Host.Outcome State Fault Refusal :=
  let f := s.fab d
  match f.entries[k]? with
  | none => .next s
  | some e =>
    .next (if s.now < e.started + e.decto then s
      else if e.nacked then
        (s.setFab d { f with
          nacks := f.nacks + 1, entries := dropAt f.entries k,
          parts := f.parts.filter (fun x => !(x.src == e.src && x.cls == e.cls && x.id == e.id)) }).sendSig e.src e.cls
            (.nack e.src e.cls e.id true)
      else (s.setFab d { f with nacks := f.nacks + 1, entries := setAt f.entries k { e with nacked := true, started := s.now } }).sendSig
        e.src e.cls (.nack e.src e.cls e.id false))

/-- RETIRED_FILTER_EXPIRY (spec/08 R172). -/
def execRetiredFilterExpiry (d k : Nat) (s : State) : Host.Outcome State Fault Refusal :=
  let f := s.fab d
  match f.retired[k]? with
  | none => .next s
  | some e => .next (if e.2.2.2 ≤ s.now then s.setFab d { f with retired := dropAt f.retired k } else s)

/-- ACK_COALESCE: one acknowledgement from a destination to a source leaves after 32 ids or 1 µs (spec/08 R173). -/
def execAckCoalesce (d : Nat) (pair : Nat × Nat) (s : State) : Host.Outcome State Fault Refusal :=
  let (dst, src) := pair
  let f := s.fab d
  let mine := fun (a : Owing) => a.dst == dst && a.src == src
  let xs := f.acks.filter mine
  .next (if 32 ≤ xs.length || xs.any (fun a => a.since + 2700 ≤ s.now) then
      (s.setFab d { f with acks := f.acks.filter (fun a => !mine a) }).sendSig src ((xs.head?.map (·.cls)).getD 0)
        (.ack src (xs.map (fun a => (a.cls, a.id))))
    else s)

/-- ACKNOWLEDGEMENT: it reaches the sender's die, and the buffers of the ids that it names are freed (spec/08 R173). -/
def execAcknowledgement (d : Nat) (ack : Nat × List (Nat × Nat)) (s : State) : Host.Outcome State Fault Refusal :=
  let (src, ids) := ack
  let s1 := s.takeSig d (.ack src ids)
  let f := s1.fab d
  .next (s1.setFab d { f with msgs := f.msgs.filter (fun m => !(m.src == src && ids.contains (m.cls, m.id))) })

namespace State

/-- What waited for a message that is lost will not go on; a trap record is gone (spec/08 R175). -/
def loseRide (s : State) (m : Msg) : State :=
  if m.done then s
  else
    let gone := fun (x : Ride) => match x with
      | .on ns => ns.contains m.num
      | _ => false
    { s with trips := s.trips.map (fun t => if t.nums.contains m.num then { t with lost := true } else t),
             accesses := s.accesses.map (fun a => if gone a.ride then { a with ride := .lost } else a),
             replies := s.replies.map (fun a => if gone a.ride then { a with ride := .lost } else a),
             transit := s.transit.filter (fun x => !gone x.ride) }

/-- The partitions whose log takes a lost message: that of its region; for a hub message those that own a core of its die (spec/08 R175; the
choice for hub messages is DESIGN CHOICE, log entry 80). -/
def lossParts (s : State) (d : Nat) (m : Msg) : List Nat :=
  match m.region with
  | some r => [s.partOf r]
  | none => ((s.ownCore.filter (fun e => e.1 / 16 == d)).map (·.2)).eraseDups

/-- MSGLOSS is raised: to the trap operator of the region that the message serves, and to the partition log; a hub message to the log alone
(spec/08 R175). Where the region has no trap operator the hub owes a purge (spec/21 R417). -/
def raiseLoss (s : State) (d k : Nat) (m : Msg) (unknown : Bool) : State :=
  let f := s.fab d
  let s1 := (s.setFab d { f with msgs := dropAt f.msgs k, msgloss := f.msgloss + 1 }).loseRide m
  let i : TrapInfo := { cause := Cause.msgloss, flags := 8, under := BitVec.ofNat 64 (m.id + (if unknown then 2 ^ 32 else 0)) }
  let bytes := trapBytes i m.rtag m.wave m.col 0 0 0 d 0 0
  let s2 := (s.lossParts d m).foldl (fun st p => st.logPut p bytes d) s1
  match m.region with
  | none => s2
  | some r =>
    if (s.region r).trapv then s2.trapSend r bytes m.rtag m.wave m.col []
    else { s2 with purges := s2.purges ++ [{ region := r, part := s.partOf r, col := m.col, rtag := m.rtag, cause := Cause.msgloss }] }

/-- The place of a message in its die's retransmit buffers. -/
def msgAt (s : State) (d src cls id : Nat) : Option Nat := firstIdx (fun (m : Msg) => m.src == src && m.cls == cls && m.id == id) (s.fab d).msgs

end State

/-- NACK: the sender retransmits every fragment of the message once, with RETX set; a final one is a loss (spec/08 R174, R175). -/
def execNack (d : Nat) (msg : Nat × Nat × Nat) (final : Bool) (s0 : State) : Host.Outcome State Fault Refusal :=
  let (src, cls, id) := msg
  let s := s0.takeSig d (.nack src cls id final)
  let f := s.fab d
  match s.msgAt d src cls id with
  | none => .next s
  | some k =>
    match f.msgs[k]? with
    | none => .next s
    | some m =>
      .next (if final then s.raiseLoss d k m false
        else if m.retx then s
        else (s.setFab d { f with retxn := f.retxn + 1, msgs := setAt f.msgs k { m with retx := true, sentAt := s.now } }).sendFrags d m true)

/-- MSGLOSS: retransmitted, then 2 × DECTO without an acknowledgement (spec/08 R175). -/
def execMsgloss (d k : Nat) (s : State) : Host.Outcome State Fault Refusal :=
  match (s.fab d).msgs[k]? with
  | none => .next s
  | some m => .next (if m.retx && m.sentAt + 2 * m.decto ≤ s.now then s.raiseLoss d k m true else s)

/-- DECOCC: decode entries in use (spec/08 R177). -/
def State.decocc (s : State) (d : Nat) : BitVec 13 := BitVec.ofNat 13 (s.fab d).entries.length

end Sys2Proof.Machine
end

