-- ==== Sys2Proof/Machine/FixedOps.lean ====
section
/-!
DEFINITION. Machine/FixedOps.lean: the fixed operators (spec/02 R26): entry and exit ports (spec/06 R130, spec/22 R441, R442, spec/24
R444), counter nodes, memory operators, steer, merge, conversion, boundary and wave-advance nodes, remote-scratchpad nodes and
island nodes (spec/13 R276).
-/

namespace Sys2Proof.Machine

namespace State

/-- A record reaches a fixed operator of a kind: damaged, stale and poisoned ones are dealt with first (spec/02 R37, R43, spec/21
R419); one that a reconfiguration on its way governs, or that comes after one in the spill ring, waits. -/
def onOp (s : State) (n kind : Nat) (act : State → Transit → Nat → Nat → Nat → State) : Host.Outcome State Fault Refusal :=
  match s.transit[n]? with
  | none => .next s
  | some x =>
    match x.dst with
    | .op r k ch =>
      let h := x.rc.hdr
      let c := rhCol h
      let w := rhWave h
      let s1 := s.takeTransit n
      .next (if oKind (s.opEntry r k) != kind || !s.atPlace n x then s
        else if !rhParityOk h then s1.parityDrop x r 0 0 (((s.region r).coreAt (oPlace (s.opEntry r k))).getD r)
        else if waveDiff w (s.colour r c.toNat).owc < 0 || !kArmed (s.colourEntry r c w) then s1.countStale r c
        else if s.marked r true 0 k c w then s1.spillRec r x true
        else if rhPoison h then (s1.poisonOp r { fixed := true, op := k, col := c, wave := w } (rhRtag h)).spillRec r x true
        else if s.awaitsReconf r c w ||
            x.ahead == 0 && (s.colour r c.toNat).spill.any (fun y => s.sameWay y.tr.dst x.dst && rhWave y.tr.rc.hdr == w) then
          s1.spillRec r x false
        else act s1 x r k ch)
    | _ => .next s

/-- Core of a fixed operator. -/
def opCore (s : State) (r n : Nat) : Nat := ((s.region r).coreAt (oPlace (s.opEntry r n))).getD r

/-- A fault of a fixed operator: the wave is poisoned at it, and the trap operator receives a record with NOCONT (spec/02 R26); an
uncorrectable error is contained, too (spec/21 R424, log entry 37). -/
def opFault (s : State) (r n : Nat) (rc : Rec) (cause : BitVec 8) (addr : Nat) : State :=
  let m : Mark := { fixed := true, op := n, col := rhCol rc.hdr, wave := rhWave rc.hdr }
  let i : TrapInfo := { cause := cause, addr := BitVec.ofNat 64 addr }
  let s1 := s.poisonOp r m (rhRtag rc.hdr)
  if cause = Cause.uce then
    s1.uceContainAs r (s.partOf r) i (rhRtag rc.hdr) (rhWave rc.hdr) (rhCol rc.hdr) 0 0 (s.opCore r n)
  else s1.engineTrap r (s.partOf r) i (rhRtag rc.hdr) (rhWave rc.hdr) (rhCol rc.hdr) 0 0 (s.opCore r n)

/-- A record reaches a fixed operator that reads or writes some pieces of memory for it: its effect comes once its request has come to their
homes (spec/08 R162). -/
def onOpVia (s : State) (n kind : Nat) (ps : Transit → Nat → Nat → Nat → List Piece) (act : State → Transit → Nat → Nat → Nat → State) :
    Host.Outcome State Fault Refusal :=
  s.onOp n kind (fun _ x r k ch =>
    s.viaFabric (engTrip [3, r, k, ch] r (s.partOf r) (s.opCore r k) (rhCol x.rc.hdr) (rhWave x.rc.hdr) (rhRtag x.rc.hdr)) (ps x r k ch)
      (fun q => act (q.takeTransit n) x r k ch))

/-- Beats as one number, the first lowest. -/
def beatsNum (bs : List Vec) : Nat := bs.foldr (fun b acc => b.toNat + 2 ^ 512 * acc) 0

/-- A record made by a fixed operator for the colour, wave and request tag of another. -/
def likeRec (rc : Rec) (fmt : BitVec 3) (kind : BitVec 2) (beats : List Vec) : Rec :=
  mkRec (rhCol rc.hdr) (rhWave rc.hdr) (rhRtag rc.hdr) fmt kind false 0 beats

/-- Lane i of the first beat of a record, as N32. -/
def lane0 (rc : Rec) (i : Nat) : Nat := bits (rc.beats.headD 0).toNat (32 * i) 32

/-! Admission (spec/06 R130, spec/22 R441). -/

/-- Entries of a colour's spill ring in use, records that wait at a steer operator among them (spec/02 R26, R46). -/
def spillUsed (s : State) (r : Nat) (c : BitVec 5) : Nat :=
  (s.colour r c.toNat).spill.length +
    (((s.region r).nodes.filter (fun n => n.col == c)).map (fun n => n.dataQ.length + n.predQ.length)).foldl (· + ·) 0

/-- Whether a colour's spill ring holds nothing but trap records. -/
def onlyTraps (s : State) (r : Nat) (c : BitVec 5) : Bool :=
  s.spillUsed r c == (s.colour r c.toNat).spill.length && (s.colour r c.toNat).spill.all (fun x => x.tr.dst = .slot (s.trapTileOf r) 63)

/-- Whether the entry ports of a colour are open (spec/02 R46), by the RPW in force for the next admission; trap records by themselves never
close them (spec/21 R417). -/
def portsOpen (s : State) (r : Nat) (c : BitVec 5) : Bool :=
  !(s.colour r c.toNat).closed &&
    (s.spillUsed r c + s.sumRpw r c (s.colour r c.toNat).nxw ≤ kSpilln (lget 0 (s.region r).colours c.toNat) || s.onlyTraps r c)

/-- What an admission reads: for each channel that the colour's entry ports feed, in ascending order, its records (spec/22 R441): the
core of the port, the channel and its beat count. -/
def inputs (s : State) (r : Nat) (c : BitVec 5) (w : BitVec 16) : List (Nat × Nat × Nat) :=
  let ports := (s.region r).fixed.filter (fun e => oKind e.2 == 1 && oColour e.2 == c)
  (List.range 64).flatMap (fun ch =>
    match ports.find? (fun e => (opOutPorts e.2).contains ch) with
    | none => []
    | some e =>
      let x := s.chanOf r ch c w
      List.replicate (cRpw x) (s.opCore r e.1, ch, cBeats x))

/-- Bytes of one admission's input (spec/16 R328). -/
def inBytes (s : State) (r : Nat) (c : BitVec 5) (w : BitVec 16) : Nat :=
  ((s.inputs r c w).map (fun x => x.2.2 * 64)).foldl (· + ·) 0

/-- Channels into a colour's exit ports, with their entries (spec/24 R444). -/
def outputs (s : State) (r : Nat) (c : BitVec 5) (w : BitVec 16) : List (Nat × BitVec 64) :=
  let ports := (s.region r).fixed.filter (fun e => oKind e.2 == 2 && oColour e.2 == c)
  ((List.range 64).filter (fun ch => ports.any (fun e => (opInPorts e.2).contains ch))).map (fun ch => (ch, s.chanOf r ch c w))

/-- Bytes of one admission's output (spec/16 R328). -/
def outBytes (s : State) (r : Nat) (c : BitVec 5) (w : BitVec 16) : Nat :=
  ((s.outputs r c w).map (fun x => cRpw x.2 * cBeats x.2 * 64)).foldl (· + ·) 0

/-- Beats read one after the other: the beats, or the fault with its address. -/
def readBeats (r p core : Nat) (c : BitVec 5) (w : BitVec 16) : (n gva : Nat) → List Vec → State → Except (BitVec 8 × Nat) (List Vec × State)
  | 0, _, acc, st => .ok (acc.reverse, st)
  | n + 1, gva, acc, st =>
    match st.engRead r p core c w gva 64 with
    | .error k => .error (k, gva)
    | .ok (v, st1) => readBeats r p core c w n (gva + 64) (BitVec.ofNat 512 v :: acc) st1

/-- Beats written one after the other. A fault stops at the beat it meets. -/
def writeBeats (r p core : Nat) (c : BitVec 5) (w tag : BitVec 16) : (gva : Nat) → List Vec → State → State × Option (BitVec 8 × Nat)
  | _, [], st => (st, none)
  | gva, b :: bs, st =>
    match st.engWrite r p core c w tag gva 64 b.toNat with
    | .error k => (st, some (k, gva))
    | .ok st1 => writeBeats r p core c w tag (gva + 64) bs st1

/-- A fault that ends a launch, as a purge of its request tag does (spec/22 R441). -/
def endLaunch (s : State) (r : Nat) (c : BitVec 5) (rtag : BitVec 16) (cause : BitVec 8) : State :=
  purgeTag { r := r, p := s.partOf r, col := c, rtag := rtag, cause := cause, keep := 0 } s

/-- Reads and sends the records of an admission, in channel order and then record order. -/
def sendInputs (r : Nat) (c : BitVec 5) (w rtag : BitVec 16) : List (Nat × Nat × Nat) → Nat → State → State × Option (BitVec 8 × Nat × Nat)
  | [], _, st => (st, none)
  | (core, ch, n) :: l, gva, st =>
    match readBeats r (st.partOf r) core c w n gva [] st with
    | .error f => (st, some (f.1, f.2, core))
    | .ok (bs, st1) =>
      let fmt := cFmt (st1.chanOf r ch c w)
      sendInputs r c w rtag l (gva + 64 * n) (st1.prodSend r ch core (mkRec c w rtag fmt 0 false ch bs))

/-- What the reads of an admission ask of homes outside the core (spec/08 R162). -/
def inputPieces (s : State) (r : Nat) (c : BitVec 5) (w : BitVec 16) : List (Nat × Nat × Nat) → (gva : Nat) → List Piece
  | [], _ => []
  | (core, _, n) :: l, gva => s.engPieces r (s.partOf r) core c w false gva (64 * n) 0 ++ inputPieces s r c w l (gva + 64 * n)

/-- The launch that a colour admits from next: launches are admitted in the order of their placement. -/
def nextLaunch (s : State) (r : Nat) (c : BitVec 5) : Option Launch :=
  (s.region r).launches.find? (fun l => l.col == c && l.admitted < l.admits)

/-- NXW moves past an admission's span; a reconfiguration that now governs gives Q (spec/02 R31, spec/19 R383). -/
def advanceNxw (s : State) (r c : Nat) : State :=
  let k := s.colour r c
  let n := k.nxw + BitVec.ofNat 16 (s.ws r)
  let s1 := s.setColour r c { k with nxw := n, livea := k.livea + 1 }
  (s.region r).reconfs.foldl (fun st q => if q.governs (BitVec.ofNat 5 c) k.nxw then st else st.takeQ r c q) s1

/-- An admission of a launch by a colour's entry ports (spec/02 R31, spec/22 R441). -/
def admitNext (s : State) (r c : Nat) (l : Launch) : State :=
  let cc := BitVec.ofNat 5 c
  let k := s.colour r c
  let a : Adm := { launch := l.id, idx := l.admitted, col := cc, wave := k.nxw, rtag := l.rtag }
  let x := s.region r
  let s1 := (s.setRegion r { x with
    launches := x.launches.map (fun y => if y.id == l.id then { y with admitted := y.admitted + 1 } else y),
    adms := x.adms ++ [a] }).advanceNxw r c
  match sendInputs r cc k.nxw l.rtag (s.inputs r cc k.nxw) (l.inptr.toNat + a.idx * l.instride) s1 with
  | (s2, none) => s2
  | (s2, some (cause, addr, core)) =>
    if cause = Cause.uce then
      (s2.uceMark r (s.partOf r) core cc k.nxw addr 64).uceContain r (s.partOf r) { addr := BitVec.ofNat 64 addr } l.rtag k.nxw cc 0 0 core
    else s2.endLaunch r cc l.rtag cause

end State

/-- ADMISSION (spec/06 R130, spec/02 R31, spec/22 R441): what it reads from other homes rides the fabric first (spec/08 R162); a wave that a
reconfiguration still on its way governs is not admitted before it (spec/02 R59). -/
def execAdmission (r c : Nat) (s : State) : Host.Outcome State Fault Refusal :=
  let cc := BitVec.ofNat 5 c
  let k := s.colour r c
  let e := s.colourEntry r cc k.nxw
  match s.nextLaunch r cc with
  | none => .next s
  | some l =>
    .next (if (s.region r).st != 2 || !kArmed e || !s.regionRuns r || s.isFrozen r cc || k.q ≤ k.livea || !s.portsOpen r cc ||
        s.awaitsReconf r cc k.nxw then s
      else
        let ins := s.inputs r cc k.nxw
        s.viaFabric (State.engTrip [2, r, c] r (s.partOf r) ((ins.head?.map (·.1)).getD r) cc k.nxw l.rtag)
          (s.inputPieces r cc k.nxw ins (l.inptr.toNat + l.admitted * l.instride)) (fun st => st.admitNext r c l))

namespace State

/-- A record that an exit port writes: zeros for the records suppressed before it, then its data (spec/22 R442). -/
def exitBeats (e : BitVec 64) (rc : Rec) : List Vec :=
  let skipped := if cSkipz e then (rhSkip rc.hdr).toNat else 0
  List.replicate (skipped * cBeats e) 0 ++ rc.beats

/-- An exit port writes beats of an admission that stand for n records of a channel (spec/22 R442, spec/24 R444): the state, and whether they
have been written. -/
def exitPut (s : State) (x : Transit) (r k ch : Nat) (bs : List Vec) (recs : Nat) : State × Bool :=
  let h := x.rc.hdr
  let c := rhCol h
  let w := rhWave h
  let e := s.chanOf r ch c w
  match s.admOf r c w with
  | none => (s.endLaunch r c (rhRtag h) Cause.chan, false)
  | some a =>
    let n := lget 0 a.wrote ch + recs
    match (s.region r).launches.find? (fun l => l.id == a.launch) with
    | none => (s, true)
    | some l =>
      if a.left || cRpw e < n || l.outstride < a.bytes + 64 * bs.length then (s.endLaunch r c (rhRtag h) Cause.chan, false)
      else
        match writeBeats r (s.partOf r) (s.opCore r k) c w (rhRtag h) (l.outptr.toNat + a.idx * l.outstride + a.bytes) bs s with
        | (s1, some f) => (s1.endLaunch r c (rhRtag h) f.1, false)
        | (s1, none) =>
          let y := s1.region r
          (s1.setRegion r { y with adms := y.adms.map (fun b =>
            if b.col == c && b.wave == a.wave then { b with wrote := lset b.wrote ch n, bytes := b.bytes + 64 * bs.length } else b) }, true)

/-- Records suppressed before a record of a channel (spec/04 R95): a skip count says so on a SKIPZ channel alone. -/
def skipsOf (s : State) (r ch : Nat) (rc : Rec) : Nat :=
  if cSkipz (s.chanOf r ch (rhCol rc.hdr) (rhWave rc.hdr)) then (rhSkip rc.hdr).toNat else 0

/-- The beats that a record has an exit port write: for one that goes to a peer, the zeros of the records suppressed before it alone (spec/17
R337, spec/22 R442). -/
def exitData (s : State) (x : Transit) (r ch : Nat) : List Vec :=
  let e := s.chanOf r ch (rhCol x.rc.hdr) (rhWave x.rc.hdr)
  exitBeats e (if x.peer.isSome then { x.rc with beats := [] } else x.rc)

/-- What an exit port's writes ask of homes outside its core (spec/08 R162). -/
def exitPieces (s : State) (x : Transit) (r k ch : Nat) : List Piece :=
  let c := rhCol x.rc.hdr
  let w := rhWave x.rc.hdr
  let bs := s.exitData x r ch
  match s.admOf r c w with
  | none => []
  | some a => match (s.region r).launches.find? (fun l => l.id == a.launch) with
    | none => []
    | some l => s.engPieces r (s.partOf r) (s.opCore r k) c w true (l.outptr.toNat + a.idx * l.outstride + a.bytes) (64 * bs.length) (beatsNum bs)

/-- An exit port writes a record of an admission, after the zeros of those suppressed before it. -/
def exitWrite (s : State) (x : Transit) (r k ch : Nat) : State :=
  (s.exitPut x r k ch (s.exitData x r ch) (s.skipsOf r ch x.rc + 1)).1

/-- Node number of a port for a peer: the lowest of those the entry names (spec/08 R161, spec/22 R434). -/
def portNode (ports : Nat) : Nat := 4 * 512 + (((List.range 12).find? (fun i => bit ports i)).getD 0)

/-- An exit port sends a record to a peer, as a class 5 message (spec/17 R337); the records suppressed before it are written as zeros, and count
(spec/22 R442). -/
def exitPeer (s : State) (x : Transit) (r k ch i : Nat) : State :=
  let h := x.rc.hdr
  let e := s.colourEntry r (rhCol h) (rhWave h)
  match s.peerAt e i with
  | none => s
  | some (pdev, ports, mac, pep) =>
    let core := s.opCore r k
    let n := s.skipsOf r ch x.rc
    let (s1, ok) := if n == 0 then (s, true) else s.exitPut x r k ch (s.exitData x r ch) n
    if !ok then s1
    else s1.sendMsg {
      cls := 5, src := coreNode core, dst := portNode ports, region := some r, col := rhCol h, wave := rhWave h, rtag := rhRtag h,
      payload := x.rc.beats, bytes := 64 * x.rc.beats.length, peer := pdev, ports := ports,
      mac := mac, pep := pep, what := .peer }

end State

/-- EXIT_PORT_RECORD (spec/22 R442, spec/17 R337). -/
def execExitPortRecord (n : Nat) (s : State) : Host.Outcome State Fault Refusal :=
  s.onOpVia n 2 s.exitPieces (fun st x r k ch => match x.peer with
    | some i => st.exitPeer x r k ch i
    | none => st.exitWrite x r k ch)

/-- EXIT_ADMISSION_LEAVE: RPW records of every channel into every exit port of the colour have been written (spec/22 R442, spec/24
R444); a poisoned wave is not retired (spec/21 R419). -/
def execExitAdmissionLeave (r k : Nat) (s : State) : Host.Outcome State Fault Refusal :=
  match (s.region r).adms[k]? with
  | none => .next s
  | some a =>
    let outs := s.outputs r a.col a.wave
    let held := (s.region r).marks.any (fun m => m.col == a.col && (m.wave - a.wave).toNat < s.ws r)
    .next (if a.left || outs.isEmpty || held || !outs.all (fun o => cRpw o.2 ≤ lget 0 a.wrote o.1) then s
      else s.setRegion r { s.region r with adms := setAt (s.region r).adms k { a with left := true } })

/-! Counter nodes (spec/02 R26). -/

namespace State

/-- KS and ROWS in force for a wave: the entry's, changed by the bound records that govern it. -/
def tripOf (s : State) (r n : Nat) (c : BitVec 5) (w : BitVec 16) : Nat × Nat :=
  let e := s.opEntry r n
  (s.region r).bounds.foldl (fun acc b =>
    let on := b.op == n && b.col == c && (match b.wave with
      | none => true
      | some v => 0 ≤ waveDiff w v)
    if on then (if b.ks == 0 then acc.1 else b.ks, if b.rows == 0 then acc.2 else b.rows) else acc) ((oP0 e).toNat, oP1 e)

/-- The instance of a fixed operator for a colour and wave. R26 has one for each (colour, wave mod W) and names no hold: two live waves that are
equal mod W have one each (DESIGN CHOICE, log entry 85). -/
def nodeAt (s : State) (r n : Nat) (c : BitVec 5) (w : BitVec 16) : Node :=
  ((s.region r).nodes.find? (fun x => x.op == n && x.col == c && x.wave == w)).getD { op := n, col := c, wave := w }

def setNode (s : State) (r : Nat) (x : Node) : State :=
  let y := s.region r
  s.setRegion r { y with nodes := y.nodes.filter (fun z => !(z.op == x.op && z.col == x.col && z.wave == x.wave)) ++ [x] }

/-- Ends the K-step, and the row, whose count meets the trip counts: the end records leave (spec/02 R26). No check refuses a KS or ROWS of 0:
every data record then ends a K-step, and every K-step a row (DESIGN CHOICE, log entry 85). -/
def endCounts (s : State) (r n : Nat) (x : Node) : State :=
  let (ks, rows) := s.tripOf r n x.col x.wave
  if x.recs < ks || x.recs == 0 then s.setNode r x
  else
    let done := rows ≤ x.kstep + 1
    let rec_ := fun (k : Nat) => mkRec x.col x.wave x.rtag 0 2 false 0 [lanesBeat [k, x.kstep, x.row]]
    let s1 := s.opSend r n 1 (rec_ 1)
    let s2 := if done then s1.opSend r n 2 (rec_ 2) else s1
    s2.setNode r { x with recs := 0, kstep := if done then 0 else x.kstep + 1, row := if done then x.row + 1 else x.row }

/-- A bound record: it governs its own wave and the later ones; counts that already meet the new trip counts end at once, each with the
request tag of its own wave (spec/02 R26, R30). Lane 1 of an end-of-row record that leaves at once is the number of the K-step before
(DESIGN CHOICE, log entry 85). -/
def takeBound (s : State) (r n : Nat) (rc : Rec) : State :=
  let c := rhCol rc.hdr
  let w := rhWave rc.hdr
  let y := s.region r
  let s1 := s.setRegion r { y with bounds := y.bounds ++ [{ op := n, col := c, wave := some w, ks := lane0 rc 0, rows := lane0 rc 1 }] }
  (y.nodes.filter (fun x => x.op == n && x.col == c && 0 ≤ waveDiff x.wave w)).foldl (fun st x =>
    let (ks, rows) := st.tripOf r n c x.wave
    if x.recs != 0 && ks ≤ x.recs then st.endCounts r n x
    else if 0 < x.kstep && rows ≤ x.kstep then
      (st.opSend r n 2 (mkRec x.col x.wave x.rtag 0 2 false 0 [lanesBeat [2, x.kstep - 1, x.row]])).setNode r
        { x with kstep := 0, row := x.row + 1 }
    else st) s1

end State

/-- COUNTER_NODE_RECORD (spec/02 R26). It counts the data records that arrive: one that its producer suppressed under skip coding is not
counted (DESIGN CHOICE, log entry 76). -/
def execCounterNodeRecord (n : Nat) (s : State) : Host.Outcome State Fault Refusal :=
  s.onOp n 3 (fun st x r k _ =>
    if rhKind x.rc.hdr == 1 then st.takeBound r k x.rc
    else
      let s1 := st.opSend r k 0 x.rc
      if rhKind x.rc.hdr != 0 then s1
      else
        let y := s1.nodeAt r k (rhCol x.rc.hdr) (rhWave x.rc.hdr)
        s1.endCounts r k { y with recs := y.recs + 1, rtag := rhRtag x.rc.hdr })

/-! Memory operators and remote-scratchpad nodes (spec/02 R26). -/

namespace State

/-- A result joins those that the operator has ready to send. -/
def putOut (s : State) (r n : Nat) (rc : Rec) : State :=
  s.setRegion r { s.region r with outs := (s.region r).outs ++ [{ op := n, rc := rc }] }

/-- Entry of an operator's outgoing channel. -/
def outChan (s : State) (r n : Nat) (rc : Rec) : BitVec 64 :=
  match opOut (s.opEntry r n) 0 with
  | some ch => s.chanOf r ch (rhCol rc.hdr) (rhWave rc.hdr)
  | none => 0

/-- The I32 beat that reports a store (spec/02 R26). -/
def storeDone (s : State) (r n : Nat) (rc : Rec) : State := s.putOut r n (likeRec rc 0 0 [0])

/-- The address that a record names at a memory operator (spec/02 R26). -/
def memOpAddr (s : State) (r k : Nat) (rc : Rec) : Nat := (oP2 (s.opEntry r k) + lane0 rc 0 * oP1 (s.opEntry r k)) % 2 ^ 64

/-- What a memory operator asks of homes outside its core (spec/08 R162). -/
def memOpPieces (s : State) (x : Transit) (r k _ch : Nat) : List Piece :=
  let c := rhCol x.rc.hdr
  let w := rhWave x.rc.hdr
  let o := s.outChan r k x.rc
  let a := s.memOpAddr r k x.rc
  if a % 64 != 0 then []
  else if (oP0 (s.opEntry r k)).getLsbD 0 then
    s.engPieces r (s.partOf r) (s.opCore r k) c w true a (64 * (x.rc.beats.length - 1)) (beatsNum (x.rc.beats.drop 1))
  else s.engPieces r (s.partOf r) (s.opCore r k) c w false a (if o == 0 then 0 else 64 * cBeats o) 0

end State

/-- MEMORY_OPERATOR_RECORD (spec/02 R26). Its accesses are of whole beats: an address that is no multiple of 64 faults ALIGN, as R26
lists and R76's BASE and STRIDE imply (DEDUCED, log entry 66). A load without an outgoing channel reads 0 beats (DESIGN CHOICE, log
entry 86). -/
def execMemoryOperatorRecord (n : Nat) (s : State) : Host.Outcome State Fault Refusal :=
  s.onOpVia n 4 s.memOpPieces (fun st x r k _ =>
    let e := st.opEntry r k
    let c := rhCol x.rc.hdr
    let w := rhWave x.rc.hdr
    let p := st.partOf r
    let core := st.opCore r k
    let gva := st.memOpAddr r k x.rc
    if gva % 64 != 0 then st.opFault r k x.rc Cause.align gva
    else if (oP0 e).getLsbD 0 then
      match State.writeBeats r p core c w (rhRtag x.rc.hdr) gva (x.rc.beats.drop 1) st with
      | (s1, some f) => s1.opFault r k x.rc f.1 f.2
      | (s1, none) => s1.storeDone r k x.rc
    else
      let o := st.outChan r k x.rc
      match State.readBeats r p core c w (if o == 0 then 0 else cBeats o) gva [] st with
      | .error f => (if f.1 = Cause.uce then st.uceMark r p core c w f.2 64 else st).opFault r k x.rc f.1 f.2
      | .ok (bs, s1) => s1.putOut r k (State.likeRec x.rc (cFmt o) 0 bs))

/-- MEMORY_OPERATOR_RESULT: results leave in the order of the records that asked for them (spec/02 R26). -/
def execMemoryOperatorResult (r k : Nat) (s : State) : Host.Outcome State Fault Refusal :=
  match (s.region r).outs[k]? with
  | none => .next s
  | some o =>
    .next (if ((s.region r).outs.take k).any (fun y => y.op == o.op) then s
      else (s.setRegion r { s.region r with outs := dropAt (s.region r).outs k }).opSend r o.op 0 o.rc)

namespace State

/-- The fault of a remote-scratchpad node's access: outside the scratchpad or the partition (spec/14 R290), a word in BARRIER or
POISON, an uncorrectable byte. -/
def remoteBad (s : State) (r core pa n : Nat) (write : Bool) : Option (BitVec 8) :=
  if scratchPa core 0x800000 < pa + n then some Cause.perm
  else if s.ownerOf pa != s.partOf r then some Cause.perm
  else if write && (s.spillGuard pa n || s.heapGuard r false pa n) then some Cause.perm
  else if write && s.anyWord pa n 2 then some Cause.barclob
  else if s.anyWord pa n 3 then some Cause.poison
  else if !write && s.hasUce pa n then some Cause.uce
  else none

/-- Writes beats at a scratchpad address, words set FULL. -/
def remoteWrite (r core : Nat) (c : BitVec 5) (tag : BitVec 16) : (pa : Nat) → List Vec → State → State × Option (BitVec 8 × Nat)
  | _, [], st => (st, none)
  | pa, b :: bs, st =>
    match st.remoteBad r core pa 64 true with
    | some k => (st, some (k, pa))
    | none => remoteWrite r core c tag (pa + 64) bs
        ((st.homeWrite pa 64 b.toNat { part := st.partOf r, col := c, rtag := tag, die := core / 16 }).setWords pa 64 1)

end State

/-- REMOTE_SCRATCHPAD_RECORD (spec/02 R26): a read waits until every word is FULL. A read without an outgoing channel reads 0 beats, and a TARGET
beyond the region's cores, which no check refuses, faults PERM with address 0 for each record (DESIGN CHOICE, log entry 86). -/
def execRemoteScratchpadRecord (n : Nat) (s : State) : Host.Outcome State Fault Refusal :=
  s.onOp n 13 (fun st x r k _ =>
    let e := st.opEntry r k
    let p0 := (oP0 e).toNat
    match (st.region r).coreAt (bits p0 1 4) with
    | none => st.opFault r k x.rc Cause.perm 0
    | some core =>
      let off := oP2 e + State.lane0 x.rc 0 * oP1 e
      let pa := scratchPa core off
      let o := st.outChan r k x.rc
      let len := if o == 0 then 0 else 64 * cBeats o
      if off % 64 != 0 then st.opFault r k x.rc Cause.align off
      else if bit p0 0 then
        match State.remoteWrite r core (rhCol x.rc.hdr) (rhRtag x.rc.hdr) pa (x.rc.beats.drop 1) st with
        | (s1, some f) => (s1.opFault r k x.rc f.1 (f.2 - scratchPa core 0)).wakeUp
        | (s1, none) => (s1.storeDone r k x.rc).wakeUp
      else match st.remoteBad r core pa len false with
        | some f => (if f = Cause.uce then (State.wordsOf pa len).foldl (fun q a => if q.hasUce a 4 then q.setFe a 3 else q) st else st).opFault
            r k x.rc f off
        | none =>
          if !st.allWords pa len 1 then s
          else st.putOut r k (State.likeRec x.rc (cFmt o) 0
            ((List.range (len / 64)).map (fun i => BitVec.ofNat 512 (mread st.mem (pa + 64 * i) 64)))))

/-! Steer and merge (spec/02 R26). -/

namespace State

/-- Sends the pairs that a steer operator holds, in order. -/
def sendPairs (r n : Nat) : (fuel : Nat) → Node → State → Node × State
  | 0, x, st => (x, st)
  | f + 1, x, st =>
    match x.dataQ, x.predQ with
    | d :: ds, p :: ps => sendPairs r n f { x with dataQ := ds, predQ := ps } (st.opSend r n (if lane0 p.rc 0 != 0 then 0 else 1) d.rc)
    | _, _ => (x, st)

end State

/-- STEER_RECORD (spec/02 R26). -/
def execSteerRecord (n : Nat) (s : State) : Host.Outcome State Fault Refusal :=
  s.onOp n 7 (fun st x r k ch =>
    let y := st.nodeAt r k (rhCol x.rc.hdr) (rhWave x.rc.hdr)
    let y1 : Node := if ch == oPort (st.opEntry r k) 1 then { y with predQ := y.predQ ++ [x] } else { y with dataQ := y.dataQ ++ [x] }
    let (y2, s1) := State.sendPairs r k (y1.dataQ.length + 1) y1 st
    s1.setNode r y2)

/-- MERGE_RECORD (spec/02 R26). -/
def execMergeRecord (n : Nat) (s : State) : Host.Outcome State Fault Refusal :=
  s.onOp n 8 (fun st x r k _ => st.opSend r k 0 x.rc)

/-- BOUNDARY_NODE_RECORD: the accesses before the record's send are performed before it arrives (spec/05 R115, spec/17 R332). -/
def execBoundaryNodeRecord (n : Nat) (s : State) : Host.Outcome State Fault Refusal :=
  s.onOp n 5 (fun st x r k _ => st.opSend r k 0 x.rc)

/-- Waves of its span that an admission uses: the extent of a wave level of its launch, else WS (spec/02 R32, R58). Of several wave
levels, which the spec does not forbid, the first counts (DESIGN CHOICE, log entry 71). -/
def State.spanOf (s : State) (r : Nat) (a : Adm) : Nat :=
  match (s.region r).launches.find? (fun l => l.id == a.launch) with
  | none => s.ws r
  | some l => match l.levels.find? (fun v => v.1 == 7) with
    | some v => v.2.1
    | none => s.ws r

/-- WAVE_ADVANCE_RECORD (spec/02 R32, R58). -/
def execWaveAdvanceRecord (n : Nat) (s : State) : Host.Outcome State Fault Refusal :=
  s.onOp n 6 (fun st x r k _ =>
    let w := rhWave x.rc.hdr + 1
    let inside := match st.admOf r (rhCol x.rc.hdr) (rhWave x.rc.hdr) with
      | some a => decide ((w - a.wave).toNat < st.spanOf r a)
      | none => false
    if inside then st.opSend r k 0 { x.rc with hdr := hdrSetWave x.rc.hdr w }
    else st.opFault r k x.rc Cause.chan 0)

/-! Conversion nodes (spec/02 R26, R49). -/

/-- The type of a format tag's elements (spec/02 R36); none for CB2. -/
def fmtTy : Nat → Option Ty
  | 0 => some .i32
  | 1 => some .f32
  | 2 => some .bf16
  | 3 => some .fp16
  | 4 => some .i16
  | 5 => some .e4m3
  | 6 => some .i8
  | _ => none

/-- The elements of a record in a channel's format (spec/02 R26); none where the spec gives no conversion. No check refuses an entry whose ROUND
holds DYN or a reserved code, which rounds as RNE here, nor one with SAT none or nosat on an E4M3 channel, where an overflow gives 0x7F
(DESIGN CHOICE, log entry 87). -/
def State.convElems (s : State) (r : Nat) (e : BitVec 256) (rc : Rec) (dst : Nat) : Option (Ty × List Nat) :=
  let rnd := (Rnd.dec ((oP0 e).extractLsb' 0 3)).getD .rne
  let sm := (Sat.dec ((oP0 e).extractLsb' 3 2)).getD .none
  match fmtTy (rhFmt rc.hdr).toNat, fmtTy dst with
  | some a, some b =>
    some (b, rc.beats.flatMap (fun v => (List.range a.lanes).map (fun i =>
      if a == b then lane a.width v i else (convert b a rnd sm (lane a.width v i)).v)))
  | none, some b =>
    if b == .bf16 || b == .f32 then
      some (b, ((List.range rc.beats.length).zip rc.beats).flatMap (fun iv => (List.range 256).map (fun i =>
        let x := BitVec.ofNat 16 (lane 16 iv.2 (i / 8))
        let v := ((cb2 (lget 0 (s.region r).codebook (x.toNat / 256)) x (i % 8)).to (Fmt.ofTy b) .rne .none).v
        (scaleLane (Fmt.ofTy b) rnd sm v ((rc.scales.getD iv.1 0).toNat)).v)))
    else none
  | _, none => none

/-- Elements packed into beats from beat 0. -/
def packBeats (w : Nat) : (fuel : Nat) → List Nat → List Vec
  | 0, _ => []
  | f + 1, l => if l.isEmpty then [] else ofLanes w (l.take (512 / w)) :: packBeats w f (l.drop (512 / w))

/-- CONVERSION_NODE_RECORD: the converted record goes on to the slot in the original's place (spec/02 R26, R49). -/
def execConversionNodeRecord (n : Nat) (s : State) : Host.Outcome State Fault Refusal :=
  s.onOp n 9 (fun st x r k ch =>
    let h := x.rc.hdr
    let e := st.chanOf r ch (rhCol h) (rhWave h)
    let t := (st.chanTile r ch).getD 0
    let m : Mark := { tile := t, op := (cISlot e).toNat, col := rhCol h, wave := rhWave h }
    let bad := (st.poisonOp r m (rhRtag h)).engineTrap r (st.partOf r) { cause := Cause.chan } (rhRtag h) (rhWave h) (rhCol h) (cISlot e)
      (t % 32) (t / 32)
    match st.convElems r (st.opEntry r k) x.rc (cFmt e).toNat with
    | none => bad
    | some (ty, l) =>
      let bs := packBeats ty.width (l.length + 1) l
      if cBeats e < bs.length then bad
      else
        let hdr := mkHdr (rhSkip h) (BitVec.ofNat 6 (bs.length - 1)) (rhPoison h) (rhKind h) (rhChan h) (cFmt e) (rhRtag h) (rhWave h) (rhCol h)
        { st with transit := { x with rc := { hdr := hdr, beats := bs, scales := bs.map (fun _ => 0) }, dst := .slot t ch } :: st.transit })

/-! Island nodes (spec/13 R276). -/

namespace State

/-- The islands of an island node: core and island. The spec gives PLACE and COUNT: they are COUNT islands, two of each core, from the
node's core on in the order of the region's cores (DESIGN CHOICE, log entry 73). -/
def islandsOf (s : State) (r n : Nat) : List (Nat × Nat) :=
  let e := s.opEntry r n
  (List.range (bits (oP0 e).toNat 0 3)).filterMap (fun i => ((s.region r).coreAt (oPlace e + i / 2)).map (fun c => (c, i % 2)))

/-- Writes an A row to an island at its colour's pointer, after k rows for the records that skip coding suppressed before it: those
become valid, and leave the C rows that they would have fed unchanged (spec/04 R95, spec/13 R276). -/
def putRow (s : State) (c : Nat × Nat) (col : BitVec 5) (rtag : BitVec 16) (k : Nat) (bs : List Vec) : State :=
  let x := s.island c.1 c.2
  match lget? x.fill col.toNat with
  | none => s
  | some (slot, row) =>
    let skipped := (List.range k).foldl (fun m i => lset m (slot * 128 + row + i) ({ skip := true, rtag := rtag, col := col } : ARow)) x.aRows
    s.setIsland c.1 c.2 { x with aRows := lset skipped (slot * 128 + row + k) { rtag := rtag, col := col, data := bs },
                                 fill := lset x.fill col.toNat (slot, row + k + 1) }

end State

/-- Kind of the fixed operator that a record is bound for; 0 for none. -/
def State.nodeKind (s : State) (n : Nat) : Nat :=
  match s.transit[n]? with
  | none => 0
  | some x => match x.dst with
    | .op r k _ => oKind (s.opEntry r k)
    | _ => 0

/-- A_ROW_RECORD (spec/13 R276). A record to a streamer or boarding node is taken, with no other effect (log entry 11). -/
def execARowRecord (n : Nat) (s : State) : Host.Outcome State Fault Refusal :=
  if s.nodeKind n == 11 then s.onOp n 11 (fun st _ _ _ _ => st)
  else if s.nodeKind n == 12 then s.onOp n 12 (fun st _ _ _ _ => st)
  else s.onOp n 10 (fun st x r k ch =>
    let c := rhCol x.rc.hdr
    let sk := st.skipsOf r ch x.rc
    let mine := (st.islandsOf r k).filter (fun i => (lget? (st.island i.1 i.2).fill c.toNat).isSome)
    if mine.isEmpty then st.spillRec r x false
    else if x.rc.beats.length != 4 || mine.any (fun i => 128 ≤ (lget (0, 0) (st.island i.1 i.2).fill c.toNat).2 + sk) then
      st.opFault r k x.rc Cause.chan 0
    else mine.foldl (fun q i => q.putRow i c (rhRtag x.rc.hdr) sk x.rc.beats) st)

end Sys2Proof.Machine
end

