-- ==== Sys2Proof/Machine/Tasks.lean ====
section
/-!
DEFINITION. Machine/Tasks.lean: the task engines (spec/06 R125 to R129, R457), and what the islands do (spec/13 R277 to R279). A
task's engine works on it whole, in one event.
-/

namespace Sys2Proof.Machine

namespace State

/-- The island that an island task names: core and island (spec/13 R277); none where RCORE lies outside the region. -/
def taskIsland (s : State) (r : Nat) (v : BitVec 512) : Option (Nat × Nat) :=
  let o := tOper v
  let (rc, i) := match tType v with
    | 0 => (bits o 3 4, bits o 7 1)
    | 1 => (bits o 2 4, bits o 6 1)
    | _ => (bits o 0 4, bits o 4 1)
  ((s.region r).coreAt rc).map (fun c => (c, i))

/-- Whether row i of an A slot is valid. -/
def rowValid (x : Island) (slot i : Nat) : Bool := (lget? x.aRows (slot * 128 + i)).isSome

/-- Whether a B slot holds a tile that is not consumed. -/
def holdsTile (x : Island) (slot : Nat) : Bool :=
  let b := lget {} x.bSlots slot
  b.tag.isSome && !b.consumed

/-- Whether an IMMA's slots are filled (spec/13 R277). One that names no island of the region fails when it is performed. -/
def immaResident (s : State) (r : Nat) (v : BitVec 512) : Bool :=
  let o := tOper v
  match s.taskIsland r v with
  | none => true
  | some (c, i) =>
    let x := s.island c i
    (List.range (bits o 17 7 + 1)).all (rowValid x (bits o 9 3)) && holdsTile x (bits o 12 3)

/-- What the words of a declared input range say: all FULL, some not, or the fault that ends the task with its address (a word in POISON
makes no trap record); and the state, in which the translations have set A (spec/14 R292). -/
def inputState (s : State) (core : Nat) (x : Tcb) : State × Except (BitVec 8 × Nat) Bool :=
  (List.range (tInlen x.raw)).foldl (fun acc i => match acc.2 with
    | .error f => (acc.1, .error f)
    | .ok ok =>
      let a := tInput x.raw + 4 * i
      match acc.1.taskWord core x a with
      | .error c => (acc.1, .error (c, a))
      | .ok (pa, s1) => (s1, if s.feOf pa == 3 then .error (Cause.poison, a) else .ok (ok && s.feOf pa == 1))) (s, .ok true)

/-- A task that a word in POISON ends (spec/06 R125), or one that cannot be read (R457). -/
def taskBad (s : State) (core b : Nat) (f : BitVec 8 × Nat) : State :=
  if f.1 = Cause.poison then s.retireTask core b Cause.poison (tSuccs (s.tcb core b).raw 0 8)
  else s.taskFault core b f.1 f.2

end State

/-- TASK_RESIDENT: WAITIN to READY (spec/06 R125). -/
def execTaskResident (c b : Nat) (s : State) : Host.Outcome State Fault Refusal :=
  let x := s.tcb c b
  .next (if x.st != .waitin then s
    else match s.inputState c x with
      | (s1, .error f) => s1.taskBad c b f
      | (s1, .ok false) => s1
      | (s1, .ok true) =>
        if tType x.raw != 0 || s.immaResident (s.regionAt c) x.raw then s1.setTcb c b { x with st := .ready, readyAt := s.clkOf c } else s1)

namespace State

/-- Whether the engine that a READY task needs is free: its island, or a place at its streamer channel, where copies join the queue in the
order in which they issued (spec/06 R125, spec/16 R322). -/
def engineFree (s : State) (c : Nat) (x : Tcb) : Bool :=
  let r := s.regionAt c
  match tType x.raw with
  | 0 | 1 | 2 =>
    (match s.taskIsland r x.raw with
     | none => true
     | some i => !(s.region r).cores.any (fun k => (s.core k).tcbs.any (fun t =>
         t.2.st == .issued && tType t.2.raw ≤ 2 && s.taskIsland r t.2.raw == some i)))
  | 3 => (s.copies c (bits (tOper x.raw) 10 4)).length < 4 &&
    !(s.core c).tcbs.any (fun t => t.2.st == .issued && tType t.2.raw == 3 && !t.2.begun && bits (tOper t.2.raw) 10 4 == bits (tOper x.raw) 10 4)
  | _ => true

/-- Whether a task may issue: READY, its colour not frozen, its partition running, its engine free. A COND or WHILE reads its word
itself. -/
def mayIssue (s : State) (c : Nat) (x : Tcb) : Bool :=
  x.st == .ready && tType x.raw ≤ 4 && !s.isFrozen (s.regionAt c) x.col && s.regionRuns (s.regionAt c) && s.engineFree c x

/-- Order of issue: class, then the time at which the task became READY, then the block (spec/06 R126). -/
def issueKey (x : Tcb) (b : Nat) : Nat × Nat × Nat := (tClass x.raw, x.readyAt, b)

def key3Lt (x y : Nat × Nat × Nat) : Bool :=
  x.1 < y.1 || (x.1 == y.1 && (x.2.1 < y.2.1 || (x.2.1 == y.2.1 && x.2.2 < y.2.2)))

/-- The condition word of a COND or WHILE task: its value and place once FULL, nothing while it is not, or the fault; and the state, in
which the translation has set A (spec/06 R128, R457, spec/14 R292). -/
def condWord (s : State) (c : Nat) (x : Tcb) : State × Except (BitVec 8 × Nat) (Option (Nat × Nat)) :=
  let a := bits (tOper x.raw) 0 56
  match s.taskWord c x a with
  | .error k => (s, .error (k, a))
  | .ok (pa, s1) =>
    (s1, if s.feOf pa == 3 then .error (Cause.poison, a)
      else if s.feOf pa == 1 then .ok (some (mread s.mem pa 4, pa)) else .ok none)

/-- A COND or WHILE task that may read its word. -/
def mayRead (s : State) (c : Nat) (x : Tcb) (ty : Nat) : Bool :=
  x.st == .ready && tType x.raw == ty && !s.isFrozen (s.regionAt c) x.col && s.regionRuns (s.regionAt c)

/-- Whether a READY task could act now: issue, or read a condition word that is FULL or cannot be read. -/
def canAct (s : State) (c : Nat) (x : Tcb) : Bool :=
  s.mayIssue c x || ((s.mayRead c x 5 || s.mayRead c x 6) && (match (s.condWord c x).2 with
    | .ok none => false
    | _ => true))

/-- Whether another READY task of the core comes first (spec/06 R126). -/
def comesLater (s : State) (c b : Nat) (x : Tcb) : Bool :=
  (s.core c).tcbs.any (fun t => key3Lt (issueKey t.2 t.1) (issueKey x b) && s.canAct c t.2)

end State

/-- TASK_ISSUE (spec/06 R126): a progress event (spec/21 R425). -/
def execTaskIssue (c b : Nat) (s : State) : Host.Outcome State Fault Refusal :=
  let x := s.tcb c b
  .next (if !s.mayIssue c x || s.comesLater c b x then s
    else (s.setTcb c b { x with st := .issued }).progress (s.regionAt c) x.col)

/-! Island tasks (spec/13 R278, R279). -/

namespace State

/-- A task that its island refuses: it retires with ISLERR, and the trap operator receives the record with the cause beneath
(spec/13 R278, R279, spec/21 R414 UNDER). -/
def islErr (s : State) (c b : Nat) (under : BitVec 8) : State :=
  let x := s.tcb c b
  (s.retireTask c b Cause.islerr (tSuccs x.raw 0 8)).itemFault c { cause := Cause.islerr, under := under.setWidth 64 } under x.rtag x.wave x.col

/-- An engine is done with its task, without error. -/
def taskDone (s : State) (c b : Nat) : State := s.retireTask c b 0 (tSuccs (s.tcb c b).raw 0 8)

/-- Number of n bytes of a B slot. -/
def bRead (x : BSlot) (off n : Nat) : Nat := ((List.range n).map (fun i => (lget 0 x.data (off + i)).toNat * 256 ^ i)).foldl (· + ·) 0

/-- One element of a K-step (spec/13 R278, spec/04 R96). -/
def immaElem (s : State) (r mode : Nat) (row : ARow) (slot : BSlot) (acc : BitVec 32) (j : Nat) : BitVec 32 :=
  let w := if 2 ≤ mode then 2 else 1
  let k := if 2 ≤ mode then 128 else 256
  let a := (List.range k).map (fun x => lane (8 * w) (row.data.getD (x * w / 64) 0) (x % (64 / w)))
  match mode with
  | 0 =>
    let b := (List.range 256).map (fun x =>
      let idx := BitVec.ofNat 16 (bRead slot (512 + 2 * (j * 32 + x / 8)) 2)
      cb2 (lget 0 (s.region r).codebook (idx.toNat / 256)) idx (x % 8))
    sumOrder .cb2 acc a b [] [bRead slot (2 * j) 2]
  | 1 => sumOrder .e4 acc a ((List.range k).map (fun x => (Fmt.ofTy .e4m3).num (bRead slot (256 * j + x) 1))) [] []
  | 2 => sumOrder .bf16 acc a ((List.range k).map (fun x => (Fmt.ofTy .bf16).num (bRead slot (2 * (128 * j + x)) 2))) [] []
  | _ => sumOrder .fp16 acc a ((List.range k).map (fun x => (Fmt.ofTy .fp16).num (bRead slot (2 * (128 * j + x)) 2))) [] []

/-- A claim record of the task's (colour, request tag) on a slot of an island. -/
def claimed (s : State) (i : Nat × Nat) (key : Nat) (x : Tcb) : Bool := (s.claimsAt (i.1, i.2, key)).contains (x.col, x.rtag)

/-- A K-step whose checks have passed. -/
def kStep (s : State) (r : Nat) (i : Nat × Nat) (o : Nat) : State :=
  let x := s.island i.1 i.2
  let bank := bits o 8 1
  let asl := bits o 9 3
  let bsl := bits o 12 3
  let slot := lget {} x.bSlots bsl
  let banks := (List.range 128).foldl (fun (m : SMap (BitVec 32)) row =>
    match (lget? x.aRows (asl * 128 + row)).filter (fun a => !a.skip) with
    | none => m
    | some ar => (List.range 256).foldl (fun m j =>
        let key := bank * 32768 + row * 256 + j
        lset m key (s.immaElem r (bits o 0 3) ar slot (lget 0 m key) j)) m) x.banks
  s.setIsland i.1 i.2 { x with
    banks := banks,
    aRows := if bit o 15 then x.aRows else x.aRows.filter (fun e => e.1 / 128 != asl),
    bSlots := if bit o 16 then x.bSlots else lset x.bSlots bsl {} }

end State

/-- IMMA: one K-step (spec/13 R278). -/
def execImma (c b : Nat) (s : State) : Host.Outcome State Fault Refusal :=
  let x := s.tcb c b
  let r := s.regionAt c
  let o := tOper x.raw
  .next (if x.st != .issued || tType x.raw != 0 then s
    else match s.taskIsland r x.raw with
      | none => s.islErr c b 0
      | some i =>
        let isl := s.island i.1 i.2
        let tag := lget {} isl.bankTag (bits o 8 1)
        if !tag.valid || tag.col != x.col || !s.claimed i (bits o 9 3) x || !s.claimed i (8 + bits o 12 3) x ||
            !State.holdsTile isl (bits o 12 3) ||
            (lget {} isl.bSlots (bits o 12 3)).tag != some (bits o 24 3, bits o 27 16, bits o 43 8, bits o 51 16) then s.islErr c b 0
        else (s.kStep r i o).taskDone c b)

/-- IZERO: the bank becomes +0 and belongs to the task; with SETA its colour's fill pointer is set (spec/13 R279). -/
def execIzero (c b : Nat) (s : State) : Host.Outcome State Fault Refusal :=
  let x := s.tcb c b
  let o := tOper x.raw
  .next (if x.st != .issued || tType x.raw != 2 then s
    else match s.taskIsland (s.regionAt c) x.raw with
      | none => s.islErr c b 0
      | some i =>
        let isl := s.island i.1 i.2
        let bank := bits o 5 1
        let own : Owner := { valid := true, col := x.col, wave := x.wave, rtag := x.rtag }
        let seta := bit o 9
        (s.setIsland i.1 i.2 { isl with
          banks := isl.banks.filter (fun e => e.1 / 32768 != bank),
          bankTag := lset isl.bankTag bank own,
          aRows := if seta then isl.aRows.filter (fun e => e.1 / 128 != bits o 6 3) else isl.aRows,
          fill := if seta then lset isl.fill x.col.toNat (bits o 6 3, 0) else isl.fill }).taskDone c b)

namespace State

/-- The type of an IDRAIN's output. -/
def drainTy (o : Nat) : Ty :=
  match bits o 0 2 with
  | 0 => .f32
  | 1 => .bf16
  | 2 => .fp16
  | _ => .e4m3

/-- The 32-bit words that an IDRAIN writes: address and value, lowest row first (spec/13 R279). E4M3 saturates; the other formats overflow
to an infinity (spec/04 R90). -/
def drainWords (x : Island) (o : Nat) : List (Nat × Nat) :=
  let ty := drainTy o
  let n := 32 / ty.width
  (List.range (bits o 9 7 + 1)).flatMap (fun i => (List.range (256 / n)).map (fun k =>
    (bits o 32 56 + i * bits o 16 16 + 4 * k,
     ((List.range n).map (fun q =>
       (accConv ty .rne (if ty == .e4m3 then .sat else .none)
         (lget 0 x.banks (bits o 7 1 * 32768 + i * 256 + k * n + q))).v * 2 ^ (ty.width * q))).foldl (· + ·) 0)))

/-- Where each word of a drain is written, or none if an address fails translation or lies outside the scratchpads that the island may
write (spec/13 R279). -/
def drainPlaces (s : State) (r : Nat) (x : Tcb) (core : Nat) : List (Nat × Nat) → State → Option (List (Nat × Nat) × State)
  | [], st => some ([], st)
  | (gva, v) :: l, st =>
    let e := s.colourEntry r x.col x.wave
    match st.xlateEng (core / 16) (kVmid e) (kAsid e) gva true with
    | .error _ => none
    | .ok (_, pa, st1) =>
      let ok := match placeOf pa with
        | .scratch k _ => k == core || ((s.region r).cores.length == 2 && (s.region r).cores.contains k)
        | _ => false
      if ok then (drainPlaces s r x core l st1).map (fun q => ((pa, v) :: q.1, q.2)) else none

/-- The fault that a word of a drain meets at its home. -/
def drainBad (s : State) (r pa : Nat) : Option (BitVec 8) :=
  if s.ownerOf pa != s.partOf r || s.spillGuard pa 4 || s.heapGuard r false pa 4 then some Cause.perm
  else if s.feOf pa == 2 then some Cause.barclob
  else if s.feOf pa == 3 then some Cause.poison
  else if s.hasUce pa 4 then some Cause.uce
  else none

/-- Writes the words of a drain: the state, and the fault of the lowest-addressed word that was not written. -/
def drainWrite (s : State) (r : Nat) (x : Tcb) (ws : List (Nat × Nat)) : State × Option (Nat × BitVec 8) :=
  ws.foldl (fun acc w => match acc.1.drainBad r w.1 with
    | some c => (acc.1, match acc.2 with
      | some f => if f.1 ≤ w.1 then some f else some (w.1, c)
      | none => some (w.1, c))
    | none => ((acc.1.homeWrite w.1 4 w.2 { part := acc.1.partOf r, col := x.col, rtag := x.rtag, die := r / 16 }).setFe w.1 1, acc.2)) (s, none)

end State

/-- IDRAIN (spec/13 R279). -/
def execIdrain (c b : Nat) (s : State) : Host.Outcome State Fault Refusal :=
  let x := s.tcb c b
  let r := s.regionAt c
  let o := tOper x.raw
  .next (if x.st != .issued || tType x.raw != 1 then s
    else match s.taskIsland r x.raw with
      | none => s.islErr c b 0
      | some i =>
        let isl := s.island i.1 i.2
        let tag := lget {} isl.bankTag (bits o 7 1)
        if !tag.valid || tag.col != x.col then s.islErr c b 0
        else match s.drainPlaces r x i.1 (State.drainWords isl o) s with
          | none => s.islErr c b 0
          | some (ws, s1) =>
            match s1.drainWrite r x ws with
            | (s2, some f) => (s2.islErr c b f.2).wakeUp
            | (s2, none) =>
              let y := s2.island i.1 i.2
              let s3 := if bit o 8 then
                  s2.setIsland i.1 i.2 { y with banks := y.banks.filter (fun e => e.1 / 32768 != bits o 7 1) }
                else s2
              (s3.taskDone c b).wakeUp)

/-! Region, copy, COND and WHILE tasks (spec/18 R362, spec/06 R128, R129). -/

namespace State

/-- A task enqueued by another carries its colour, wave and request tag, and is no activation's (spec/06 R129). -/
def byTask (x : Tcb) : TaskBy := { col := x.col, wave := x.wave, rtag := x.rtag, aid := 0, tile := x.tile, slot := x.slot }

/-- Enqueues what is left of a REGION task while blocks are free. -/
def regionMore (c b : Nat) : (fuel : Nat) → State → State
  | 0, st => st
  | n + 1, st =>
    let x := st.tcb c b
    let o := tOper x.raw
    let i := bits o 0 10 + x.left
    if bits o 10 10 ≤ x.left then st.taskDone c b
    else if (st.core c).nTasks ≤ i then st.retireTask c b Cause.cfg (tSuccs x.raw 0 8)
    else match st.enqueueTask c (lget 0 (st.core c).tasks i) (some i) (byTask x) with
      | none => st
      | some (_, st1) => regionMore c b n (st1.setTcb c b { st1.tcb c b with left := x.left + 1 })

end State

/-- REGION_TASK (spec/18 R362). -/
def execRegionTask (c b : Nat) (s : State) : Host.Outcome State Fault Refusal :=
  let x := s.tcb c b
  .next (if x.st != .issued || tType x.raw != 4 then s else State.regionMore c b 1025 s)

/-- COPY_TASK: the copy joins its channel's queue (spec/18 R362, spec/17 R340). -/
def execCopyTask (c b : Nat) (s : State) : Host.Outcome State Fault Refusal :=
  let x := s.tcb c b
  let o := tOper x.raw
  let ch := bits o 10 4
  .next (if x.st != .issued || tType x.raw != 3 || x.begun || 4 ≤ (s.copies c ch).length then s
    else
      let (n, s1) := s.fresh
      let s2 := s1.setTcb c b { x with begun := true }
      s2.setCopies c ch (s2.copies c ch ++ [{
        id := n, tpl := bits o 0 10, count := bits o 16 16, offset := bits o 32 32, region := s.regionAt c, col := x.col,
        wave := x.wave, rtag := x.rtag, task := some b }]))

namespace State

/-- A task of a branch not taken becomes SKIPPED (spec/06 R128): one not yet enqueued when its record comes. None: no block is free to
keep it. -/
def skipTask (s : State) (core : Nat) (by_ : Tcb) (i : Nat) : Option State :=
  match s.taskNamed (s.regionAt core) by_.rtag i with
  | some (c, k) =>
    let x := s.tcb c k
    some (s.setTcb c k (if x.st == .named then { x with skip := true }
      else { x with st := .retired, status := 0, decs := tSuccs x.raw 0 8 }))
  | none => (firstFree (s.core core).tcbs 512).map (fun k =>
      s.setTcb core k { idx := some i, st := .named, skip := true, col := by_.col, rtag := by_.rtag })

end State

/-- COND_TASK (spec/06 R128). -/
def execCondTask (c b : Nat) (s : State) : Host.Outcome State Fault Refusal :=
  let x := s.tcb c b
  .next (if !s.mayRead c x 5 || s.comesLater c b x then s
    else match s.condWord c x with
      | (s1, .error f) => s1.taskBad c b f
      | (s1, .ok none) => s1
      | (s0, .ok (some (v, _))) =>
        let take := if v == 0 then tSuccs x.raw 4 4 else tSuccs x.raw 0 4
        let skip := if v == 0 then tSuccs x.raw 0 4 else tSuccs x.raw 4 4
        match skip.foldl (fun acc i => acc.bind (fun st => st.skipTask c x i)) (some s0) with
        | none => s
        | some s1 => s1.retireTask c b 0 take)

namespace State

/-- Readies a body task for one more trip (spec/06 R129). One enqueued afresh goes to the WHILE task's own core and is read from that core's
table: the rule names no core (DESIGN CHOICE, log entry 75). None: no block is free. -/
def bodyTask (s : State) (c : Nat) (x : Tcb) (i : Nat) : Option State :=
  match s.taskNamed (s.regionAt c) x.rtag i with
  | some (k, n) =>
    let t := s.tcb k n
    some (s.setTcb k n { t with cnt := if t.st == .named then 0 else tPreds t.raw })
  | none => (s.enqueueTask c (lget 0 (s.core c).tasks i) (some i) (byTask x)).map (·.2)

end State

/-- WHILE_TASK (spec/06 R129). -/
def execWhileTask (c b : Nat) (s : State) : Host.Outcome State Fault Refusal :=
  let x := s.tcb c b
  .next (if !s.mayRead c x 6 || s.comesLater c b x then s
    else match s.condWord c x with
      | (s1, .error f) => s1.taskBad c b f
      | (s1, .ok none) => s1
      | (s1, .ok (some (v, pa))) =>
        let s0 := s1.setFe pa 0
        if v == 0 then (s0.retireTask c b 0 (tSuccs x.raw 4 4)).wakeUp
        else
          let body := tSuccs x.raw 0 4
          let s1 := body.foldl (fun acc i => acc.bind (fun st => st.bodyTask c x i)) (some s0)
          let s2 := body.foldl (fun acc i => acc.bind (fun st => st.decrement c x.col x.rtag i)) s1
          match s2 with
          | none => s
          | some s3 => (s3.setTcb c b { s3.tcb c b with st := .waitpred, cnt := 1 }).wakeUp)

/-! Retirement (spec/06 R127, spec/17 R338, R339). -/

namespace State

/-- Reads a list of further successors, up to its end or its fault (spec/18 R362 OVF, spec/06 R457). -/
def readOvf (c : Nat) (x : Tcb) : (fuel gva : Nat) → List Nat → State → State × List Nat × Option (BitVec 8 × Nat)
  | 0, _, acc, st => (st, acc.reverse, none)
  | n + 1, gva, acc, st =>
    match st.engRead (st.regionAt c) (st.partOf c) c x.col x.wave gva 2 with
    | .error k => (st, acc.reverse, some (k, gva))
    | .ok (v, st1) => if v == 0xFFFF then (st1, acc.reverse, none) else readOvf c x n (gva + 2) (v :: acc) st1

/-- Applies decrements in order while blocks are free: what is left, and the state. -/
def applyDecs (c : Nat) (x : Tcb) : List Nat → State → List Nat × State
  | [], st => ([], st)
  | i :: l, st =>
    match st.decrement c x.col x.rtag i with
    | none => (i :: l, st)
    | some st1 => applyDecs c x l st1

/-- The memory that the list of a block's further successors is read from, up to its end. -/
def ovfPieces (s : State) (c b : Nat) : List Piece :=
  let x := s.tcb c b
  if tOvf x.raw == 0 then []
  else
    let (_, l, f) := readOvf c x 65536 (tOvf x.raw) [] s
    s.engPieces (s.regionAt c) (s.partOf c) c x.col x.wave false (tOvf x.raw) (2 * (l.length + if f.isSome then 0 else 1)) 0

/-- What a task engine asks of homes outside its core for a block. -/
def taskTrip (s : State) (c b : Nat) : Trip :=
  let x := s.tcb c b
  engTrip [4, c, b] (s.regionAt c) (s.partOf c) c x.col x.wave x.rtag

/-- The list of further successors joins the decrements to be applied; its fault becomes the task's status. -/
def takeOvf (s : State) (c b : Nat) : State :=
  let x := s.tcb c b
  if tOvf x.raw == 0 then s
  else
    let (s1, l, f) := readOvf c x 65536 (tOvf x.raw) [] s
    let y := { x with raw := x.raw &&& ~~~(0xFFFFFFFFFFFFFFFF#512 <<< 256), decs := l }
    match f with
    | none => s1.setTcb c b y
    | some (k, a) =>
      (s1.setTcb c b { y with status := k }).itemFault c { cause := k, addr := BitVec.ofNat 64 a } k x.rtag x.wave x.col

/-- A retired block whose inline successors are counted down: those behind OVF are, then the completion record leaves and the block is free. -/
def retireRest (c b : Nat) (s : State) : State :=
  let x := s.tcb c b
  let s2 := s.takeOvf c b
  let y := s2.tcb c b
  let (l2, s3) := applyDecs c y y.decs s2
  if !l2.isEmpty then s3.setTcb c b { s3.tcb c b with decs := l2 }
  else (((s3.sendCompletion c b (s3.tcb c b) (s3.tcb c b).status).delTcb c b).progress (s.regionAt c) x.col).wakeUp

end State

/-- TASK_RETIREMENT: successors count down, inline ones first and then those behind OVF; then the completion record leaves and the block
is free (spec/06 R127, spec/17 R338, R339). A progress event (spec/21 R425). -/
def execTaskRetirement (c b : Nat) (s : State) : Host.Outcome State Fault Refusal :=
  let x := s.tcb c b
  .next (if x.st != .retired then s
    else
      let (l, s1) := State.applyDecs c x x.decs s
      if !l.isEmpty then s1.setTcb c b { s1.tcb c b with decs := l }
      else
        let s2 := s1.setTcb c b { s1.tcb c b with decs := [] }
        s2.viaFabric (s2.taskTrip c b) (s2.ovfPieces c b) (State.retireRest c b))

end Sys2Proof.Machine
end

