-- ==== Sys2Proof/Machine/Copies.lean ====
section
/-!
DEFINITION. Machine/Copies.lean: the copies of streamer channels (spec/17 R342, spec/18 R361, spec/16 R322).
-/

namespace Sys2Proof.Machine

/-! Fields of a template (spec/18 R361). -/
def tpSrc (v : BitVec 256) : Nat := bits v.toNat 0 64
def tpDst (v : BitVec 256) : Nat := bits v.toNat 64 64
def tpCplw (v : BitVec 256) : Nat := bits v.toNat 128 64
def tpCount (v : BitVec 256) : Nat := bits v.toNat 192 32
def tpEs (v : BitVec 256) : Nat := 2 ^ bits v.toNat 224 3
def tpDkind (v : BitVec 256) : Bool := bit v.toNat 227
def tpSubv (v : BitVec 256) : Bool := bit v.toNat 228
def tpSub (v : BitVec 256) : Nat := bits v.toNat 232 4
def tpRin (v : BitVec 256) : Nat := bits v.toNat 240 8
def tpRout (v : BitVec 256) : Nat := bits v.toNat 248 8

namespace State

/-- Template of a copy. -/
def tplOf (s : State) (core : Nat) (x : Copy) : BitVec 256 := lget 0 (s.core core).templates x.tpl

/-- Elements that a copy reads. -/
def copyIn (v : BitVec 256) (x : Copy) : Nat := if x.count == 0 then tpCount v else x.count

/-- Elements read before beat k, 64 bytes of them a beat (spec/17 R342, spec/18 R361: the last beat carries what is left). -/
def inBefore (v : BitVec 256) (n k : Nat) : Nat := min n (64 * k / tpEs v)

/-- Elements written before beat k: through a subgraph at its declared ratio, ROUT for every RIN (spec/17 R342, spec/18 R361). -/
def outBefore (v : BitVec 256) (n k : Nat) : Nat :=
  if tpSubv v then inBefore v n k / tpRin v * tpRout v else inBefore v n k

/-- Weights of a CB2 index through a codebook, as the BF16 elements that follow one another (spec/04 R92). -/
def cb2Bytes (cb : SMap (BitVec 32)) (x : BitVec 16) : List Byte :=
  (List.range 8).flatMap (fun k => toBytes 2 ((cb2 (lget 0 cb (x.toNat / 256)) x k).to .bf16 .rne .none).v)

/-- What a subgraph makes of n bytes read: m bytes. The decode of CB2, at the ratio that it has (8 BF16 weights of each index), goes by
one version of the region's codebook; any other is a free value (log entry 9). -/
def subgraph (s : State) (x : Copy) (v : BitVec 256) (n a m : Nat) : Nat × State :=
  if Config.cb2Subgraph (tpSub v) && 8 * n == m && n % 2 == 0 then
    (((List.range (n / 2)).flatMap (fun k => cb2Bytes (s.region x.region).codebook (BitVec.ofNat 16 (a / 2 ^ (16 * k))))).foldr
      (fun b acc => b.toNat + 256 * acc) 0, s)
  else
    (((List.range m).map (Config.subgraphByte (tpSub v) s.free)).foldr (fun b acc => b.toNat + 256 * acc) 0, { s with free := s.free + 1 })

/-- The core, island and slot of a copy into a B slot (spec/15 R313, spec/18 R361). -/
def copySlot (s : State) (x : Copy) (v : BitVec 256) : Option (Nat × Nat × Nat) :=
  ((s.region x.region).coreAt (bits (tpDst v) 0 4)).map (fun c => (c, bits (tpDst v) 4 1, bits (tpDst v) 6 3))

/-- Whether a B slot may be filled by a copy: no claim of another owner, no tile still to be consumed (spec/17 R342, spec/15 R313). -/
def slotOpen (s : State) (x : Copy) (i : Nat × Nat × Nat) : Bool :=
  (s.claimsAt (i.1, i.2.1, 8 + i.2.2)).all (fun q => q == (x.col, x.rtag)) &&
  !holdsTile (s.island i.1 i.2.1) i.2.2 && !(lget {} (s.island i.1 i.2.1).bSlots i.2.2).writing

def setSlot (s : State) (i : Nat × Nat × Nat) (b : BSlot) : State :=
  let y := s.island i.1 i.2.1
  s.setIsland i.1 i.2.1 { y with bSlots := lset y.bSlots i.2.2 b }

/-- A copy ends in error: the slot that it filled stays untagged, its token is ERR, and a COPYERR record with the cause beneath, the
template and the beat goes to the trap operator (spec/17 R342, spec/21 R414 UNDER). -/
def copyErr (s : State) (core ch : Nat) (x : Copy) (cause : BitVec 8) : State :=
  ((s.endFill x).endCopy core ch x false Cause.copyerr).itemFault core
    { cause := Cause.copyerr, under := BitVec.ofNat 64 (cause.toNat + x.tpl * 2 ^ 8 + x.beat % 2 ^ 30 * 2 ^ 18) } cause x.rtag x.wave x.col

/-- The head of a channel, if it may run: its colour is not frozen and its partition runs (spec/16 R322, spec/17 R349). -/
def copyHead (s : State) (core ch : Nat) : Option Copy :=
  match s.copies core ch with
  | [] => none
  | x :: _ => if s.isFrozen x.region x.col || !s.regionRuns x.region then none else some x

def setHead (s : State) (core ch : Nat) (x : Copy) : State := s.setCopies core ch (x :: (s.copies core ch).tail)

/-- What a channel asks of homes outside its core (spec/08 R162). -/
def copyTrip (core ch : Nat) : List Nat := [1, core, ch]

/-- Channels of a streamer whose copy has a beat to move, and waits for no answer. -/
def beatChans (s : State) (core st : Nat) : List Nat :=
  ((List.range 8).map (fun k => 8 * st + k)).filter (fun ch => !s.tripBusy (copyTrip core ch) && (match s.copyHead core ch with
    | some x => x.started && x.beat < x.beats
    | none => false))

/-- Whether it is a channel's turn on the datapath of its streamer: the first with a beat to move after the one that moved the last
(spec/16 R322). -/
def beatTurn (s : State) (core ch : Nat) : Bool :=
  leastBy (fun k => circleDist 8 (lget 7 (s.core core).turns (ch / 8)) (k % 8)) (s.beatChans core (ch / 8)) == some ch

/-- A channel has moved a beat. -/
def tookTurn (s : State) (core ch : Nat) : State :=
  s.setCore core { s.core core with turns := lset (s.core core).turns (ch / 8) (ch % 8) }

end State

/-- COPY_START: the checks, and for a B slot the wait until it may be filled (spec/17 R342). -/
def execCopyStart (c ch : Nat) (s : State) : Host.Outcome State Fault Refusal :=
  match s.copyHead c ch with
  | none => .next s
  | some x =>
    let v := s.tplOf c x
    .next (if x.started then s
      else if (s.core c).nTemplates ≤ x.tpl || x.reserved then s.copyErr c ch x Cause.cfg
      else
        let y := { x with started := true, beats := (State.copyIn v x * tpEs v + 63) / 64 }
        if !tpDkind v then s.setHead c ch y
        else match s.copySlot x v with
          | none => s.copyErr c ch x Cause.slot
          | some i =>
            if !bit (tpDst v) 5 || bits (tpDst v) 52 12 != 0 then s.copyErr c ch x Cause.slot
            else if s.slotOpen x i then
              (s.setHead c ch { y with bslot := some i }).setSlot i { writing := true, byCopy := some (c, ch, { y with bslot := some i }) }
            else s)

namespace State

/-- Reads bytes of a beat. -/
def readSpan (s : State) (core : Nat) (x : Copy) (gva n : Nat) : Except (BitVec 8) (Nat × State) :=
  s.engRead x.region (s.partOf core) core x.col x.wave gva n

/-- Writes bytes of a beat. -/
def writeSpan (s : State) (core : Nat) (x : Copy) (gva n v : Nat) : Except (BitVec 8) State :=
  s.engWrite x.region (s.partOf core) core x.col x.wave x.rtag gva n v

/-- Bytes of a beat put into a B slot. -/
def fillSlot (s : State) (i : Nat × Nat × Nat) (off n v : Nat) : State :=
  let b := lget {} (s.island i.1 i.2.1).bSlots i.2.2
  s.setSlot i { b with data := (List.range n).foldl (fun m k => lset m (off + k) (BitVec.ofNat 8 (v / 256 ^ k))) b.data }

/-- One beat of a copy: what it reads, and what of it is written (spec/17 R342). -/
def copyBeat (s : State) (core : Nat) (x : Copy) (v : BitVec 256) : Except (BitVec 8) State :=
  let n := copyIn v x
  let es := tpEs v
  let i0 := inBefore v n x.beat
  let o0 := outBefore v n x.beat
  let nin := (inBefore v n (x.beat + 1) - i0) * es
  let nout := (outBefore v n (x.beat + 1) - o0) * es
  match s.readSpan core x ((tpSrc v + (x.offset + i0) * es) % 2 ^ 64) nin with
  | .error c => .error c
  | .ok (a, s1) =>
    let (w, s2) := if tpSubv v then s1.subgraph x v nin a nout else (a, s1)
    let dst := (x.offset + o0) * es
    if nout == 0 then .ok s2
    else if tpDkind v then
      (match x.bslot with
       | none => .error Cause.slot
       | some i => if 0x10000 < dst + nout then .error Cause.slot else .ok (s2.fillSlot i dst nout w))
    else s2.writeSpan core x ((tpDst v + dst) % 2 ^ 64) nout w

/-- What a beat of a copy asks of homes outside its core (spec/08 R162). -/
def copyPieces (s : State) (core : Nat) (x : Copy) (v : BitVec 256) : List Piece :=
  let n := copyIn v x
  let es := tpEs v
  let i0 := inBefore v n x.beat
  let o0 := outBefore v n x.beat
  let nin := (inBefore v n (x.beat + 1) - i0) * es
  let nout := (outBefore v n (x.beat + 1) - o0) * es
  let src := (tpSrc v + (x.offset + i0) * es) % 2 ^ 64
  let w := match s.readSpan core x src nin with
    | .error _ => 0
    | .ok (a, s1) => if tpSubv v then (s1.subgraph x v nin a nout).1 else a
  s.engPieces x.region (s.partOf core) core x.col x.wave false src nin 0 ++
    (if tpDkind v then []
     else s.engPieces x.region (s.partOf core) core x.col x.wave true ((tpDst v + (x.offset + o0) * es) % 2 ^ 64) nout w)

/-- A channel moves a beat. -/
def moveBeat (s : State) (c ch : Nat) (x : Copy) (v : BitVec 256) : State :=
  match s.copyBeat c x v with
  | .error k =>
    let s1 := if k = Cause.uce then
        s.uceMark x.region (s.partOf c) c x.col x.wave ((tpSrc v + x.offset * tpEs v + 64 * x.beat) % 2 ^ 64) 64
      else s
    (s1.tookTurn c ch).copyErr c ch x k
  | .ok s1 => (((s1.tookTurn c ch).setHead c ch { x with beat := x.beat + 1 }).progress x.region x.col).wakeUp

end State

/-- COPY_BEAT: the beat of the channel whose turn it is; a progress event (spec/17 R342, spec/16 R322, spec/21 R425). What it reads and writes
at other homes rides the fabric (spec/08 R162). -/
def execCopyBeat (c ch : Nat) (s : State) : Host.Outcome State Fault Refusal :=
  match s.copyHead c ch with
  | none => .next s
  | some x =>
    let v := s.tplOf c x
    .next (if !s.beatTurn c ch then s
      else s.viaFabric (State.engTrip (State.copyTrip c ch) x.region (s.partOf c) c x.col x.wave x.rtag) (s.copyPieces c x v)
        (fun st => st.moveBeat c ch x v))

namespace State

/-- Whether the destination of a copy is scratchpad; one into a B slot is not. -/
def intoScratch (s : State) (core : Nat) (x : Copy) (v : BitVec 256) : Bool :=
  !tpDkind v && (match s.engXlate x.region (s.partOf core) core x.col x.wave (tpDst v + x.offset * tpEs v) true with
    | .ok (_, pa, _) => isScratch pa
    | .error _ => false)

/-- The completion word of a copy whose destination is no scratchpad becomes FULL (spec/05 R109, spec/17 R342). -/
def copyWord (s : State) (core : Nat) (x : Copy) (v : BitVec 256) : Except (BitVec 8) State :=
  if s.intoScratch core x v || tpCplw v == 0 then .ok s
  else match s.engXlate x.region (s.partOf core) core x.col x.wave (tpCplw v) true with
    | .error c => .error c
    | .ok (_, pa, s1) =>
      if !isScratch pa then .error Cause.attr
      else if s1.spillGuard pa 4 || s1.heapGuard x.region false pa 4 then .error Cause.perm
      else if s1.feOf pa == 2 then .error Cause.barclob
      else if s1.feOf pa == 3 then .error Cause.poison
      else .ok (s1.setFe pa 1)

/-- The B slot that a copy has filled takes its tag and becomes consumable (spec/17 R342, spec/18 R361). -/
def tagSlot (s : State) (x : Copy) (t : Nat) : State :=
  match x.bslot with
  | none => s
  | some i =>
    s.setSlot i { lget {} (s.island i.1 i.2.1).bSlots i.2.2 with
      tag := some (bits t 9 3, bits t 12 16, bits t 28 8, bits t 36 16), consumed := false, writing := false }

end State

/-- COPY_END: the B slot is tagged, the completion word set, the token OK (spec/17 R342). -/
def execCopyEnd (c ch : Nat) (s : State) : Host.Outcome State Fault Refusal :=
  match s.copyHead c ch with
  | none => .next s
  | some x =>
    let v := s.tplOf c x
    .next (if !x.started || x.beat < x.beats then s
      else match s.copyWord c x v with
        | .error k => s.copyErr c ch x k
        | .ok s1 => (s1.tagSlot x (tpDst v)).endCopy c ch x true 0)

end Sys2Proof.Machine
end

