-- ==== Sys2Proof/Machine/HostMarch.lean ====
section
/-!
DEFINITION. Machine/HostMarch.lean: what the ports serve (spec/22 R432, R433), host command queues (spec/16 R323 to R326), launch
records (spec/16 R327, R328, spec/02 R57, R58), host reads, writes and atomics (spec/05 R117), and March (spec/06 R119 to R124).
-/

namespace Sys2Proof.Machine

/-- A number with bits [lo + len − 1 : lo] replaced. -/
def putBits (v lo len x : Nat) : Nat := v - bits v lo len * 2 ^ lo + x % 2 ^ len * 2 ^ lo

/-! A queue's descriptor (spec/16 R323). -/

def qdPart (d : BitVec 512) : Nat := bits d.toNat 176 4
def qdVmid (d : BitVec 512) : Nat := bits d.toNat 168 8
def qdPend (d : BitVec 512) : Bool := bit d.toNat 162
def qdState (d : BitVec 512) : Nat := bits d.toNat 160 2
def qdWr (d : BitVec 512) : Nat := bits d.toNat 128 17
def qdRd (d : BitVec 512) : Nat := bits d.toNat 96 17
def qdLogsz (d : BitVec 512) : Nat := bits d.toNat 64 5
def qdBase (d : BitVec 512) : Nat := bits d.toNat 12 44 * 0x1000
def qdSize (d : BitVec 512) : Nat := 2 ^ qdLogsz d

/-- A descriptor with a field replaced. -/
def qdSet (d : BitVec 512) (lo len x : Nat) : BitVec 512 := BitVec.ofNat 512 (putBits d.toNat lo len x)

/-- A descriptor with its reserved bits zero. -/
def qdClean (d : BitVec 512) : BitVec 512 :=
  BitVec.ofNat 512 (bits d.toNat 12 44 * 2 ^ 12 + bits d.toNat 64 5 * 2 ^ 64 + bits d.toNat 96 17 * 2 ^ 96 +
    bits d.toNat 128 17 * 2 ^ 128 + bits d.toNat 160 3 * 2 ^ 160 + bits d.toNat 168 12 * 2 ^ 168)

namespace State

/-- Whether every page that n bytes from an address touch translates; an access to a read-only page for writing does not. -/
def pagesOk (s : State) (vmid asid gva n : Nat) (write : Bool) : Bool :=
  (List.range ((gva % 0x10000 + n + 0xFFFF) / 0x10000)).all (fun i =>
    match s.xlateEng 4 vmid asid (gva / 0x10000 * 0x10000 + 0x10000 * i) write with
    | .ok _ => true
    | .error _ => false)

/-- Whether a descriptor is valid (spec/16 R324). -/
def queueOk (s : State) (d : BitVec 512) : Bool :=
  let n := qdSize d
  6 ≤ qdLogsz d && qdLogsz d ≤ 16 && s.pagesOk (qdVmid d) 0 (qdBase d) (256 * n) false && qdWr d < 2 * n &&
  (qdWr d + 2 * n - qdRd d % (2 * n)) % (2 * n) ≤ n

def queue (s : State) (q : Nat) : Queue := lget {} s.queues q
def setQueue (s : State) (q : Nat) (x : Queue) : State := { s with queues := lset s.queues q x }

/-- A queue enters the error state with a cause, raised to its partition's log (spec/16 R324, R326). -/
def queueError (s : State) (q : Nat) (d : BitVec 512) (cause : BitVec 8) : State :=
  (s.setQueue q { s.queue q with desc := qdSet d 160 2 2 }).logPut (qdPart d)
    (trapBytes { cause := cause, flags := 8 } 0 0 0 0 0 0 0 0 0) 0

/-- Validation of a mapped queue's descriptor (spec/16 R324). -/
def queueCheck (s : State) (q : Nat) (d : BitVec 512) : State :=
  if s.queueOk d then s.setQueue q { s.queue q with desc := qdSet d 160 2 1 } else s.queueError q d Cause.qerr

/-- Whether a packet is dropped: by its delivery mode (spec/22 R432), its endpoint (R433), or because READY has not been posted
(R437). -/
def packetDropped (s : State) (k : Packet) : Bool :=
  k.mode != .reliable || (!s.hub.ready && !(k.ep == 0 && k.port == s.hub.bootport)) ||
  !(k.ep.toNat ≤ 0x400 || k.ep == 0x8000)

/-- Counts a dropped packet (spec/22 R435). -/
def countDrop (s : State) (port : Nat) : State :=
  { s with hub := { s.hub with portdrop := lset s.hub.portdrop port (lget 0 s.hub.portdrop port + 1) } }

/-- A packet for a command queue's endpoint is served there; another one has no effect here (spec/22 R433). -/
def onQueue (s : State) (k : Packet) (f : Nat → State → State) : State :=
  if !s.portsRun then s
  else if s.packetDropped k then s.countDrop k.port
  else if k.ep == 0 || k.ep == 0x8000 then s
  else f (k.ep.toNat - 1) s

end State

/-- DOORBELL (spec/16 R325, spec/22 R433). -/
def execDoorbell (k : Packet) (data : Word) (s : State) : Host.Outcome State Fault Refusal :=
  .next (s.onQueue k (fun q st =>
    if bits data.toNat 17 47 != 0 then st.countDrop k.port
    else
      let x := st.queue q
      let d := qdSet x.desc 128 17 data.toNat
      if !x.mapped then st.setQueue q { x with desc := qdSet d 162 1 1 }
      else if qdState x.desc == 2 then st
      else st.queueCheck q d))

/-- A descriptor as the hypervisor's write leaves it: PEND is W1C, and RD, which the device alone advances, keeps its value (spec/00 R6,
spec/16 R323). -/
def qdWritten (old new : BitVec 512) : BitVec 512 :=
  qdSet (qdSet (qdClean new) 96 17 (qdRd old)) 162 1 (if qdPend old && !qdPend new then 1 else 0)

/-- QUEUE_MAP (spec/16 R323 to R325): the hypervisor may rewrite the descriptor, and maps it, which validates it. A set PEND is treated as a
doorbell, of the WR that it left, and cleared. A queue in error leaves that state only where it is unmapped and its descriptor rewritten. -/
def execQueueMap (q : Nat) (desc : Option (BitVec 512)) (s : State) : Host.Outcome State Fault Refusal :=
  let x := s.queue q
  let old := match desc with
    | some v => qdWritten x.desc v
    | none => qdClean x.desc
  let d := qdSet old 162 1 0
  .next (if 1024 ≤ q then s
    else if qdState x.desc == 2 && x.mapped then s
    else if qdState x.desc == 2 && desc.isNone then s.setQueue q { desc := d, mapped := true }
    else (s.setQueue q { desc := d, mapped := true }).queueCheck q d)

/-- QUEUE_UNMAP (spec/16 R324, R325). -/
def execQueueUnmap (q : Nat) (s : State) : Host.Outcome State Fault Refusal :=
  let x := s.queue q
  .next (if !x.mapped then s
    else s.setQueue q { desc := if qdState x.desc == 2 then x.desc else qdSet x.desc 160 2 0, mapped := false })

/-! Launch records (spec/16 R327). -/

/-- A launch record's fields, from its 256 bytes. -/
def launchOf (v part vmid : Nat) : Launch :=
  {
    part := part, cls := bits v 8 2, col := BitVec.ofNat 5 (bits v 16 5), graph := BitVec.ofNat 16 (bits v 32 16),
    rtag := BitVec.ofNat 16 (bits v 48 16), admits := bits v 64 16, tasks := bits v 80 16, cost := bits v 96 32,
    compl := BitVec.ofNat 64 (bits v 128 64), qvmid := vmid, inptr := BitVec.ofNat 64 (bits v 192 64), instride := bits v 256 32,
    outstride := bits v 288 32, outptr := BitVec.ofNat 64 (bits v 320 64),
    levels := (List.range (min 8 (bits v 24 8))).map (fun i =>
      (bits v (384 + 64 * i) 3, bits v (392 + 64 * i) 24, bits v (387 + 64 * i) 3)) }

/-- The natural scope of a level's domain (spec/02 R57). -/
def naturalScope (d : Nat) : Nat :=
  match d with
  | 0 => 4
  | 1 => 3
  | 2 => 2
  | 3 => 1
  | 4 => 0
  | 5 => 0
  | _ => 2

/-- The rules on a list of levels (spec/02 R57, R58): no domain wider than the one before it, no scope narrower than its domain's or
reserved (R56), extent 1 for device, die, region and colour. -/
def levelsOk : (prev : Nat) → List (Nat × Nat × Nat) → Bool
  | _, [] => true
  | p, (d, e, sc) :: l =>
    p ≤ d && sc ≤ 5 && naturalScope d ≤ sc && (!(d ≤ 2 || d == 6) || e == 1) && levelsOk d l

/-- Whether a launch record keeps the rules that need no region (spec/16 R327, R328). -/
def launchWordOk (v : Nat) : Bool :=
  let n := bits v 24 8
  bits v 0 8 == 1 && bits v 10 6 == 0 && bits v 21 3 == 0 && 1 ≤ n && n ≤ 8 && bits v 64 16 != 0 && bits v 80 16 ≤ 512 &&
  bits v 896 1152 == 0 &&
  (List.range 8).all (fun i => let w := bits v (384 + 64 * i) 64
    if n ≤ i then w == 0 else bits w 6 2 == 0 && bits w 32 32 == 0) &&
  levelsOk 0 (launchOf v 0 0).levels

/-- An instance of a domain: its cores, and the handler slots in it, as tile and slot. -/
structure Inst where
  cores : List Nat
  slots : List (Nat × Nat)
deriving DecidableEq, Repr

/-- Instances of a level's domain within an instance (spec/02 R57, R58). -/
def Inst.split (x : Inst) (d : Nat) : List Inst :=
  if d == 3 then x.cores.map (fun c => { cores := [c], slots := x.slots.filter (fun q => q.1 / 32 == c) })
  else if d == 4 then ((x.slots.map (·.1)).eraseDups).map (fun t => { cores := [t / 32], slots := x.slots.filter (fun q => q.1 == t) })
  else if d == 5 then x.slots.map (fun q => { cores := [q.1 / 32], slots := [q] })
  else [x]

/-- Whether a region meets a launch's levels (spec/02 R58); ws waves stand in a span. -/
def meetsLevels (ws : Nat) : List Inst → List (Nat × Nat × Nat) → Bool
  | _, [] => true
  | xs, (d, e, _) :: l =>
    (if d == 7 then 1 ≤ e && e ≤ ws else xs.all (fun x => e ≤ (x.split d).length)) &&
      meetsLevels ws (xs.flatMap (fun x => x.split d)) l

namespace State

/-- The region as one instance. -/
def regionInst (s : State) (r : Nat) : Inst :=
  { cores := (s.region r).cores,
    slots := (s.usedTiles r).flatMap (fun t => ((s.tile t).handlers.filter (fun h => hV h.2)).map (fun h => (t, h.1))) }

/-- Whether a region is a candidate for a launch (spec/06 R120, spec/02 R58). -/
def isCandidate (s : State) (l : Launch) (r : Nat) : Bool :=
  s.partOf r == l.part && (s.region r).st == 2 && (s.region r).graph == l.graph &&
  kArmed (lget 0 (s.region r).colours l.col.toNat) && meetsLevels (s.ws r) [s.regionInst r] l.levels

def candidates (s : State) (l : Launch) : List Nat := (s.regions.map (·.1)).filter (s.isCandidate l)

/-- Whether a launch's strides and addresses serve at a region (spec/16 R328). -/
def launchFits (s : State) (l : Launch) (r : Nat) : Bool :=
  let w := (s.colour r l.col.toNat).nxw
  let e := s.colourEntry r l.col w
  let ib := s.inBytes r l.col w
  let ob := s.outBytes r l.col w
  ib ≤ l.instride && ob ≤ l.outstride &&
  (ib == 0 || s.pagesOk (kVmid e) (kAsid e) l.inptr.toNat ((l.admits - 1) * l.instride + ib) false) &&
  (ob == 0 || s.pagesOk (kVmid e) (kAsid e) l.outptr.toNat ((l.admits - 1) * l.outstride + ob) true)

/-- Whether a launch can be placed at all: a candidate region, and no refusal of spec/16 R328. -/
def launchOk (s : State) (l : Launch) : Bool :=
  let rs := s.candidates l
  !rs.isEmpty && rs.all (s.launchFits l) && s.pagesOk l.qvmid 0 l.compl.toNat 16 true

/-- March's queue of a class and partition (spec/06 R119). -/
def marchQueue (s : State) (k p : Nat) : List Launch := lget [] s.hub.queues (k * 16 + p)

def setMarchQueue (s : State) (k p : Nat) (x : List Launch) : State :=
  { s with hub := { s.hub with queues := lset s.hub.queues (k * 16 + p) x } }

/-- A whole entry of a command queue has been read: it joins March's queue, or its completion carries CFG (spec/16 R326 to R328). -/
def launchEntry (s : State) (v part vmid : Nat) : State :=
  let l := launchOf v part vmid
  if !launchWordOk v || !(s.judged part).launchOk l then s.complete l Cause.cfg 0
  else
    let s1 := s.setMarchQueue l.cls part (s.marchQueue l.cls part ++ [{ l with id := s.hub.nextLaunch }])
    { s1 with hub := { s1.hub with nextLaunch := s1.hub.nextLaunch + 1 } }

end State

/-- COMMAND_QUEUE_READ: one whole entry, in index order (spec/16 R326). -/
def execCommandQueueRead (q : Nat) (s : State) : Host.Outcome State Fault Refusal :=
  let x := s.queue q
  let d := x.desc
  .next (if !s.portsRun || !s.hub.ready || !x.mapped || qdState d != 1 || qdRd d == qdWr d then s
    else
      match s.xlateEng 4 (qdVmid d) 0 (qdBase d + qdRd d % qdSize d * 256) false with
      | .error _ => s.queueError q d Cause.qerr
      | .ok (t, pa0, s1) =>
        let pa := s1.forward pa0
        if s1.hasUce pa 256 then s1.queueError q d Cause.uce
        else
          ((s1.homeRead pa 256 { part := qdPart d, nc := t.nc }).launchEntry (s1.rmem pa 256) (qdPart d) (qdVmid d)).setQueue q
            { x with desc := qdSet d 96 17 ((qdRd d + 1) % (2 * qdSize d)) })

/-! Host reads, writes and atomics (spec/22 R433, spec/05 R117). -/

namespace State

/-- An answer to a host: endpoint, status, bytes. -/
def answerHost (s : State) (k : Packet) (status : BitVec 8) (bs : List Byte) : State :=
  { s with answers := s.answers ++ [(k.ep.toNat, status, bs)] }

/-- What stops a host's access at its home (spec/05 R117, spec/14 R285, R290, spec/15 R302, spec/16 R320): hosts never reach a scratchpad or
an aperture, only memory of their queue's partition, and a store keeps out of spill rings and frame heaps and keeps the rules of a page of
sequences. -/
def hostBad (s : State) (p pa n : Nat) (write seq : Bool) : Option (BitVec 8) :=
  match placeOf pa with
  | .scratch _ _ | .aperture _ _ _ | .hole => some Cause.perm
  | .hbm | .sram _ _ =>
    if s.ownerOf pa != p || (write && s.hwBad pa n) then some Cause.perm else if write && seq then s.seqCheck p pa n else none

/-- The physical address that a host reaches. -/
def hostXlate (s : State) (vmid p gva n : Nat) (write : Bool) : Except (BitVec 8) (TlbEntry × Nat × State) :=
  match s.xlateEng 4 vmid 0 gva write with
  | .error c => .error c
  | .ok (t, pa0, s1) =>
    match s1.hostBad p (s1.forward pa0) n write t.seq with
    | some c => .error c
    | none => .ok (t, s1.forward pa0, s1)

/-- A piece of a host's access: where it stands, its length, and whether its page is marked NC. -/
abbrev Piece := Nat × Nat × Bool

/-- Every piece translated, or the first fault. -/
def hostPieces (vmid p : Nat) (write : Bool) : List (Nat × Nat) → List Piece → State → Except (BitVec 8) (List Piece × State)
  | [], acc, st => .ok (acc.reverse, st)
  | (a, n) :: l, acc, st =>
    match st.hostXlate vmid p a n write with
    | .error c => .error c
    | .ok (t, pa, st1) => hostPieces vmid p write l ((pa, n, t.nc) :: acc) st1

/-- Bytes written piece after piece, each at its home. -/
def hostWrite (p : Nat) : List Piece → List Byte → State → State
  | [], _, st => st
  | (pa, n, nc) :: l, bs, st =>
    hostWrite p l (bs.drop n) (st.homeWrite pa n ((bs.take n).foldr (fun b acc => b.toNat + 256 * acc) 0) { part := p, nc := nc })

/-- Pieces read, each at its home. -/
def hostReads (p : Nat) (ps : List Piece) (st : State) : State :=
  ps.foldl (fun q x => q.homeRead x.1 x.2.1 { part := p, nc := x.2.2 }) st

/-- A packet for a command queue that serves: one in error serves nothing further (spec/16 R324). -/
def onServing (s : State) (k : Packet) (f : BitVec 512 → State → State) : State :=
  s.onQueue k (fun q st => if qdState (st.queue q).desc == 2 then st else f (st.queue q).desc st)

end State

/-- HOST_READ_WRITE: one whose translation faults completes with the cause, and nothing is performed (spec/22 R433). -/
def execHostReadWrite (k : Packet) (gva : Word) (acc : HostAccess) (s : State) : Host.Outcome State Fault Refusal :=
  .next (s.onServing k (fun d st =>
    match acc with
    | .read n =>
      match State.hostPieces (qdVmid d) (qdPart d) false (State.pagePieces gva.toNat n) [] st with
      | .error c => st.answerHost k c []
      | .ok (ps, st1) =>
        if ps.any (fun x => st1.hasUce x.1 x.2.1) then st1.answerHost k Cause.uce []
        else (State.hostReads (qdPart d) ps st1).answerHost k 0 (ps.flatMap (fun x => toBytes x.2.1 (st1.rmem x.1 x.2.1)))
    | .write bs =>
      match State.hostPieces (qdVmid d) (qdPart d) true (State.pagePieces gva.toNat bs.length) [] st with
      | .error c => st.answerHost k c []
      | .ok (ps, st1) => (State.hostWrite (qdPart d) ps bs st1).answerHost k 0 []))

/-- HOST_ATOMIC: performed only on a page with SYSATOM; on any other it completes with NOTSYSATOM, whatever else holds of it (spec/05
R117). -/
def execHostAtomic (k : Packet) (gva : Word) (op : AtomOp) (wide : Bool) (x y : Word) (s : State) : Host.Outcome State Fault Refusal :=
  let n := if wide then 8 else 4
  .next (s.onServing k (fun d st =>
    match st.xlateEng 4 (qdVmid d) 0 gva.toNat false with
    | .error c => st.answerHost k c []
    | .ok (t, _, _) =>
      if !t.sysatom then st.answerHost k Cause.notSysatom []
      else if gva.toNat % n != 0 then st.answerHost k Cause.align []
      else
        match st.hostXlate (qdVmid d) (qdPart d) gva.toNat n true with
        | .error c => st.answerHost k c []
        | .ok (_, pa, st1) =>
          if st1.hasUce pa n then st1.answerHost k Cause.uce []
          else
            let b : By := { part := qdPart d, nc := t.nc }
            let old := st1.rmem pa n
            let cmp := y.toNat % 2 ^ (8 * n)
            (if atomWrites op old cmp then st1.homeWrite pa n (atomResult op n old (x.toNat % 2 ^ (8 * n)) cmp) b
             else st1.homeRead pa n b).answerHost k 0 (toBytes n old)))

/-! March (spec/06 R120 to R124). -/

namespace State

/-- Whether a candidate is placeable in the latest reports (spec/06 R120). -/
def placeable (s : State) (l : Launch) (r : Nat) : Bool :=
  lget 0 s.hub.live (r * 32 + l.col.toNat) < (s.colour r l.col.toNat).q &&
  (s.region r).cores.all (fun c =>
    let x := lget ({} : Report) s.hub.reports c
    l.tasks ≤ x.free && x.temp < s.hub.placeTh && (l.cls != 0 || x.step == 16))

/-- The hottest column of a region, as last reported. -/
def hottest (s : State) (r : Nat) : Nat :=
  ((s.region r).cores.map (fun c => (lget ({} : Report) s.hub.reports c).temp)).foldl max 0

/-- The choice among the placeable candidates: the coolest, then the lowest (spec/06 R121). -/
def choice (s : State) (l : Launch) : Option Nat :=
  ((s.candidates l).filter (fun r => s.placeable l r && !(s.part l.part).avoid.contains r)).foldl (fun best r =>
    match best with
    | none => some r
    | some b => if s.hottest r < s.hottest b then some r else some b) none

/-- The head of a partition's queue, and where March would place it; the launches of a partition under pre-emption are held (spec/21
R427). -/
def headChoice (s : State) (k p : Nat) : Option (Launch × Nat) :=
  if (s.part p).phase != .run then none
  else match s.marchQueue k p with
    | [] => none
    | l :: _ => (s.choice l).map (fun r => (l, r))

/-- Places the head launch of a queue; March's copies of the counts fall (spec/06 R123). -/
def placeHead (s : State) (k p : Nat) (l : Launch) (r : Nat) : State :=
  let s1 := s.setMarchQueue k p (s.marchQueue k p).tail
  let s2 := s1.setRegion r { s1.region r with launches := (s1.region r).launches ++ [l] }
  { s2 with hub := { s2.hub with
      live := lset s2.hub.live (r * 32 + l.col.toNat) (lget 0 s2.hub.live (r * 32 + l.col.toNat) + 1),
      reports := (s2.region r).cores.foldl (fun m c =>
        let x := lget ({} : Report) m c
        lset m c { x with free := x.free - l.tasks }) s2.hub.reports } }

/-- COST of a launch: 0 counts as 1. -/
def costOf (l : Launch) : Nat := max 1 l.cost

/-- The partition in debt that is served first: the largest debt, then the lowest number (spec/06 R122). -/
def inDebt (s : State) (k : Nat) : Option (Nat × Launch × Nat) :=
  (List.range 16).foldl (fun best p =>
    match s.headChoice k p with
    | none => best
    | some (l, r) =>
      if (s.part p).debt == 0 then best
      else match best with
        | none => some (p, l, r)
        | some (b, _, _) => if (s.part b).debt < (s.part p).debt then some (p, l, r) else best) none

/-- Serves the partitions in debt. -/
def payDebts (k : Nat) : (fuel : Nat) → State → State
  | 0, st => st
  | n + 1, st =>
    match st.inDebt k with
    | none => st
    | some (p, l, r) =>
      let s1 := st.placeHead k p l r
      payDebts k n (s1.setPart p { s1.part p with debt := (s1.part p).debt - costOf l * 1024 })

def deficitOf (s : State) (k p : Nat) : Int := lget 0 (s.part p).deficit k

def setDeficit (s : State) (k p : Nat) (v : Int) : State :=
  s.setPart p { s.part p with deficit := lset (s.part p).deficit k v }

/-- Places launches of one partition while its deficit pays for them. -/
def spend (k p : Nat) : (fuel : Nat) → State → State
  | 0, st => st
  | n + 1, st =>
    match st.headChoice k p with
    | none => st
    | some (l, r) =>
      if (costOf l : Int) ≤ st.deficitOf k p then
        spend k p n ((st.placeHead k p l r).setDeficit k p (st.deficitOf k p - costOf l))
      else st

/-- One visit of the round robin. A partition with SHARE 0 is never placed by it (spec/06 R122). DEF is signed and 32 bits wide; it stops at
its largest value (log entry 18). -/
def visit (k p : Nat) (st : State) : State :=
  if (st.marchQueue k p).isEmpty then st.setDeficit k p 0
  else if (st.part p).share == 0 then st
  else spend k p (st.marchQueue k p).length (st.setDeficit k p (min (2 ^ 31 - 1) (st.deficitOf k p + (st.part p).share)))

/-- One pass over a class (spec/06 R122). -/
def marchPass (s : State) (k : Nat) : State :=
  let n := ((List.range 16).map (fun p => (s.marchQueue k p).length)).foldl (· + ·) 0
  let s1 := payDebts k n s
  let ptr := lget 0 s1.hub.ptr k
  let s2 := (List.range 16).foldl (fun st i => visit k ((ptr + i) % 16) st) s1
  { s2 with hub := { s2.hub with ptr := lset s2.hub.ptr k ((ptr + 1) % 16) } }

/-- A head launch that no region is a candidate for any more completes with CFG (spec/06 R120); a saved partition's regions still are
(spec/21 R427). -/
def refuseHead (s : State) (k p : Nat) : State :=
  match s.marchQueue k p with
  | [] => s
  | l :: ls => if ((s.judged p).candidates l).isEmpty then (s.setMarchQueue k p ls).complete l Cause.cfg 0 else s

/-- Partitions of a class that have a placeable head launch. -/
def placeableHeads (s : State) (k : Nat) : List Nat := (List.range 16).filter (fun p => (s.headChoice k p).isSome)

end State

/-- MARCH_PLACEMENT: a pass over the highest class that has a placeable launch (spec/06 R119 to R122). -/
def execMarchPlacement (s : State) : Host.Outcome State Fault Refusal :=
  if s.hub.halted then .next s
  else
    let s1 := (List.range 64).foldl (fun st i => st.refuseHead (i / 16) (i % 16)) s
    match (List.range 4).find? (fun k => !(s1.placeableHeads k).isEmpty) with
    | none => .next s1
    | some k => .next (s1.marchPass k)

namespace State

/-- Free task control blocks of a core. -/
def freeBlocks (s : State) (c : Nat) : Nat := 512 - (s.core c).tcbs.length

/-- Live admissions of the colours of a die's regions. -/
def liveCounts (s : State) (d : Nat) : SMap Nat :=
  ((s.regions.map (·.1)).filter (fun r => r / 16 == d)).flatMap (fun r => (s.region r).cols.map (fun e => (r * 32 + e.1, e.2.livea)))

/-- Whether a count has changed by a quarter of its range. -/
def byQuarter (range a b : Nat) : Bool := a != b && (4 * a + range ≤ 4 * b || 4 * b + range ≤ 4 * a)

/-- Whether a die's report is due: every 1 µs, and when a count that it carries, of a core's free blocks or of a colour's live admissions, has
changed by a quarter of its range since the last (spec/06 R123). -/
def reportDue (s : State) (d : Nat) : Bool :=
  lget 0 s.hub.reportAt d + 2700 ≤ s.now ||
  (List.range 16).any (fun i => byQuarter 512 (lget 512 s.hub.sentFree (d * 16 + i)) (s.freeBlocks (d * 16 + i))) ||
  (s.liveCounts d).any (fun e => byQuarter (s.colour (e.1 / 32) (e.1 % 32)).q (lget 0 s.hub.sentLive e.1) e.2)

end State

/-- DIE_REPORT: a die's counts of free blocks, temperatures, steps and live admissions leave for March (spec/06 R123), as a message of
class 4 from the die's gateway (spec/08 R162, log entry 78); March has them when it is delivered. -/
def execDieReport (d : Nat) (s : State) : Host.Outcome State Fault Refusal :=
  let cores := (List.range 16).map (fun i => d * 16 + i)
  let reports : SMap Report := cores.map (fun c => (c, { free := s.freeBlocks c, temp := (s.core c).temp, step := (s.core c).step }))
  let live := s.liveCounts d
  let x : Msg := {
    cls := 4, src := d * 512 + 80, dst := 4 * 512 + 16, payload := [Config.requestBeat s.nextId], what := .report d reports live }
  let s1 := s.sendMsg x
  .next (if 4 ≤ d then s
    else { s1 with hub := { s1.hub with
      reportAt := lset s1.hub.reportAt d s.now, sentFree := cores.foldl (fun m c => lset m c (s.freeBlocks c)) s1.hub.sentFree,
      sentLive := live.foldl (fun m e => lset m e.1 e.2) (s1.hub.sentLive.filter (fun e => e.1 / 512 != d)) } })

end Sys2Proof.Machine
end

