-- ==== Sys2Proof/Machine/Ring.lean ====
section
/-!
DEFINITION. Machine/Ring.lean: the weight ring (spec/07 R137 to R156): laps, tile heads at the ports, the check of an accepted tile,
holds and underruns.
-/

namespace Sys2Proof.Machine

/-! CRC-64/ECMA-182 (spec/07 R142). -/

/-- One bit of the code. -/
def crcBit (c : BitVec 64) : BitVec 64 := if c.getLsbD 63 then (c <<< 1) ^^^ 0x42F0E1EBA9EA3693#64 else c <<< 1

/-- One byte of the code. -/
def crcByte (c : BitVec 64) (b : Byte) : BitVec 64 :=
  let x := c ^^^ (b.setWidth 64 <<< 56)
  crcBit (crcBit (crcBit (crcBit (crcBit (crcBit (crcBit (crcBit x)))))))

def crc64 (bs : List Byte) : BitVec 64 := bs.foldl crcByte 0

namespace State

/-- Bytes of memory. -/
def memBytes (s : State) (pa n : Nat) : List Byte := (List.range n).map (fun i => BitVec.ofNat 8 (s.rmem (pa + i) 1))

/-- Whether a tile's CRC-64 is that of its header, its flags byte taken as zero, and its beats 1 to 33 (spec/07 R142). -/
def tileCrcOk (s : State) (pa : Nat) : Bool :=
  (crc64 (s.memBytes pa 1 ++ [0] ++ s.memBytes (pa + 2) 14 ++ s.memBytes (pa + 512) 16896)).toNat == s.rmem (pa + 16) 8

/-- Lanes advance L beat slots in a lap of T tiles (spec/07 R139). -/
def lapSlots (t : Nat) : Nat := max 1024 (34 * ((t + 15) / 16))

def setBoard (s : State) (core num : Nat) (b : Boarding) : State :=
  s.setCore core { s.core core with boards := lset (s.core core).boards num b }

/-- A boarding's fault, reported to its region's trap operator (spec/07 R151). -/
def boardFault (s : State) (core num : Nat) (b : Boarding) (cause : BitVec 8) : State :=
  let h := s.boardHandle core ((s.region b.region).rcoreOf core) num
  (s.setBoard core num { b with st := .faulted, cause := cause }).engineTrap b.region (s.partOf core)
    { cause := cause, under := h } b.rtag b.wave b.col 0 0 core

/-- A boarding that waits for tiles. -/
def boardLive (b : Boarding) : Bool := b.st = .armed || b.st = .active || b.st = .waitlap

/-! Laps (spec/07 R143, R147, R150, R152, R153). -/

/-- Whether an entry is enabled. -/
def enabledEntries (s : State) : List Nat := (List.range 8).filter (fun k => riEn (s.image k))

/-- The lap in progress is complete: the lanes have advanced its length, and every port has dealt with its tiles. -/
def lapOver (s : State) : Bool :=
  !s.ring.running || (16 * lapSlots (riTiles (s.image s.ring.cur)) ≤ s.ring.pos && s.ring.hold.isNone &&
    s.cores.all (fun c => (c.2.boards.isEmpty || riTiles (s.image s.ring.cur) ≤ c.2.seen) && c.2.arriving.isEmpty))

/-- The end of a lap for one boarding: a lap in which it was due and accepted no tile is missed, unless its colour was frozen in it
(spec/07 R150, spec/17 R345). -/
def endLapBoard (s : State) (core num : Nat) : State :=
  match lget? (s.core core).boards num with
  | none => s
  | some b =>
    if !boardLive b || bwImage b.word != s.ring.cur then s
    else
      let b1 := { b with accepted := false, due := false, frozenLap := false }
      if b.due && !b.accepted && !b.frozenLap then
        let n := b.mlaps + 1
        if bwMissn b.word ≤ n then s.boardFault core num { b1 with mlaps := n } Cause.missed
        else s.setBoard core num { b1 with mlaps := n }
      else s.setBoard core num b1

/-- Whether a boarding boards from the start of a lap (spec/07 R147, R149, R151). -/
def startsLap (s : State) (e : Nat) (superStart : Bool) (b : Boarding) : Bool :=
  let high := s.ring.lead ≤ bwLayer b.word
  b.boards || (bwImage b.word == e && boardLive b && (high || (b.st = .waitlap && !b.again))) || (superStart && boardLive b && !high)

/-- Every boarding of every core. -/
def allBoards (s : State) : List (Nat × Nat) := s.cores.flatMap (fun c => c.2.boards.map (fun b => (c.1, b.1)))

/-- A lap of an entry begins. -/
def beginLap (s : State) (e : Nat) (superStart : Bool) : State :=
  let r := s.ring
  { s with
    ring := { r.clampPace with
      cur := e, running := true, pos := 0, asked := [], heldAt := none, lapUnder := false,
      lapn := lset r.lapn e (lget 0 r.lapn e + 1), holdLeft := lset r.holdLeft e (lget 256 r.holdb e) },
    cores := s.cores.map (fun c => (c.1, { c.2 with seen := 0, row := none, boards := c.2.boards.map (fun b =>
      (b.1, { b.2 with boards := s.startsLap e superStart b.2,
                       frozenLap := bwImage b.2.word == e && s.isFrozen b.2.region b.2.col })) })) }

end State

/-- LAP_BOUNDARY (spec/07 R143, R150, R152, R153): changes to the table take effect, and a lap of the next enabled entry begins. -/
def execLapBoundary (s : State) : Host.Outcome State Fault Refusal :=
  .next (if !s.lapOver || (!s.ring.running && s.enabledEntries.isEmpty && s.ring.pending.isEmpty) then s
    else
      let s1 := if s.ring.running then s.allBoards.foldl (fun st k => st.endLapBoard k.1 k.2) s else s
      let r := s1.ring
      let r1 := if s.ring.running && !r.lapUnder then { r with paceEff := min r.pace (r.paceEff + 1) } else r
      let s2 : State := { s1 with ring := { r1 with images := r1.pending.foldl (fun m e => lset m e.1 e.2) r1.images, pending := [] } }
      let es := s2.enabledEntries
      match es.find? (fun k => s.ring.running && s.ring.cur < k), es.head? with
      | some k, _ => s2.beginLap k false
      | none, some k => s2.beginLap k true
      | none, none => { s2 with ring := { s2.ring with running := false, pos := 0, hold := none, want := [], holders := [] } })

/-! Heads at the ports (spec/07 R148, R149, R151, R155). -/

namespace State

/-- A port in the clk that begins: the B slots of its core that hold no tile to be consumed and are not being written, with their claims, and
the ring tiles that are being written (spec/07 R148). -/
def rowAt (s : State) (core : Nat) : RowAt :=
  {
    slots := (List.range 16).filterMap (fun n =>
      let x := s.island core (n / 8)
      if holdsTile x (n % 8) || (lget {} x.bSlots (n % 8)).writing then none else some (n / 8, n % 8, s.bClaims core (n / 8) (n % 8))),
    writing := (List.range 2).flatMap (fun i =>
      ((s.island core i).bSlots.filter (fun b => b.2.writing && b.2.byCopy.isNone)).map (fun _ => i)) }

/-- The lowest slot of BMASK that is free for a boarding, with fewer than two tiles being written into its island (spec/07 R148). -/
def freeBSlot (w : RowAt) (b : Boarding) : Option Nat :=
  let isl := bwIsl b.word
  if 2 ≤ (w.writing.filter (· == isl)).length then none
  else (List.range 8).find? (fun k => bit (bwMask b.word) k && w.slots.any (fun x =>
    x.1 == isl && x.2.1 == k && x.2.2.contains (b.col, b.rtag) && x.2.2.all (· == (b.col, b.rtag))))

/-- A slot filled in the clk of a row. -/
def fillRow (w : RowAt) (isl k : Nat) : RowAt :=
  { slots := w.slots.filter (fun x => !(x.1 == isl && x.2.1 == k)), writing := isl :: w.writing }

/-- A boarding accepts a tile into a slot: its expected position advances at the tile's head; with the tile flagged LASTK of its last slice it
is DONE (spec/07 R148, R151). A hold that it asked for and that is in force is served: it has had a free slot (R152). -/
def acceptTile (s : State) (core num n hdr k : Nat) (b : Boarding) : State :=
  let isl := bwIsl b.word
  let x := s.island core isl
  let last := thLastk hdr && bwSlice b.word + (if bwPair b.word then 1 else 0) ≤ b.slice
  let s0 := s.setIsland core isl { x with bSlots := lset x.bSlots k { writing := true } }
  let s1 : State := if s.ring.hold.isSome then
      { s0 with ring := { s0.ring with holders := s0.ring.holders.filter (· != core * 16 + num) } } else s0
  let c := s1.core core
  let s2 := s1.setCore core { c with
    row := c.row.map (fun w => fillRow w isl k),
    arriving := c.arriving ++ [{ isl := isl, slot := k, tile := n, board := num, gen := lget 0 c.boardGen num, slice := b.slice,
                                 kblk := b.kblk, last := last }],
    boards := lset c.boards num { b with
      st := if last then .done else .active, accepted := true, due := true, mlaps := 0, again := false,
      slice := if thLastk hdr && !last then b.slice + 1 else b.slice,
      kblk := if last then b.kblk else if thLastk hdr then 0 else b.kblk + 1 } }
  s2.progress b.region b.col

/-- A miss (spec/07 R149). -/
def missTile (s : State) (core num : Nat) (b : Boarding) : State :=
  s.setBoard core num { b with st := .waitlap, boards := false, due := true, again := false, missw := min 65535 (b.missw + 1) }

/-- A due head, of tile n, finds no slot: the state after it, and whether the head waits at the port. It waits while a hold is in force or is
granted at this boundary. With AUTOHOLD its boarding asks for a hold of 34 clk, once for each head that would miss, and takes part in one in
force (spec/07 R152, log entry 47). -/
def wouldMiss (s : State) (id n : Nat) (b : Boarding) : State × Bool :=
  let r := s.ring
  let row := n / 16
  let asks := bwAuto b.word && !r.asked.contains (id, n) && r.left != 0
  let r1 := { r with asked := (id, n) :: r.asked }
  match r.hold with
  | some k =>
    (if asks then { s with ring := { r1 with hold := some (max k 34), holders := id :: r.holders.filter (· != id) } } else s, true)
  | none =>
    if asks then ({ s with ring := { r1 with want := r.want ++ [(id, 34)] } }, true)
    else (s, !r.want.isEmpty && r.left != 0 && (r.want.any (·.1 == id) || (r.pos == 544 * row && r.edge (r.heldAt == some r.pos) == r.pos)))

/-- A tile's head comes to one boarding: the state after it, and whether the head waits. -/
def headAt (s : State) (core n num : Nat) : State × Bool :=
  match lget? (s.core core).boards num with
  | none => (s, false)
  | some b =>
    let e := s.image s.ring.cur
    let h := s.tileHdr e n
    if !boardLive b || !b.boards || bwImage b.word != s.ring.cur || thImage h != s.ring.cur || thLayer h != bwLayer b.word then
      (s, false)
    else if thSlice h < b.slice || (thSlice h == b.slice && thKblk h < b.kblk) then (s, false)
    else if thSlice h != b.slice || thKblk h != b.kblk then (s.missTile core num b, false)
    else if thCorrupt h || s.hasUce (tilePa e n) 17408 then (s.boardFault core num { b with st := .active, due := true } Cause.corruptTile, false)
    else match freeBSlot (((s.core core).row).getD {}) b with
      | some k => (s.acceptTile core num n h k b, false)
      | none =>
        let (s1, waits) := s.wouldMiss (core * 16 + num) n b
        if waits then (s1.setBoard core num { b with st := .active, due := true }, true) else (s1.missTile core num b, false)

end State

/-- TILE_HEAD_ARRIVAL: the head of tile n of the lap reaches core c's port (spec/07 R139, R148, R149). The heads of a row reach it in one clk,
on different lanes, and are taken in ring order; a head that waits is tested again in a later clk. -/
def execTileHeadArrival (c n : Nat) (s : State) : Host.Outcome State Fault Refusal :=
  if !s.ring.running || n != (s.core c).seen || riTiles (s.image s.ring.cur) ≤ n || s.ring.pos < 544 * (n / 16) then .next s
  else
    let s0 := if n % 16 == 0 || (s.core c).row.isNone then s.setCore c { s.core c with row := some (s.rowAt c) } else s
    let res := (s0.core c).boards.foldl (fun acc b =>
      let x := acc.1.headAt c n b.1
      (x.1, acc.2 || x.2)) (s0, false)
    .next (if res.2 then res.1.setCore c { res.1.core c with row := none } else res.1.setCore c { res.1.core c with seen := n + 1 })

namespace State

/-- What the check of a tile leaves of one arrival of it (spec/07 R148, R155): its slot is tagged, or freed untagged; a boarding that accepted a
damaged tile resumes at it in its next lap. -/
def endArrival (s : State) (c : Nat) (ok : Bool) (h : Nat) (data : SMap Byte) (a : Arrival) : State :=
  let put := fun (b : BSlot) =>
    s.setIsland c a.isl { s.island c a.isl with bSlots := lset (s.island c a.isl).bSlots a.slot b }
  if a.void then put {}
  else if ok then put { tag := some (thImage h, thLayer h, thSlice h, thKblk h), consumed := false, data := data }
  else
    let s1 := put {}
    match lget? (s1.core c).boards a.board with
    | none => s1
    | some b =>
      if lget 0 (s1.core c).boardGen a.board == a.gen && b.st != .faulted then
        s1.setBoard c a.board { b with st := .waitlap, boards := false, slice := a.slice, kblk := a.kblk }
      else s1

end State

/-- TILE_CRC_CHECK: the last beat of an accepted tile has arrived at a port, which checks it once for every boarding that accepted it; a
damaged one counts in CORRT, and what the same boardings accepted after it will be freed untagged (spec/07 R148, R155). -/
def execTileCrcCheck (c k : Nat) (damaged : Bool) (s : State) : Host.Outcome State Fault Refusal :=
  match (s.core c).arriving[k]? with
  | none => .next s
  | some a =>
    let e := s.image s.ring.cur
    let pa := State.tilePa e a.tile
    let y := s.core c
    .next (if y.arriving.any (fun x => x.tile < a.tile) || s.ring.pos < 544 * (a.tile / 16 + 1) then s
      else
        let ok := !damaged && s.tileCrcOk pa
        let here := y.arriving.filter (fun x => x.tile == a.tile)
        let later := y.arriving.filter (fun x => x.tile != a.tile)
        let bad := fun (x : Arrival) => !ok && here.any (fun z => z.board == x.board && z.gen == x.gen)
        let data : SMap Byte := (List.range 16896).filterMap (fun i =>
          let b := BitVec.ofNat 8 (s.rmem (pa + 512 + i) 1)
          if b == 0 then none else some (i, b))
        let s1 := s.setCore c { y with arriving := later.map (fun x => if bad x then { x with void := true } else x) }
        let s2 : State := if ok then s1
          else { s1 with ring := { s1.ring with corrt := lset s1.ring.corrt c (lget 0 s1.ring.corrt c + 1) } }
        here.foldl (fun st x => st.endArrival c ok (s.tileHdr e a.tile) data x) s2)

/-! Holds and underruns (spec/07 R152, R153). -/

/-- RING_HOLD: at a tile boundary the lanes stop for the longest hold asked for; with HOLDLEFT zero nothing is granted. -/
def execRingHold (s : State) : Host.Outcome State Fault Refusal :=
  let r := s.ring
  .next (if r.hold.isSome || r.want.isEmpty then s
    else if !r.running || r.left == 0 then { s with ring := { r with want := [] } }
    else if r.edge (r.heldAt == some r.pos) != r.pos then s
    else { s with ring := { r with hold := some ((r.want.map (·.2)).foldl max 0), holders := r.want.map (·.1), want := [] } })

/-- HOLD_EXPIRY: the count has run out, HOLDLEFT is zero, or every boarding that asked has a free slot or is gone. Holds asked for meanwhile
come at a later tile boundary. -/
def execHoldExpiry (s : State) : Host.Outcome State Fault Refusal :=
  let r := s.ring
  let served := fun (w : Nat) => match lget? (s.core (w / 16)).boards (w % 16) with
    | none => true
    | some b => !State.boardLive b || (State.freeBSlot (s.rowAt (w / 16)) b).isSome
  .next (match r.hold with
    | none => s
    | some n =>
      if n == 0 || r.left == 0 || r.holders.all served then
        { s with ring := { r with hold := none, holders := [], heldAt := some r.pos } }
      else s)

/-- UNDERRUN: a station has not staged its next tile; at the tile boundary every lane stops until it has, and the stop counts there (spec/07
R138, R153). -/
def execUnderrun (station : Nat) (s : State) : Host.Outcome State Fault Refusal :=
  let r := s.ring
  .next (if !r.running || 16 ≤ station || r.stalled.contains station || r.late.contains station then s
    else if r.pos % 544 == 0 then { s with ring := r.stop station }
    else { s with ring := { r with late := station :: r.late } })

end Sys2Proof.Machine
end

