-- ==== Sys2Proof/Machine/Registers.lean ====
section
/-!
DEFINITION. Machine/Registers.lean: the registers that firmware and the hypervisor write and read (spec/01 R20, R21): the ring's
(spec/07 R154), the fabric's (spec/08 R166, R177), thresholds (spec/06 R135, spec/19 R389, spec/21 R425, spec/22 R439) and settings.
A read answers in State.fwRead.
-/

namespace Sys2Proof.Machine

/-- RING_IMAGE_ENTRY_WRITE: it takes effect at the next lap boundary (spec/18 R364, spec/07 R143). -/
def execRingImageEntryWrite (e : Nat) (v : BitVec 512) (s : State) : Host.Outcome State Fault Refusal :=
  .next (if 8 ≤ e then s else { s with ring := { s.ring with pending := lset s.ring.pending e v } })

/-- RING_PACE_WRITE: 0, above 16 or below MINPACE is ignored (spec/07 R154). -/
def execRingPaceWrite (v : BitVec 5) (s : State) : Host.Outcome State Fault Refusal :=
  let n := v.toNat
  .next (if n == 0 || 16 < n || n < s.ring.minPace then s else { s with ring := { s.ring with pace := n } })

/-- RING_PACE_MIN_WRITE: 0, above 16 or above PACE is ignored (spec/07 R154). -/
def execRingPaceMinWrite (v : BitVec 5) (s : State) : Host.Outcome State Fault Refusal :=
  let n := v.toNat
  .next (if n == 0 || 16 < n || s.ring.pace < n then s else { s with ring := { s.ring with minPace := n } })

/-- RING_LEAD_WRITE: 0 is ignored (spec/07 R154). -/
def execRingLeadWrite (v : BitVec 3) (s : State) : Host.Outcome State Fault Refusal :=
  .next (if v == 0 then s else { s with ring := { s.ring with lead := v.toNat } })

/-- A CODERATE register after a write: a field whose new value is not allowed keeps its old one (spec/08 R166). -/
def coderateAfter (old v : BitVec 32) : BitVec 32 :=
  let decto := if v.extractLsb' 16 16 == 0 then old.extractLsb' 16 16 else v.extractLsb' 16 16
  let kmax := if v.extractLsb' 8 8 == 0 || 56 < (v.extractLsb' 8 8).toNat then old.extractLsb' 8 8 else v.extractLsb' 8 8
  let m := if v.extractLsb' 0 4 == 0 || 8 < (v.extractLsb' 0 4).toNat then old.extractLsb' 0 4 else v.extractLsb' 0 4
  decto ++ kmax ++ (0 : BitVec 4) ++ m

/-- CODERATE_WRITE (spec/08 R166). -/
def execCoderateWrite (d n : Nat) (v : BitVec 32) (s : State) : Host.Outcome State Fault Refusal :=
  .next (if 8 ≤ n then s
    else s.setFab d { s.fab d with coderate := lset (s.fab d).coderate n (coderateAfter (s.coderate d n) v) })

/-- THROT_TH_WRITE: clamped to 105, and PLACE_TH to at most THROT_TH (spec/06 R135). -/
def execThrotThWrite (v : BitVec 8) (s : State) : Host.Outcome State Fault Refusal :=
  let n := min v.toNat 105
  .next { s with hub := { s.hub with throtTh := n, placeTh := min s.hub.placeTh n } }

/-- PLACE_TH_WRITE: clamped to at most THROT_TH (spec/06 R135). -/
def execPlaceThWrite (v : BitVec 8) (s : State) : Host.Outcome State Fault Refusal :=
  .next { s with hub := { s.hub with placeTh := min v.toNat s.hub.throtTh } }

/-- TIMING_TH_WRITE: 0 is ignored (spec/19 R389). -/
def execTimingThWrite (v : BitVec 16) (s : State) : Host.Outcome State Fault Refusal :=
  .next (if v == 0 then s else { s with hub := { s.hub with timingTh := v.toNat } })

/-- WDOG_TH_WRITE: 0 disables the watchdog (spec/21 R425). -/
def execWdogThWrite (v : BitVec 32) (s : State) : Host.Outcome State Fault Refusal :=
  .next { s with hub := { s.hub with wdogTh := v.toNat } }

/-- TILE_GATING_WRITE: TILE_CG or TILE_PG; a write of 0 disables that kind of gating and wakes the tiles in it (spec/22 R439). -/
def execTileGatingWrite (power : Bool) (v : BitVec 32) (s : State) : Host.Outcome State Fault Refusal :=
  let hub := if power then { s.hub with tilePg := v.toNat } else { s.hub with tileCg := v.toNat }
  let wakes := fun (g : Gate) => v == 0 && (g = .power || (!power && g = .clock))
  .next { s with
    hub := hub,
    tiles := s.tiles.map (fun t => if wakes t.2.gate then (t.1, { t.2 with gate := wakeGate t.2.gate }) else t) }

namespace State

/-- Free segments of a sequence pool: those whose pool map counts no reference, in ascending order (spec/18 R366). -/
def freeSegs (s : State) (base segs mapPa : Nat) : List Nat :=
  ((List.range segs).filter (fun i => s.rmem (mapPa + 16 * i) 4 == 0)).map (fun i => base + 0x10000 * i)

/-- A ring of the hub set in memory: 2^12 to 2^24 items (spec/21 R422, R423). -/
def ringArea (x : Ring16) (base size : Nat) : Ring16 :=
  if 0x1000 ≤ size && size ≤ 0x1000000 then { x with base := base, size := size } else x

end State

/-- FIRMWARE_REGISTER_WRITE (spec/01 R20). -/
def execFirmwareRegisterWrite (reg : FwReg) (v : Word) (s : State) : Host.Outcome State Fault Refusal :=
  let n := v.toNat
  .next (match reg with
    | .share p => s.setPart p { s.part p with share := n % 256 }
    | .avoid p core =>
      let l := (s.part p).avoid.filter (· != core)
      s.setPart p { s.part p with avoid := if n == 0 then l else core :: l }
    | .holdb e => if 8 ≤ e then s else { s with ring := { s.ring with holdb := lset s.ring.holdb e (BitVec.ofNat 16 n) } }
    | .fabricMode d => s.setFab d { s.fab d with lean := bit n 0 }
    | .spray d src dst => s.setFab d { s.fab d with spray := lset (s.fab d).spray (src * 4096 + dst) v }
    | .replTh => { s with hub := { s.hub with replTh := n } }
    | .rptArea p items => s.setPart p { s.part p with rpt := State.ringArea (s.part p).rpt n items }
    | .rptTail p => s.setPart p { s.part p with rpt := { (s.part p).rpt with tail := BitVec.ofNat 32 n } }
    | .logArea p entries => s.setPart p { s.part p with log := State.ringArea (s.part p).log n entries }
    | .logTail p => s.setPart p { s.part p with log := { (s.part p).log with tail := BitVec.ofNat 32 n } }
    | .seqTable p count => s.setPart p { s.part p with seqBase := n, seqCount := count }
    | .seqPool p segs mapPa => s.setPart p { s.part p with
        poolBase := n, poolSegs := segs, poolMap := mapPa, poolFree := s.freeSegs n segs mapPa }
    | .saveArea p => s.setPart p { s.part p with savePa := n }
    | .snapTarget p => s.setPart p { s.part p with snapTarget := n }
    | .dumpBuf p size => s.setPart p { s.part p with dumpBase := n, dumpSize := size })

/-! Reads that clear (spec/19 R379). -/

/-- CORRT (spec/07 R154). -/
def execCorrt (port : Nat) (s : State) : Host.Outcome State Fault Refusal :=
  .next { s with fwRead := (lget 0 s.ring.corrt port).setWidth 64, ring := { s.ring with corrt := ldel s.ring.corrt port } }

/-- UNDERRUN (spec/07 R154). -/
def execUnderrunRead (station : Nat) (s : State) : Host.Outcome State Fault Refusal :=
  .next { s with fwRead := (lget 0 s.ring.under station).setWidth 64, ring := { s.ring with under := ldel s.ring.under station } }

/-- LATEDROP (spec/08 R177). -/
def execLatedrop (d : Nat) (s : State) : Host.Outcome State Fault Refusal :=
  .next { s.setFab d { s.fab d with latedrop := 0 } with fwRead := (s.fab d).latedrop.setWidth 64 }

/-- FRAGERR (spec/08 R177). -/
def execFragerr (d : Nat) (s : State) : Host.Outcome State Fault Refusal :=
  .next { s.setFab d { s.fab d with fragerr := 0 } with fwRead := (s.fab d).fragerr.setWidth 64 }

/-- DECFULL (spec/08 R177). -/
def execDecfull (d : Nat) (s : State) : Host.Outcome State Fault Refusal :=
  .next { s.setFab d { s.fab d with decfull := 0 } with fwRead := (s.fab d).decfull.setWidth 64 }

/-- NACKS (spec/08 R177). -/
def execNacks (d : Nat) (s : State) : Host.Outcome State Fault Refusal :=
  .next { s.setFab d { s.fab d with nacks := 0 } with fwRead := (s.fab d).nacks.setWidth 64 }

/-- RETXN (spec/08 R177). -/
def execRetxn (d : Nat) (s : State) : Host.Outcome State Fault Refusal :=
  .next { s.setFab d { s.fab d with retxn := 0 } with fwRead := (s.fab d).retxn.setWidth 64 }

/-- MSGLOSS, the counter (spec/08 R177). -/
def execMsglossRead (d : Nat) (s : State) : Host.Outcome State Fault Refusal :=
  .next { s.setFab d { s.fab d with msgloss := 0 } with fwRead := (s.fab d).msgloss.setWidth 64 }

/-- PORTDROP (spec/22 R435). -/
def execPortdropRead (port : Nat) (s : State) : Host.Outcome State Fault Refusal :=
  .next { s with fwRead := (lget 0 s.hub.portdrop port).setWidth 64, hub := { s.hub with portdrop := ldel s.hub.portdrop port } }

/-- PORT_LINK_CHANGE: bit n of PORTUP (spec/22 R435). -/
def execPortLinkChange (port : Nat) (up : Bool) (s : State) : Host.Outcome State Fault Refusal :=
  let b : BitVec 12 := 1#12 <<< port
  .next (if 12 ≤ port then s
    else { s with hub := { s.hub with portup := if up then s.hub.portup ||| b else s.hub.portup &&& ~~~b } })

/-- VMID_TABLE_WRITE (spec/18 R367). -/
def execVmidTableWrite (v : Nat) (entry : BitVec 128) (s : State) : Host.Outcome State Fault Refusal :=
  .next (if 256 ≤ v then s else { s with vmids := lset s.vmids v entry })

end Sys2Proof.Machine
end

