-- ==== Sys2Proof/Machine/Power.lean ====
section
/-!
DEFINITION. Machine/Power.lean: heat (spec/06 R134, R136, spec/22 R440), timing replays (spec/19 R389), the watchdog (spec/21 R425,
R426, spec/27 R451), pre-emption, tenant reset and die drop (spec/21 R427 to R431), snapshots (spec/17 R350) and bring-up (spec/22
R436 to R438).
-/

namespace Sys2Proof.Machine

namespace State

/-- An asynchronous fault of the device goes to a partition's log (spec/21 R413). -/
def asyncFault (s : State) (p : Nat) (cause : BitVec 8) (core : Nat) : State :=
  s.logPut p (trapBytes { cause := cause, flags := 8 } 0 0 0 0 0 0 (core / 16) 0 0) (core / 16)

/-- Whether a partition has work on a core: a region of it that is loaded there. -/
def worksOn (s : State) (core : Nat) : Option Nat :=
  match (s.core core).region with
  | none => none
  | some r => if s.partOf r < 16 then some (s.partOf r) else none

end State

/-! Heat (spec/06 R134, R136, spec/22 R440). -/

/-- The next throttle step of a core at a sample (spec/06 R134). -/
def stepAfter (th temp n : Nat) : Nat :=
  if th ≤ temp then max 4 (n - 1) else if temp + 3 < th then min 16 (n + 1) else n

/-- THROTTLE_SAMPLE of column c, or of the hub die for c = 64: the higher of the two sensors counts. A core that halted at 110 °C stays
halted until a cooler sample (spec/21 R413). -/
def execThrottleSample (c compute sram : Nat) (s : State) : Host.Outcome State Fault Refusal :=
  let temp := max compute sram
  .next (if 64 ≤ c then
      if 110 ≤ temp && !s.hub.halted then
        (List.range 16).foldl (fun st p => st.asyncFault p Cause.therm 64) { s with hub := { s.hub with halted := true } }
      else if temp < 110 then { s with hub := { s.hub with halted := false } }
      else s
    else
      let x := s.core c
      let free := x.stepAt == 0 || x.stepAt + 21600 ≤ s.now
      let n := if free then stepAfter s.hub.throtTh temp x.step else x.step
      let hot := decide (110 ≤ temp)
      let s1 := s.setCore c { x with temp := temp, step := n, stepAt := if n == x.step then x.stepAt else s.now, halted := hot }
      match s.worksOn c with
      | some p => if hot && !x.halted then s1.asyncFault p Cause.therm c else s1
      | none => s1)

/-- A step at which a core has spent 16 nominal clk that are still to be charged. -/
def Core.owes (x : Core) : Option Nat := (x.throttled.find? (fun e => 16 ≤ e.2)).map (·.1)

/-- DEBT_ACCRUAL: 16 − n for each 16 nominal clk that a core has spent at step n below 16 (spec/06 R136). -/
def execDebtAccrual (c : Nat) (s : State) : Host.Outcome State Fault Refusal :=
  let x := s.core c
  let p := s.partOf c
  .next (match x.owes with
    | none => s
    | some n =>
      let s1 := s.setCore c { x with throttled := lset x.throttled n (lget 0 x.throttled n - 16) }
      if 16 ≤ p then s1
      else s1.setPart p { s1.part p with debt := min (2 ^ 40 - 1) ((s1.part p).debt + (16 - n)) })

/-! Timing replays (spec/19 R389). -/

/-- TIMING_REPLAY of a tile. -/
def execTimingReplay (t : Nat) (s : State) : Host.Outcome State Fault Refusal :=
  let x := s.tile t
  let n := min 65535 (x.repwin + 1)
  let s1 := s.setTile t { x with replayn := x.replayn + 1, repwin := if s.hub.timingTh ≤ n then 0 else n }
  .next (if s.hub.timingTh ≤ n then
      match s.worksOn (t / 32) with
      | some p => s1.asyncFault p Cause.timing (t / 32)
      | none => s1
    else s1)

/-- REPLAY_WINDOW_END: every 2^20 nominal clk of the die's CYC. -/
def execReplayWindowEnd (d : Nat) (s : State) : Host.Outcome State Fault Refusal :=
  let w := (s.cycOf d).toNat / 2 ^ 20
  .next (if w == lget 0 s.hub.windows d then s
    else { s with hub := { s.hub with windows := lset s.hub.windows d w },
                  tiles := s.tiles.map (fun t => if t.1 / 512 == d then (t.1, { t.2 with repwin := 0 }) else t) })

/-! The watchdog (spec/21 R425, R426, spec/27 R451). -/

/-- A waiting item: core, kind, item number, EXTRA and ADDR. -/
structure WaitItem where
  rcore : Nat
  kind : Nat
  item : Nat
  extra : Nat := 0
  addr : Nat := 0
deriving DecidableEq, Repr

/-- Order of the entries: core, kind, item number (spec/21 R426). -/
def WaitItem.le (x y : WaitItem) : Bool :=
  x.rcore < y.rcore || (x.rcore == y.rcore && (x.kind < y.kind || (x.kind == y.kind && x.item ≤ y.item)))

/-- An item put into a list in order. -/
def insertItem (x : WaitItem) : List WaitItem → List WaitItem
  | [] => [x]
  | y :: l => if x.le y then x :: y :: l else y :: insertItem x l

/-- The 16 bytes of an entry. -/
def WaitItem.bytes (x : WaitItem) : Nat :=
  x.kind + x.rcore % 256 * 2 ^ 8 + x.item % 2 ^ 16 * 2 ^ 16 + x.extra % 2 ^ 16 * 2 ^ 32 + x.addr % 2 ^ 64 * 2 ^ 64

namespace State

/-- The guest address of the first word, of some from an address upward, that is not FULL; zero where all are. -/
def firstNotFull (s : State) (gva : Nat) (pas : List Nat) : Nat :=
  match firstIdx (fun p => s.feOf p != 1) pas with
  | some i => gva / 4 * 4 + 4 * i
  | none => 0

/-- The lowest word of a task's declared input range that is not FULL (spec/27 R451). -/
def inputMissing (s : State) (core : Nat) (x : Tcb) : Option Nat :=
  ((List.range (tInlen x.raw)).find? (fun i =>
      match s.taskWord core x (tInput x.raw + 4 * i) with
      | .ok (pa, _) => s.feOf pa != 1
      | .error _ => false)).map (fun i => tInput x.raw + 4 * i)

/-- The condition word of a COND or WHILE task (spec/18 R362). -/
def condAddr (x : Tcb) : Nat := bits (tOper x.raw) 0 56

/-- Waiting tasks of a core. -/
def waitTasks (s : State) (r core : Nat) (c : BitVec 5) : List WaitItem :=
  let rc := (s.region r).rcoreOf core
  (s.core core).tcbs.filterMap (fun b =>
    let x := b.2
    let idx := x.idx.getD 0xFFFF
    if x.col != c then none
    else if x.st = .waitpred then some { rcore := rc, kind := 1, item := b.1, extra := idx }
    else if x.st = .waitin then
      (match s.inputMissing core x with
       | some a => some { rcore := rc, kind := 2, item := b.1, extra := idx, addr := a }
       | none =>
         if 5 ≤ tType x.raw then some { rcore := rc, kind := 3, item := b.1, extra := idx, addr := condAddr x }
         else some { rcore := rc, kind := 2, item := b.1, extra := idx })
    else if x.st = .ready && 5 ≤ tType x.raw then some { rcore := rc, kind := 3, item := b.1, extra := idx, addr := condAddr x }
    else none)

/-- Park cause of a parked frame: bits [47:40] of its continuation word. -/
def pcauseOf (s : State) (k : Nat) : Nat := bits (s.frameRead (s.regionAt (k / 4096)) k 0x698 8) 40 8

/-- Parked continuations, and the waiters among them, of a core. -/
def waitFrames (s : State) (r core : Nat) (c : BitVec 5) : List WaitItem :=
  let rc := (s.region r).rcoreOf core
  ((s.framesOf r).filter (fun k => k / 4096 == core)).flatMap (fun k =>
    let f := s.frame k
    if !f.alloc || f.col != c || f.cont != .parked then []
    else
      let one := fun a => ({ rcore := rc, kind := 4, item := k % 128, extra := s.pcauseOf k, addr := a } : WaitItem)
      match f.wait with
      | .words g pas => [one (s.firstNotFull g pas), { rcore := rc, kind := 5, item := k % 128, addr := s.firstNotFull g pas }]
      | .wordsRetry g pas _ => [one (s.firstNotFull g pas)]
      | .seqLen d _ => [one (s.rmem (d + 0x18) 8)]
      | .seqRetry d _ _ => [one (s.rmem (d + 0x18) 8)]
      | .reserve d _ => [one (s.rmem (d + 0x18) 8)]
      | _ => [one 0])

/-- Waiting STEFs and chain accesses of a core, those of synchronising loads and atomics whose predecessor has not been performed among them
(spec/05 R106). The item of a chain access is its SEQ (DEDUCED, log entry 81). -/
def waitAccesses (s : State) (r core : Nat) (c : BitVec 5) : List WaitItem :=
  let rc := (s.region r).rcoreOf core
  s.accesses.filterMap (fun a =>
    let va := (a.elems.head?.map (·.gva)).getD 0
    if a.region != r || a.col != c || a.tile / 32 != core then none
    else if a.waiting then some { rcore := rc, kind := 5, item := a.frame, addr := va }
    else if a.seq != 0 && !a.freed && (a.kind != .sync || !s.chainReady a) then some { rcore := rc, kind := 6, item := a.seq, addr := va }
    else none)

/-- Copies and boardings of a core. -/
def waitStreams (s : State) (r core : Nat) (c : BitVec 5) : List WaitItem :=
  let rc := (s.region r).rcoreOf core
  ((s.core core).copies.flatMap (fun q => (q.2.filter (fun x => x.col == c)).map (fun x =>
    let v := s.tplOf core x
    ({ rcore := rc, kind := 7, item := q.1, extra := copyIn v x - inBefore v (copyIn v x) x.beat,
       addr := tpSrc v + (x.offset + inBefore v (copyIn v x) x.beat) * tpEs v } : WaitItem)))) ++
  ((s.core core).boards.filter (fun b => b.2.region == r && b.2.col == c && boardLive b.2)).map (fun b =>
    ({ rcore := rc, kind := 8, item := (s.boardHandle core rc b.1).toNat, extra := bwMissn b.2.word - b.2.mlaps } : WaitItem))

/-- The waiting items of a colour, in order. -/
def waitItems (s : State) (r : Nat) (c : BitVec 5) : List WaitItem :=
  ((s.region r).cores.flatMap (fun core =>
    s.waitTasks r core c ++ s.waitFrames r core c ++ s.waitAccesses r core c ++ s.waitStreams r core c)).foldr insertItem []

/-- The WATCHDOG record: the oldest live wave, the request tag of its admission, up to 12 entries, and the number of all of them
(spec/21 R426, spec/27 R451). -/
def watchRecord (s : State) (r : Nat) (c : BitVec 5) : Nat × BitVec 16 × BitVec 16 :=
  let w := (s.colour r c.toNat).owc
  let rtag := ((s.admOf r c w).map (·.rtag)).getD 0
  let xs := s.waitItems r c
  let bytes := trapBytes { cause := Cause.watchdog, flags := 8 } rtag w c 0 0 0 (s.region r).die 0 0
  (bytes + min 255 xs.length * 2 ^ 504 + ((xs.take 12).foldr (fun x acc => x.bytes + 2 ^ 128 * acc) 0) * 2 ^ 512, rtag, w)

end State

/-- WATCHDOG: the count has reached WDOG_TH (spec/21 R425). -/
def execWatchdog (r c : Nat) (s : State) : Host.Outcome State Fault Refusal :=
  let k := s.colour r c
  let cc := BitVec.ofNat 5 c
  .next (if s.hub.wdogTh == 0 || k.livea == 0 || k.wdog < s.hub.wdogTh then s
    else
      let (bytes, rtag, w) := s.watchRecord r cc
      let s1 := s.setColour r c { k with wdog := 0 }
      if (s.region r).trapv then s1.trapSend r bytes rtag w cc []
      else
        let s2 := s1.logPut (s.partOf r) bytes (s.region r).die
        { s2 with purges := s2.purges ++ [{ region := r, part := s.partOf r, col := cc, rtag := rtag, cause := Cause.watchdog }] })

/-! Pre-emption (spec/21 R427 to R429). -/

namespace State

/-- Tiles of a partition start to wake (spec/22 R439). -/
def wakeTiles (s : State) (p : Nat) : State :=
  { s with tiles := s.tiles.map (fun t =>
      if s.partOf (t.1 / 32) == p then (t.1, { t.2 with gate := wakeGate t.2.gate }) else t) }

/-- Whether a partition's halt is complete: no activation runs, accepted MMATs are done, what is outstanding waits in replay buffers, behind
what waits there, or at scratchpads, no fork's copy runs, wake buffers are drained, and its messages are delivered (spec/21 R427, R429,
spec/05 R118, spec/16 R316, spec/08 R176). A context that an ended activation keeps for its loads is no running activation (spec/11 R236). -/
def haltDone (s : State) (p : Nat) : Bool :=
  !s.ctxs.any (fun c => c.2.busy && !c.2.ended && c.2.stop.isNone && s.partOf (c.1 / 128) == p) &&
  !s.tiles.any (fun t => s.partOf (t.1 / 32) == p && !(t.2.mmats.isEmpty && t.2.wake.isEmpty)) &&
  !s.replies.any (fun x => x.acc.part == p && x.ride != .lost) &&
  !s.accesses.any (fun a => a.part == p && !a.waiting && (a.seq == 0 || a.freed) && a.kind != .sync && a.ride != .lost && s.inOrder a) &&
  !s.forks.any (fun f => f.part == p) &&
  !s.fabric.any (fun f => f.2.msgs.any (fun m => !m.done && (match m.region with
    | some r => s.partOf r == p
    | none => false)))

/-- Entries of the ring image table of a partition enabled or disabled from the next lap boundary, firmware's writes that wait for it among
them (spec/07 R143, R156). -/
def setEntries (s : State) (es : List Nat) (on : Bool) : State :=
  { s with ring := { s.ring with pending := es.foldl (fun m e =>
      let v := lget (s.image e) m e
      lset m e (if on then v ||| 1 else v &&& ~~~1)) s.ring.pending } }

/-- An island as it comes back: the B slots are discarded (spec/13 R281). -/
def islandBack (x : Island) : Island := { x with bSlots := [] }

/-- A copy as it comes back: one into a B slot runs again from its start, another from its beat (spec/16 R322, spec/13 R281). -/
def copyBack (x : Copy) : Copy := if x.bslot.isSome then { x with started := false, beat := 0, bslot := none } else x

/-- The copies that had filled B slots of an island whose tiles have not been consumed, with the streamer's core and channel of each: they run
again (spec/13 R281). -/
def rerunCopies (x : Island) : List (Nat × Nat × Copy) :=
  x.bSlots.filterMap (fun b => if b.2.tag.isNone || b.2.consumed then none
    else b.2.byCopy.map (fun q => (q.1, q.2.1, { copyBack q.2.2 with token := none, task := none })))

/-- A copy put among those of its channel in the order of the stores that requested them (spec/16 R322). -/
def insertCopy (x : Copy) : List Copy → List Copy
  | [] => [x]
  | y :: l => if x.id ≤ y.id then x :: y :: l else y :: insertCopy x l

/-- Whether an issued task has not begun (spec/13 R281): its copy has moved no beat, its island no K-step, none of its blocks is enqueued. -/
def notBegun (c : Core) (num : Nat) (x : Tcb) : Bool :=
  x.st = .issued && (match tType x.raw with
    | 3 => c.copies.all (fun q => q.2.all (fun y => y.task != some num || !y.started))
    | 4 => x.left == 0
    | _ => true)

/-- Places of tiles that a boarding had accepted and that are not consumed: those still arriving, and those in B slots of its island that no
copy filled. -/
def heldTiles (c : Core) (num : Nat) (b : Boarding) : List (Nat × Nat) :=
  ((c.arriving.filter (fun a => a.board == num && a.gen == lget 0 c.boardGen num && !a.void)).map (fun a => (a.slice, a.kblk))) ++
  (lget ({} : Island) c.islands (bwIsl b.word)).bSlots.filterMap (fun q =>
    match q.2.tag with
    | some (im, ly, sl, kb) =>
      if bit (bwMask b.word) q.1 && !q.2.consumed && q.2.byCopy.isNone && im == bwImage b.word && ly == bwLayer b.word &&
          (sl == bwSlice b.word || (bwPair b.word && sl == bwSlice b.word + 1)) then some (sl, kb) else none
    | none => none)

/-- The earlier of two places in ring order. -/
def earlier (a b : Nat × Nat) : Nat × Nat := if b.1 < a.1 || (b.1 == a.1 && b.2 < a.2) then b else a

/-- A boarding as it comes back: in WAITLAP, its lead counted afresh, at the first tile that it still has to bring; one that was DONE and has
none stands beyond its last slice, and no tile is due to it (spec/07 R156, spec/13 R281). -/
def boardBack (boards : Bool) (c : Core) (num : Nat) (b : Boarding) : Boarding :=
  let p := (heldTiles c num b).foldl earlier (if b.st = .done then (b.slice + 1, 0) else (b.slice, b.kblk))
  { b with st := .waitlap, boards := boards, again := true, accepted := false, due := false, frozenLap := false, cause := 0,
           slice := p.1, kblk := p.2 }

/-- What of a core is not its partition's: its heat, its clock and what throttling has still to charge (spec/06 R134, R136). -/
def coreKeeps (live c : Core) : Core :=
  { c with step := live.step, stepAt := live.stepAt, temp := live.temp, halted := live.halted, throttled := live.throttled, lost := live.lost }

/-- A tile with what no save holds: its replay counters stay the tile's own (spec/19 R380). -/
def tileKeeps (live t : Tile) : Tile := { t with replayn := live.replayn, repwin := live.repwin }

/-- A core as it comes back: a task that had not begun is in WAITIN again, and its copy no longer waits. -/
def coreBack (s : State) (live c : Core) : Core :=
  let fresh := fun (k : Nat) => (lget? c.tcbs k).any (notBegun c k)
  coreKeeps live { c with
    islands := c.islands.map (fun i => (i.1, islandBack i.2)),
    copies := c.copies.map (fun q => (q.1, (q.2.filter (fun y => !y.task.any fresh)).map copyBack)),
    boards := c.boards.map (fun b => (b.1, boardBack (s.beforeLead b.2.word) c b.1 b.2)), arriving := [], row := none, tlb := [],
    tcbs := c.tcbs.map (fun b => if notBegun c b.1 b.2 then (b.1, { b.2 with st := .waitin, begun := false }) else b) }

/-- A copy that runs again waits on its streamer's channel. -/
def rerun (s : State) (q : Nat × Nat × Copy) : State := s.setCopies q.1 q.2.1 (insertCopy q.2.2 (s.copies q.1 q.2.1))

/-- The fabric without the undelivered messages that serve some regions, wherever they have got to (spec/08 R176). -/
def clearMsgs (s : State) (rs : List Nat) : State :=
  let gone := (s.fabric.flatMap (fun f => f.2.msgs)).filter (fun m => !m.done && (match m.region with
    | some r => rs.contains r
    | none => false))
  let out := fun (src cls id : Nat) => gone.any (fun m => m.src == src && m.cls == cls && m.id == id)
  { s with
    flights := s.flights.filter (fun x => !out (bits x.hdr.toNat 44 12) (bits x.hdr.toNat 124 3) (bits x.hdr.toNat 0 32)),
    fabric := s.fabric.map (fun f => (f.1, { f.2 with
      msgs := f.2.msgs.filter (fun m => !gone.any (fun g => g.num == m.num)),
      entries := f.2.entries.filter (fun e => !out e.src e.cls e.id),
      parts := f.2.parts.filter (fun e => !out e.src e.cls e.id) })) }

/-- A partition's units without what it holds. -/
def clearPart (s : State) (p : Nat) : State :=
  let cs := s.coresOf p
  { s.clearMsgs (s.regionsOf p) with
    ctxs := s.ctxs.filter (fun e => !cs.contains (e.1 / 128)),
    frames := s.frames.filter (fun e => !cs.contains (e.1 / 4096)),
    tiles := s.tiles.map (fun e => if cs.contains (e.1 / 32) then (e.1, tileKeeps e.2 {}) else e),
    cores := s.cores.map (fun e => if cs.contains e.1 then (e.1, coreKeeps e.2 {}) else e),
    regions := s.regions.filter (fun e => !cs.contains e.1),
    tmem := s.tmem.filter (fun e => !cs.contains (e.1 / 0x1000000)),
    transit := s.transit.filter (fun x => !cs.contains (destCore x.dst)),
    accesses := s.accesses.filter (fun a => a.part != p),
    replies := s.replies.filter (fun x => x.acc.part != p),
    trips := s.trips.filter (fun t => t.part != p),
    walks := s.walks.filter (fun w => !cs.contains (w.tile / 32)),
    forks := s.forks.filter (fun f => f.part != p),
    ring := (cs.flatMap (fun c => (List.range 16).map (fun n => c * 16 + n))).foldl RingSt.unask s.ring }

/-- Frames of a partition written back to the frame heap, with their presence words (spec/14 R282, spec/21 R429). -/
def framesBack (s : State) (p : Nat) : State :=
  ((s.frames.filter (fun e => e.2.alloc && (s.coresOf p).contains (e.1 / 4096))).map (·.1)).foldl (fun st k =>
    st.frameToHeap (st.regOfTile (k / 128)) k) s

/-- A frame as it comes back: a continuation that parked at a hold is runnable at once (spec/21 R428), unless a late fault marked it trapped:
then it is after TRET (spec/15 R302). -/
def frameBack (now : Nat) (f : Frame) : Frame :=
  if f.cont = .parked && f.wait = .restore then
    if f.lateMark then { f with removed := true }
    else { f with cont := .runnable, wait := .nothing, readyAt := now, promoted := none }
  else f

/-- Frames of trapped continuations stand in the frame cache again, but for those of poisoned waves, which are pinned at the heap (spec/21 R420,
R456). -/
def pinsBack (s : State) (ks : List Nat) : State :=
  ks.foldl (fun st k =>
    let f := st.frame k
    let r := st.regOfTile (k / 128)
    if (f.cont = .trapped || f.lateMark) && !st.waveMarked r f.col f.wave then st.frameFromHeap r k else st) s

/-- What was saved comes back, but for the copies that run again. A tile with records in its wake buffer still has to land them
(spec/16 R316). -/
def unitsBack (s : State) (v : Saved) : State :=
  { s with
    ctxs := putAll s.ctxs v.ctxs,
    frames := putAll s.frames (v.frames.map (fun e => (e.1, frameBack (s.clkOf (e.1 / 4096)) e.2))),
    tiles := putAll s.tiles (v.tiles.map (fun e => (e.1, tileKeeps (s.tile e.1) { e.2 with
      tlb := [], gate := if e.2.wake.isEmpty then .awake else .waking 0, idle := 0 }))),
    cores := putAll s.cores (v.cores.map (fun e => (e.1, s.coreBack (s.core e.1) e.2))),
    regions := putAll s.regions v.regions,
    tmem := v.tmem.foldl (fun m e => mput m e.1 e.2) s.tmem,
    transit := s.transit ++ v.transit,
    accesses := s.accesses ++ v.accesses,
    replies := s.replies ++ v.replies,
    trips := s.trips ++ v.trips }

/-- What was saved comes back. -/
def putBack (s : State) (v : Saved) : State :=
  ((v.cores.flatMap (fun c => c.2.islands.flatMap (fun i => rerunCopies i.2))).foldl rerun (s.unitsBack v)).pinsBack (v.frames.map (·.1))

end State

/-- PREEMPTION_REQUEST: stage 1 of the halt; a second request is merged into the first (spec/21 R427, R429). -/
def execPreemptionRequest (p : Nat) (s : State) : Host.Outcome State Fault Refusal :=
  .next (if (s.part p).phase = .run then (s.setPart p { s.part p with phase := .halting }).wakeTiles p else s)

/-- PREEMPTION_SAVE: after the halt the frames are written back and the partition is saved (spec/21 R429). -/
def execPreemptionSave (p : Nat) (s : State) : Host.Outcome State Fault Refusal :=
  .next (if (s.part p).phase != .halting || (s.part p).resetting || !s.haltDone p then s
    else
      let s1 := s.framesBack p
      let v := s1.savePart p
      ((s1.setPart p { s1.part p with phase := .saved, save := some v }).clearPart p).setEntries v.entries false)

/-- PREEMPTION_RESTORE (spec/21 R429). -/
def execPreemptionRestore (p : Nat) (s : State) : Host.Outcome State Fault Refusal :=
  .next (match (s.part p).phase, (s.part p).save with
    | .saved, some v => (((s.putBack v).setEntries v.entries true).setPart p { s.part p with phase := .run, save := none }).wakeTiles p
    | _, _ => s)

/-! Tenant reset (spec/21 R430). -/

namespace State

/-- Bytes of memory [a, a + n) written to a dump at an offset, as far as they fit, each piece of a page at its home. -/
def dumpMem (s : State) (p base size off a n : Nat) : State :=
  if size ≤ off then s
  else (pagePieces (base + off) (min n (size - off))).foldl (fun st x =>
    st.homeCopy (a + (x.1 - (base + off))) x.1 x.2 { part := p }) s

/-- The states of a core's scratchpad words, two bits for each word, four words to a byte. -/
def dumpStates (s : State) (p base size off core : Nat) : State :=
  let w0 := scratchPa core 0 / 4
  (List.range (min 0x80000 (size - off))).foldl (fun st k =>
    st.homeWrite (base + off + k) 1 (((List.range 4).map (fun j => (lget 0 s.fe (w0 + 4 * k + j)).toNat * 4 ^ j)).foldl (· + ·) 0)
      { part := p }) s

/-- Slices and stack SRAM ranges of a partition. -/
def slicesOf (s : State) (p : Nat) : List Nat := (s.ownSlice.filter (fun e => e.2 == p)).map (·.1)
def sramsOf (s : State) (p : Nat) : List Nat := (s.ownSram.filter (fun e => e.2 == p)).map (·.1)

/-- Bytes of a partition's dump: header, save area, log, reports, scratchpads with their word states, stack SRAM ranges. -/
def dumpLength (s : State) (p : Nat) : Nat :=
  64 + Config.saveBytes + (s.part p).log.size * 64 + (s.part p).rpt.size * 16 + (s.coresOf p).length * 0x880000 +
    (s.sramsOf p).length * 0x4000000

/-- The save area's bytes, as far as they fit. -/
def dumpSave (s : State) (p base size : Nat) : State :=
  (List.range (min Config.saveBytes (size - 64))).foldl (fun st i =>
    st.homeWrite (base + 64 + i) 1 (Config.saveByte p i).toNat { part := p }) s

/-- The fault dump (spec/21 R430). -/
def writeDump (s : State) (p : Nat) : State :=
  let x := s.part p
  let b := x.dumpBase
  let n := x.dumpSize
  let total := s.dumpLength p
  let hdr := 1 + p * 2 ^ 16 + (if n < total then 1 else 0) * 2 ^ 24 + total % 2 ^ 64 * 2 ^ 64 + x.rpt.head.toNat * 2 ^ 128 +
    x.log.head.toNat * 2 ^ 160
  let o1 := 64 + Config.saveBytes
  let o2 := o1 + x.log.size * 64
  let o3 := o2 + x.rpt.size * 16
  let s1 := (s.homeWrite b (min 64 n) hdr { part := p }).dumpSave p b n
  let s2 := (s1.dumpMem p b n o1 x.log.base (x.log.size * 64)).dumpMem p b n o2 x.rpt.base (x.rpt.size * 16)
  let (s3, o4) := (s.coresOf p).foldl (fun acc c =>
    ((acc.1.dumpMem p b n acc.2 (scratchPa c 0) 0x800000).dumpStates p b n (acc.2 + 0x800000) c, acc.2 + 0x880000)) (s2, o3)
  ((s.sramsOf p).foldl (fun acc k =>
    (acc.1.dumpMem p b n acc.2 (sramPa (k / 32) (k % 32 * 0x4000000)) 0x4000000, acc.2 + 0x4000000)) (s3, o4)).1

/-- Every unit of a partition scrubbed (spec/14 R290). -/
def scrubPart (s : State) (p : Nat) : State :=
  let s1 := (s.coresOf p).foldl (fun st c => st.scrub (scratchPa c 0) 0x800000) s
  let s2 := (s.slicesOf p).foldl (fun st k => st.scrub (k * 0x100000000) 0x100000000) s1
  (s.sramsOf p).foldl (fun st k => st.scrub (sramPa (k / 32) (k % 32 * 0x4000000)) 0x4000000) s2

/-- A hub ring emptied. -/
def emptyRing (x : Ring16) : Ring16 := { x with head := 0, tail := 0, lost := 0 }

/-- Queues, reports and the log of a partition emptied, its tables reset (spec/21 R430, spec/18 R352). -/
def emptyPart (s : State) (p : Nat) : State :=
  let s1 := (s.clearPart p).setEntries (s.entriesOf p) false
  let s2 : State := { s1 with
    queues := s1.queues.map (fun q => if qdPart q.2.desc == p then (q.1, { q.2 with desc := qdSet q.2.desc 96 17 (qdWr q.2.desc) }) else q),
    hub := { s1.hub with queues := s1.hub.queues.filter (fun q => q.1 % 16 != p) } }
  let x := s2.part p
  s2.setPart p { x with
    rpt := emptyRing x.rpt, log := emptyRing x.log, wholeFrozen := false, phase := .run, resetting := false, save := none,
    snap := none, poolFree := (List.range x.poolSegs).map (fun i => x.poolBase + 0x10000 * i) }

end State

/-- TENANT_RESET: freeze, halt, dump, clear (spec/21 R430). -/
def execTenantReset (p : Nat) (s : State) : Host.Outcome State Fault Refusal :=
  let x := s.part p
  .next (if !x.resetting then
      (s.setPart p { x with
        wholeFrozen := true, resetting := true, phase := if x.phase = .run then .halting else x.phase }).wakeTiles p
    else if x.phase = .halting && !s.haltDone p then s
    else ((s.writeDump p).scrubPart p).emptyPart p)

/-! Snapshots and die drop (spec/17 R350, spec/21 R431). -/

/-- SNAP_END: the word takes the tag and the status, and becomes FULL; nothing is written to memory that hardware owns (spec/16 R320). -/
def execSnapEnd (p : Nat) (status : BitVec 8) (s : State) : Host.Outcome State Fault Refusal :=
  let x := s.part p
  .next (match x.snap with
    | none => s
    | some (tag, pa) =>
      let s1 := s.setPart p { x with snap := none }
      if s.anyWord pa 4 2 || s.anyWord pa 4 3 || s.hwBad pa 4 then s1
      else ((s1.homeWrite pa 4 (tag.toNat + status.toNat * 256) { part := p }).setWords pa 4 1).wakeUp)

namespace State

/-- Whether a partition holds a unit of a die. -/
def onDie (s : State) (p d : Nat) : Bool :=
  (s.coresOf p).any (fun c => c / 16 == d) || (s.slicesOf p).any (fun k => k / 32 == d) || (s.sramsOf p).any (fun k => k / 32 == d)

/-- Whether what a partition's snapshot holds fits the units that are left without a die: nothing of it stands there (spec/21 R431). -/
def fitsWithout (s : State) (p d : Nat) : Bool :=
  !s.onDie p d || (match (s.part p).snapped with
    | none => false
    | some v => !v.regions.any (fun e => e.2.cores.any (fun c => c / 16 == d)) && !(s.part p).snapshot.any (fun e => homeDie e.1 == d))

/-- A partition is as its snapshot holds it: its memories with their word states, and its region state. -/
def fromSnapshot (s : State) (p : Nat) : State :=
  match (s.part p).snapped with
  | none => s
  | some v =>
    let s1 := (s.scrubPart p).clearPart p
    ({ s1 with mem := (s.part p).snapshot.foldl (fun m e => mput m e.1 e.2) s1.mem, fe := putAll s1.fe (s.part p).snapFe } : State).putBack v

end State

/-- DIE_DROP: after the checkpoint the hub drops a die. Its units belong to no partition and its memories are lost; a partition whose snapshot
fits the units that are left to it runs on from there, another is not restored; spray tables and ring images are firmware's to write again
(spec/21 R431, log entry 52). -/
def execDieDrop (d : Nat) (s : State) : Host.Outcome State Fault Refusal :=
  let ps := List.range 16
  .next (if 4 ≤ d || s.dropped.contains d then s
    else
      let lost := ps.filter (fun p => !s.fitsWithout p d)
      let s1 := lost.foldl (fun st p => st.clearPart p) s
      let s2 := (ps.filter (fun p => !lost.contains p)).foldl (fun st p => st.fromSnapshot p) s1
      { s2 with
        dropped := s2.dropped ++ [d],
        mem := s2.mem.filter (fun e => homeDie e.1 != d),
        fe := s2.fe.filter (fun e => homeDie (4 * e.1) != d),
        uce := s2.uce.filter (fun a => homeDie a != d),
        lines := s2.lines.filter (fun x => homeDie (x.num * 128) != d && x.gw != some d),
        pages := s2.pages.filter (fun e => homeDie (e.1 * 0x10000) != d),
        migs := s2.migs.filter (fun m => homeDie m.src != d && homeDie m.dst != d),
        ownCore := s2.ownCore.filter (fun e => e.1 / 16 != d),
        ownSlice := s2.ownSlice.filter (fun e => e.1 / 32 != d),
        ownSram := s2.ownSram.filter (fun e => e.1 / 32 != d),
        fabric := (s2.fabric.filter (fun f => f.1 != d)).map (fun f => (f.1, { f.2 with spray := [] })),
        ring := { s2.ring with images := [], pending := [], running := false, hold := none, want := [], holders := [] } })

/-! Bring-up (spec/22 R436 to R438). -/

/-- POWER_ON: the hub starts, checks the rails and reads the straps; a rail out of order or tolerance holds bring-up at stage 1. -/
def execPowerOn (straps : BitVec 16) (railsOk : Bool) (s : State) : Host.Outcome State Fault Refusal :=
  let b := (straps.extractLsb' 0 4).toNat
  let boot := if 11 < b then 0 else b
  let hub : Hub := { bootport := boot, devnum := (straps.extractLsb' 4 12).toNat }
  .next { State.reset with
    agenda := s.agenda,
    hub := if railsOk then { hub with stage := 2, portup := 1#12 <<< boot } else { hub with railerr := true } }

/-- POLICY_FIRMWARE_IMAGE: one whose signature fails is discarded; else stages 3 to 5 follow: the dies leave reset, the HBM is cleared,
every table is reset, every port is brought up and READY is posted. -/
def execPolicyFirmwareImage (signatureOk : Bool) (s : State) : Host.Outcome State Fault Refusal :=
  .next (if s.hub.stage != 2 || !signatureOk then s
    else { State.reset with agenda := s.agenda, hub := { s.hub with stage := 5, portup := 0xFFF, ready := true } })

end Sys2Proof.Machine
end

