-- ==== Sys2Proof/Machine/Dispatch.lean ====
section
/-!
DEFINITION. Machine/Dispatch.lean: one arm per instruction and per event.
-/

namespace Sys2Proof.Machine

def exec (i : Instr) (s : State) : Host.Outcome State Fault Refusal :=
  match i with
  | .dictionaryCode ix => Sys2Proof.Machine.execDictionaryCode ix s
  | .nop p => Sys2Proof.Machine.execNop p s
  | .mov p d a => Sys2Proof.Machine.execMov p d a s
  | .add p d a b => Sys2Proof.Machine.execAdd p d a b s
  | .sub p d a b => Sys2Proof.Machine.execSub p d a b s
  | .mul p d a b => Sys2Proof.Machine.execMul p d a b s
  | .mulh p d a b => Sys2Proof.Machine.execMulh p d a b s
  | .mulhu p d a b => Sys2Proof.Machine.execMulhu p d a b s
  | .div p d a b => Sys2Proof.Machine.execDiv p d a b s
  | .divu p d a b => Sys2Proof.Machine.execDivu p d a b s
  | .rem p d a b => Sys2Proof.Machine.execRem p d a b s
  | .remu p d a b => Sys2Proof.Machine.execRemu p d a b s
  | .and p d a b => Sys2Proof.Machine.execAnd p d a b s
  | .or p d a b => Sys2Proof.Machine.execOr p d a b s
  | .xor p d a b => Sys2Proof.Machine.execXor p d a b s
  | .andn p d a b => Sys2Proof.Machine.execAndn p d a b s
  | .shl p d a b => Sys2Proof.Machine.execShl p d a b s
  | .shr p d a b => Sys2Proof.Machine.execShr p d a b s
  | .sra p d a b => Sys2Proof.Machine.execSra p d a b s
  | .rol p d a b => Sys2Proof.Machine.execRol p d a b s
  | .min p d a b => Sys2Proof.Machine.execMin p d a b s
  | .max p d a b => Sys2Proof.Machine.execMax p d a b s
  | .minu p d a b => Sys2Proof.Machine.execMinu p d a b s
  | .maxu p d a b => Sys2Proof.Machine.execMaxu p d a b s
  | .clz p d a => Sys2Proof.Machine.execClz p d a s
  | .popc p d a => Sys2Proof.Machine.execPopc p d a s
  | .brev p d a => Sys2Proof.Machine.execBrev p d a s
  | .sel p d a b c => Sys2Proof.Machine.execSel p d a b c s
  | .cmp p cond d a b => Sys2Proof.Machine.execCmp p cond d a b s
  | .lea p d a b sh => Sys2Proof.Machine.execLea p d a b sh s
  | .bfx p ty d a len pos => Sys2Proof.Machine.execBfx p ty d a len pos s
  | .bfi p d a b len pos => Sys2Proof.Machine.execBfi p d a b len pos s
  | .sext p ty d a => Sys2Proof.Machine.execSext p ty d a s
  | .zext p ty d a => Sys2Proof.Machine.execZext p ty d a s
  | .mfs p d sr entry => Sys2Proof.Machine.execMfs p d sr entry s
  | .mts p sr a => Sys2Proof.Machine.execMts p sr a s
  | .fadd p ty d a b sm rnd => Sys2Proof.Machine.execFadd p ty d a b sm rnd s
  | .fsub p ty d a b sm rnd => Sys2Proof.Machine.execFsub p ty d a b sm rnd s
  | .fmul p ty d a b sm rnd => Sys2Proof.Machine.execFmul p ty d a b sm rnd s
  | .ffma p ty d a b c sm rnd => Sys2Proof.Machine.execFfma p ty d a b c sm rnd s
  | .fmin p ty d a b => Sys2Proof.Machine.execFmin p ty d a b s
  | .fmax p ty d a b => Sys2Proof.Machine.execFmax p ty d a b s
  | .fcmp p ty d a b cond => Sys2Proof.Machine.execFcmp p ty d a b cond s
  | .fcvt p ty d a src sm rnd => Sys2Proof.Machine.execFcvt p ty d a src sm rnd s
  | .pand p ia ib d a b => Sys2Proof.Machine.execPand p ia ib d a b s
  | .por p ia ib d a b => Sys2Proof.Machine.execPor p ia ib d a b s
  | .pxor p ia ib d a b => Sys2Proof.Machine.execPxor p ia ib d a b s
  | .pnot p d a => Sys2Proof.Machine.execPnot p d a s
  | .vadd p ty d a b mk sm rnd => Sys2Proof.Machine.execVadd p ty d a b mk sm rnd s
  | .vsub p ty d a b mk sm rnd => Sys2Proof.Machine.execVsub p ty d a b mk sm rnd s
  | .vmul p ty d a b mk sm rnd => Sys2Proof.Machine.execVmul p ty d a b mk sm rnd s
  | .vfma p ty d a b c mk sm rnd => Sys2Proof.Machine.execVfma p ty d a b c mk sm rnd s
  | .vmin p ty d a b mk => Sys2Proof.Machine.execVmin p ty d a b mk s
  | .vmax p ty d a b mk => Sys2Proof.Machine.execVmax p ty d a b mk s
  | .vabs p ty d a mk sm rnd => Sys2Proof.Machine.execVabs p ty d a mk sm rnd s
  | .vneg p ty d a mk sm rnd => Sys2Proof.Machine.execVneg p ty d a mk sm rnd s
  | .vmulh p ty d a b mk => Sys2Proof.Machine.execVmulh p ty d a b mk s
  | .vand p ty d a b mk => Sys2Proof.Machine.execVand p ty d a b mk s
  | .vor p ty d a b mk => Sys2Proof.Machine.execVor p ty d a b mk s
  | .vxor p ty d a b mk => Sys2Proof.Machine.execVxor p ty d a b mk s
  | .vshl p ty d a b mk => Sys2Proof.Machine.execVshl p ty d a b mk s
  | .vshr p ty d a b mk => Sys2Proof.Machine.execVshr p ty d a b mk s
  | .vsra p ty d a b mk => Sys2Proof.Machine.execVsra p ty d a b mk s
  | .vcmp p ty d a b mk cond => Sys2Proof.Machine.execVcmp p ty d a b mk cond s
  | .vsel p ty d a b c => Sys2Proof.Machine.execVsel p ty d a b c s
  | .mand p ty d a b => Sys2Proof.Machine.execMand p ty d a b s
  | .mor p ty d a b => Sys2Proof.Machine.execMor p ty d a b s
  | .mxor p ty d a b => Sys2Proof.Machine.execMxor p ty d a b s
  | .mnot p ty d a => Sys2Proof.Machine.execMnot p ty d a s
  | .mcnt p ty d a => Sys2Proof.Machine.execMcnt p ty d a s
  | .vcvt p ty d a mk part src sm rnd => Sys2Proof.Machine.execVcvt p ty d a mk part src sm rnd s
  | .vscale p ty d a b mk side sm rnd => Sys2Proof.Machine.execVscale p ty d a b mk side sm rnd s
  | .vqnt p d a b sm rnd => Sys2Proof.Machine.execVqnt p d a b sm rnd s
  | .vcbd p d a part => Sys2Proof.Machine.execVcbd p d a part s
  | .vrcp p ty d a mk sm => Sys2Proof.Machine.execVrcp p ty d a mk sm s
  | .vrsq p ty d a mk sm => Sys2Proof.Machine.execVrsq p ty d a mk sm s
  | .vexp2 p ty d a mk sm => Sys2Proof.Machine.execVexp2 p ty d a mk sm s
  | .vlog2 p ty d a mk sm => Sys2Proof.Machine.execVlog2 p ty d a mk sm s
  | .vsum p ty d a mk sm rnd => Sys2Proof.Machine.execVsum p ty d a mk sm rnd s
  | .vrmax p ty d a mk => Sys2Proof.Machine.execVrmax p ty d a mk s
  | .vrmin p ty d a mk => Sys2Proof.Machine.execVrmin p ty d a mk s
  | .vdot p ty d a b mk sm rnd => Sys2Proof.Machine.execVdot p ty d a b mk sm rnd s
  | .vscan p ty d a excl sm rnd => Sys2Proof.Machine.execVscan p ty d a excl sm rnd s
  | .vtopkReset p k1 unit => Sys2Proof.Machine.execVtopkReset p k1 unit s
  | .vtopkFeed p a b unit => Sys2Proof.Machine.execVtopkFeed p a b unit s
  | .vtopkDrainv p d page unit => Sys2Proof.Machine.execVtopkDrainv p d page unit s
  | .vtopkDraini p d page unit => Sys2Proof.Machine.execVtopkDraini p d page unit s
  | .vperm p ty d a b => Sys2Proof.Machine.execVperm p ty d a b s
  | .vbcast p ty d a j => Sys2Proof.Machine.execVbcast p ty d a j s
  | .vsplat p ty d a => Sys2Proof.Machine.execVsplat p ty d a s
  | .vins p ty d a j => Sys2Proof.Machine.execVins p ty d a j s
  | .vext p ty d a j => Sys2Proof.Machine.execVext p ty d a j s
  | .vzip p ty d a b hi => Sys2Proof.Machine.execVzip p ty d a b hi s
  | .vunzip p ty d a b hi => Sys2Proof.Machine.execVunzip p ty d a b hi s
  | .vcomp p ty d a c => Sys2Proof.Machine.execVcomp p ty d a c s
  | .vexpd p ty d a c => Sys2Proof.Machine.execVexpd p ty d a c s
  | .viota p ty d a => Sys2Proof.Machine.execViota p ty d a s
  | .vmov p ty d a mk => Sys2Proof.Machine.execVmov p ty d a mk s
  | .mzero p d => Sys2Proof.Machine.execMzero p d s
  | .mmat p ty d a b cb => Sys2Proof.Machine.execMmat p ty d a b cb s
  | .mrdr p ty d a hi r sm rnd => Sys2Proof.Machine.execMrdr p ty d a hi r sm rnd s
  | .mwrr p ty d a hi r => Sys2Proof.Machine.execMwrr p ty d a hi r s
  | .mrdc p ty d a hi r sm rnd => Sys2Proof.Machine.execMrdc p ty d a hi r sm rnd s
  | .msta p ty a b sm rnd => Sys2Proof.Machine.execMsta p ty a b sm rnd s
  | .mlda p d a => Sys2Proof.Machine.execMlda p d a s
  | .mmatComplete t => Sys2Proof.Machine.execMmatComplete t s
  | .li p d imm => Sys2Proof.Machine.execLi p d imm s
  | .lih p d a imm => Sys2Proof.Machine.execLih p d a imm s
  | .addi p d a imm => Sys2Proof.Machine.execAddi p d a imm s
  | .andi p d a imm => Sys2Proof.Machine.execAndi p d a imm s
  | .ori p d a imm => Sys2Proof.Machine.execOri p d a imm s
  | .xori p d a imm => Sys2Proof.Machine.execXori p d a imm s
  | .shli p d a n => Sys2Proof.Machine.execShli p d a n s
  | .shri p d a n => Sys2Proof.Machine.execShri p d a n s
  | .srai p d a n => Sys2Proof.Machine.execSrai p d a n s
  | .muli p d a imm => Sys2Proof.Machine.execMuli p d a imm s
  | .cmpi p cond d a imm => Sys2Proof.Machine.execCmpi p cond d a imm s
  | .mini p d a imm => Sys2Proof.Machine.execMini p d a imm s
  | .maxi p d a imm => Sys2Proof.Machine.execMaxi p d a imm s
  | .vbcasti p ty d imm => Sys2Proof.Machine.execVbcasti p ty d imm s
  | .fli p ty d imm => Sys2Proof.Machine.execFli p ty d imm s
  | .ld p mf d a b => Sys2Proof.Machine.execLd p mf d a b s
  | .st p mf a b c => Sys2Proof.Machine.execSt p mf a b c s
  | .vld p mf d a b => Sys2Proof.Machine.execVld p mf d a b s
  | .vst p mf a b c => Sys2Proof.Machine.execVst p mf a b c s
  | .vldg p mf d a b => Sys2Proof.Machine.execVldg p mf d a b s
  | .vsts p mf a b c => Sys2Proof.Machine.execVsts p mf a b c s
  | .ldf p mf d a b => Sys2Proof.Machine.execLdf p mf d a b s
  | .ldfe p mf d a b => Sys2Proof.Machine.execLdfe p mf d a b s
  | .stef p mf a b c => Sys2Proof.Machine.execStef p mf a b c s
  | .stf p mf a b c => Sys2Proof.Machine.execStf p mf a b c s
  | .vldf p mf d a b => Sys2Proof.Machine.execVldf p mf d a b s
  | .vstf p mf a b c => Sys2Proof.Machine.execVstf p mf a b c s
  | .feget p mf d a b => Sys2Proof.Machine.execFeget p mf d a b s
  | .feset p mf a b c => Sys2Proof.Machine.execFeset p mf a b c s
  | .aadd p mf d a b c => Sys2Proof.Machine.execAadd p mf d a b c s
  | .amin p mf d a b c => Sys2Proof.Machine.execAmin p mf d a b c s
  | .amax p mf d a b c => Sys2Proof.Machine.execAmax p mf d a b c s
  | .aand p mf d a b c => Sys2Proof.Machine.execAand p mf d a b c s
  | .aor p mf d a b c => Sys2Proof.Machine.execAor p mf d a b c s
  | .axor p mf d a b c => Sys2Proof.Machine.execAxor p mf d a b c s
  | .aswp p mf d a b c => Sys2Proof.Machine.execAswp p mf d a b c s
  | .acas p mf d a b c => Sys2Proof.Machine.execAcas p mf d a b c s
  | .afadd p mf d a b c => Sys2Proof.Machine.execAfadd p mf d a b c s
  | .fence p mf => Sys2Proof.Machine.execFence p mf s
  | .cwb p mf a b => Sys2Proof.Machine.execCwb p mf a b s
  | .cinv p mf a b => Sys2Proof.Machine.execCinv p mf a b s
  | .pref p mf a b => Sys2Proof.Machine.execPref p mf a b s
  | .osclm p mf d a => Sys2Proof.Machine.execOsclm p mf d a s
  | .osrel p mf d a => Sys2Proof.Machine.execOsrel p mf d a s
  | .br p imm => Sys2Proof.Machine.execBr p imm s
  | .brr p a imm => Sys2Proof.Machine.execBrr p a imm s
  | .call p d imm => Sys2Proof.Machine.execCall p d imm s
  | .ret p a => Sys2Proof.Machine.execRet p a s
  | .loop p d a imm => Sys2Proof.Machine.execLoop p d a imm s
  | .endh p => Sys2Proof.Machine.execEndh p s
  | .park p => Sys2Proof.Machine.execPark p s
  | .trap p n => Sys2Proof.Machine.execTrap p n s
  | .tret p a skip => Sys2Proof.Machine.execTret p a skip s
  | .waitc p tok tom stm ldm => Sys2Proof.Machine.execWaitc p tok tom stm ldm s
  | .barw p bar => Sys2Proof.Machine.execBarw p bar s
  | .bara p d bar => Sys2Proof.Machine.execBara p d bar s
  | .barinit p exp bar => Sys2Proof.Machine.execBarinit p exp bar s
  | .emit p d => Sys2Proof.Machine.execEmit p d s
  | .drop p d => Sys2Proof.Machine.execDrop p d s
  | .skipe p d => Sys2Proof.Machine.execSkipe p d s
  | .pres p d a => Sys2Proof.Machine.execPres p d a s
  | .pops p d a => Sys2Proof.Machine.execPops p d a s
  | .hdr p d a fm => Sys2Proof.Machine.execHdr p d a fm s
  | .ttenq p d a rcore src => Sys2Proof.Machine.execTtenq p d a rcore src s
  | .xsend p d a => Sys2Proof.Machine.execXsend p d a s
  | .board p d a => Sys2Proof.Machine.execBoard p d a s
  | .unbrd p d a => Sys2Proof.Machine.execUnbrd p d a s
  | .rhold p a b => Sys2Proof.Machine.execRhold p a b s
  | .rstat p d a => Sys2Proof.Machine.execRstat p d a s
  | .purge p d a b => Sys2Proof.Machine.execPurge p d a b s
  | .snap p a b => Sys2Proof.Machine.execSnap p a b s
  | .freeze p a => Sys2Proof.Machine.execFreeze p a s
  | .thaw p a => Sys2Proof.Machine.execThaw p a s
  | .qflush p d a => Sys2Proof.Machine.execQflush p d a s
  | .sqnew p d a b => Sys2Proof.Machine.execSqnew p d a b s
  | .sqrsv p d a b fault => Sys2Proof.Machine.execSqrsv p d a b fault s
  | .sqadr p d a b => Sys2Proof.Machine.execSqadr p d a b s
  | .sqcmt p a b sc => Sys2Proof.Machine.execSqcmt p a b sc s
  | .sqlen p d a sc => Sys2Proof.Machine.execSqlen p d a sc s
  | .sqwait p a b sc => Sys2Proof.Machine.execSqwait p a b sc s
  | .sqfork p d a b c => Sys2Proof.Machine.execSqfork p d a b c s
  | .sqref p d a => Sys2Proof.Machine.execSqref p d a s
  | .sqrel p d a => Sys2Proof.Machine.execSqrel p d a s
  | .sqld p d a b c sc => Sys2Proof.Machine.execSqld p d a b c sc s
  | .sqvoid p a b sc => Sys2Proof.Machine.execSqvoid p a b sc s
  | .cntrd p d a => Sys2Proof.Machine.execCntrd p d a s
  | .owcrd p d a => Sys2Proof.Machine.execOwcrd p d a s
  | .qset p a b => Sys2Proof.Machine.execQset p a b s
  | .cntset p a b => Sys2Proof.Machine.execCntset p a b s
  | .cfgld p d a b => Sys2Proof.Machine.execCfgld p d a b s
  | .cfgarm p d a => Sys2Proof.Machine.execCfgarm p d a s
  | .cfgdis p d a => Sys2Proof.Machine.execCfgdis p d a s
  | .dictld p d a b => Sys2Proof.Machine.execDictld p d a b s
  | .cbld p d a b => Sys2Proof.Machine.execCbld p d a b s
  | .tlbinv p a b => Sys2Proof.Machine.execTlbinv p a b s
  | .budget => Sys2Proof.Machine.execBudget s
  | .contextSelection t c => Sys2Proof.Machine.execContextSelection t c s
  | .oldestWavePromotion t f => Sys2Proof.Machine.execOldestWavePromotion t f s
  | .recordArrival n => Sys2Proof.Machine.execRecordArrival n s
  | .spillReplay r c n => Sys2Proof.Machine.execSpillReplay r c n s
  | .wakeBufferArrival n => Sys2Proof.Machine.execWakeBufferArrival n s
  | .tileWake t => Sys2Proof.Machine.execTileWake t s
  | .clockGatingEntry t => Sys2Proof.Machine.execClockGatingEntry t s
  | .powerGatingEntry t => Sys2Proof.Machine.execPowerGatingEntry t s
  | .owcBroadcast t c => Sys2Proof.Machine.execOwcBroadcast t c s
  | .admission r c => Sys2Proof.Machine.execAdmission r c s
  | .exitPortRecord n => Sys2Proof.Machine.execExitPortRecord n s
  | .exitAdmissionLeave r k => Sys2Proof.Machine.execExitAdmissionLeave r k s
  | .counterNodeRecord n => Sys2Proof.Machine.execCounterNodeRecord n s
  | .memoryOperatorRecord n => Sys2Proof.Machine.execMemoryOperatorRecord n s
  | .memoryOperatorResult r k => Sys2Proof.Machine.execMemoryOperatorResult r k s
  | .steerRecord n => Sys2Proof.Machine.execSteerRecord n s
  | .mergeRecord n => Sys2Proof.Machine.execMergeRecord n s
  | .conversionNodeRecord n => Sys2Proof.Machine.execConversionNodeRecord n s
  | .boundaryNodeRecord n => Sys2Proof.Machine.execBoundaryNodeRecord n s
  | .waveAdvanceRecord n => Sys2Proof.Machine.execWaveAdvanceRecord n s
  | .remoteScratchpadRecord n => Sys2Proof.Machine.execRemoteScratchpadRecord n s
  | .aRowRecord n => Sys2Proof.Machine.execARowRecord n s
  | .reconfigurationRecord n => Sys2Proof.Machine.execReconfigurationRecord n s
  | .waveControlRecord n => Sys2Proof.Machine.execWaveControlRecord n s
  | .circuitBeat n crcOk => Sys2Proof.Machine.execCircuitBeat n crcOk s
  | .accessResponse k => Sys2Proof.Machine.execAccessResponse k s
  | .storePerformed k => Sys2Proof.Machine.execStorePerformed k s
  | .chainAccessRelease k => Sys2Proof.Machine.execChainAccessRelease k s
  | .stefWake k => Sys2Proof.Machine.execStefWake k s
  | .waitEntryRetry t f => Sys2Proof.Machine.execWaitEntryRetry t f s
  | .stefResend k => Sys2Proof.Machine.execStefResend k s
  | .seqWaitRetry t f => Sys2Proof.Machine.execSeqWaitRetry t f s
  | .tableWalk k => Sys2Proof.Machine.execTableWalk k s
  | .pageModeInterval => Sys2Proof.Machine.execPageModeInterval s
  | .sliceMigration m => Sys2Proof.Machine.execSliceMigration m s
  | .ownershipSet u part => Sys2Proof.Machine.execOwnershipSet u part s
  | .doorbell pkt data => Sys2Proof.Machine.execDoorbell pkt data s
  | .commandQueueRead q => Sys2Proof.Machine.execCommandQueueRead q s
  | .queueMap q desc => Sys2Proof.Machine.execQueueMap q desc s
  | .queueUnmap q => Sys2Proof.Machine.execQueueUnmap q s
  | .hostReadWrite pkt gva acc => Sys2Proof.Machine.execHostReadWrite pkt gva acc s
  | .hostAtomic pkt gva op wide x y => Sys2Proof.Machine.execHostAtomic pkt gva op wide x y s
  | .marchPlacement => Sys2Proof.Machine.execMarchPlacement s
  | .dieReport d => Sys2Proof.Machine.execDieReport d s
  | .taskResident c b => Sys2Proof.Machine.execTaskResident c b s
  | .taskIssue c b => Sys2Proof.Machine.execTaskIssue c b s
  | .taskRetirement c b => Sys2Proof.Machine.execTaskRetirement c b s
  | .condTask c b => Sys2Proof.Machine.execCondTask c b s
  | .whileTask c b => Sys2Proof.Machine.execWhileTask c b s
  | .imma c b => Sys2Proof.Machine.execImma c b s
  | .idrain c b => Sys2Proof.Machine.execIdrain c b s
  | .izero c b => Sys2Proof.Machine.execIzero c b s
  | .regionTask c b => Sys2Proof.Machine.execRegionTask c b s
  | .copyTask c b => Sys2Proof.Machine.execCopyTask c b s
  | .copyStart c ch => Sys2Proof.Machine.execCopyStart c ch s
  | .copyBeat c ch => Sys2Proof.Machine.execCopyBeat c ch s
  | .copyEnd c ch => Sys2Proof.Machine.execCopyEnd c ch s
  | .sqforkCopyEnd k => Sys2Proof.Machine.execSqforkCopyEnd k s
  | .lapBoundary => Sys2Proof.Machine.execLapBoundary s
  | .tileHeadArrival c n => Sys2Proof.Machine.execTileHeadArrival c n s
  | .tileCrcCheck c k damaged => Sys2Proof.Machine.execTileCrcCheck c k damaged s
  | .ringHold => Sys2Proof.Machine.execRingHold s
  | .holdExpiry => Sys2Proof.Machine.execHoldExpiry s
  | .underrun station => Sys2Proof.Machine.execUnderrun station s
  | .ringImageEntryWrite e v => Sys2Proof.Machine.execRingImageEntryWrite e v s
  | .ringPaceWrite v => Sys2Proof.Machine.execRingPaceWrite v s
  | .ringPaceMinWrite v => Sys2Proof.Machine.execRingPaceMinWrite v s
  | .ringLeadWrite v => Sys2Proof.Machine.execRingLeadWrite v s
  | .coderateWrite d n v => Sys2Proof.Machine.execCoderateWrite d n v s
  | .throtThWrite v => Sys2Proof.Machine.execThrotThWrite v s
  | .placeThWrite v => Sys2Proof.Machine.execPlaceThWrite v s
  | .timingThWrite v => Sys2Proof.Machine.execTimingThWrite v s
  | .wdogThWrite v => Sys2Proof.Machine.execWdogThWrite v s
  | .tileGatingWrite power v => Sys2Proof.Machine.execTileGatingWrite power v s
  | .firmwareRegisterWrite reg v => Sys2Proof.Machine.execFirmwareRegisterWrite reg v s
  | .corrt port => Sys2Proof.Machine.execCorrt port s
  | .underrunRead station => Sys2Proof.Machine.execUnderrunRead station s
  | .latedrop d => Sys2Proof.Machine.execLatedrop d s
  | .fragerr d => Sys2Proof.Machine.execFragerr d s
  | .decfull d => Sys2Proof.Machine.execDecfull d s
  | .nacks d => Sys2Proof.Machine.execNacks d s
  | .retxn d => Sys2Proof.Machine.execRetxn d s
  | .msglossRead d => Sys2Proof.Machine.execMsglossRead d s
  | .portdropRead port => Sys2Proof.Machine.execPortdropRead port s
  | .fragmentArrival d hdr data crc => Sys2Proof.Machine.execFragmentArrival d hdr data crc s
  | .decodeTimeout d k => Sys2Proof.Machine.execDecodeTimeout d k s
  | .retiredFilterExpiry d k => Sys2Proof.Machine.execRetiredFilterExpiry d k s
  | .ackCoalesce d pair => Sys2Proof.Machine.execAckCoalesce d pair s
  | .acknowledgement d ack => Sys2Proof.Machine.execAcknowledgement d ack s
  | .nack d msg final => Sys2Proof.Machine.execNack d msg final s
  | .msgloss d k => Sys2Proof.Machine.execMsgloss d k s
  | .throttleSample c compute sram => Sys2Proof.Machine.execThrottleSample c compute sram s
  | .debtAccrual c => Sys2Proof.Machine.execDebtAccrual c s
  | .timingReplay t => Sys2Proof.Machine.execTimingReplay t s
  | .replayWindowEnd d => Sys2Proof.Machine.execReplayWindowEnd d s
  | .watchdog r c => Sys2Proof.Machine.execWatchdog r c s
  | .preemptionRequest p => Sys2Proof.Machine.execPreemptionRequest p s
  | .preemptionSave p => Sys2Proof.Machine.execPreemptionSave p s
  | .preemptionRestore p => Sys2Proof.Machine.execPreemptionRestore p s
  | .tenantReset p => Sys2Proof.Machine.execTenantReset p s
  | .dieDrop d => Sys2Proof.Machine.execDieDrop d s
  | .snapEnd p status => Sys2Proof.Machine.execSnapEnd p status s
  | .powerOn straps railsOk => Sys2Proof.Machine.execPowerOn straps railsOk s
  | .policyFirmwareImage signatureOk => Sys2Proof.Machine.execPolicyFirmwareImage signatureOk s
  | .portLinkChange port up => Sys2Proof.Machine.execPortLinkChange port up s
  | .vmidTableWrite v entry => Sys2Proof.Machine.execVmidTableWrite v entry s

end Sys2Proof.Machine
end

