-- ==== Sys2Proof/Machine/Ready.lean ====
section
/-!
DEFINITION. Machine/Ready.lean: the events that the hardware may be ready to make in a state, in the order in which a step tries
them (log entry 1), and the two moves of the environment that are no events of the table. What the host, firmware, the hypervisor,
sensors, peers and damage bring comes with the agenda.
-/

namespace Sys2Proof.Machine

/-- What a step may try: the meaning of an event, with its operands. -/
abbrev Try := State → Host.Outcome State Fault Refusal

/-- A bit of a header on its way is flipped (spec/02 R37). -/
def State.flipHeader (s : State) (n bit : Nat) : State :=
  match s.transit[n]? with
  | none => s
  | some x =>
    { s with transit := setAt s.transit n { x with rc := { x.rc with hdr := x.rc.hdr ^^^ (1#64 <<< (bit % 64)) } } }

/-- A byte of memory becomes uncorrectable (spec/21 R424). -/
def State.upsetByte (s : State) (pa : Nat) : State :=
  if s.uce.contains pa then s else { s with uce := s.uce ++ [pa] }

/-- A fragment on its way is lost, or misses its destination, comes round and is discarded by its source (spec/08 R159). -/
def State.loseFragment (s : State) (n : Nat) : State := { s with flights := dropAt s.flights n }

/-- An acknowledgement or NACK on its way to a die is lost. -/
def State.loseSignal (s : State) (d n : Nat) : State := s.setFab d { s.fab d with sigs := dropAt (s.fab d).sigs n }

/-- A station has staged its next tile: the lanes go on where no other one is waited for (spec/07 R153). -/
def State.stageTile (s : State) (station : Nat) : State :=
  { s with ring := { s.ring with stalled := s.ring.stalled.filter (· != station), late := s.ring.late.filter (· != station) } }

/-- Held contexts may try again. -/
def State.unhold (s : State) : State :=
  { s with ctxs := s.ctxs.map (fun e => (e.1, { e.2 with held := false })) }

/-- The event by which a travelling record gets on. -/
def State.arrivalOf (s : State) (n : Nat) (x : Transit) : Try :=
  if x.left != 0 then execCircuitBeat n true
  else
    match x.dst with
    | .slot t _ => if (s.tile t).gate = .awake then execRecordArrival n else execWakeBufferArrival n
    | .waveCtl _ => execWaveControlRecord n
    | .reconf _ => execReconfigurationRecord n
    | .op r k _ =>
      match oKind (s.opEntry r k) with
      | 2 => execExitPortRecord n
      | 3 => execCounterNodeRecord n
      | 4 => execMemoryOperatorRecord n
      | 5 => execBoundaryNodeRecord n
      | 6 => execWaveAdvanceRecord n
      | 7 => execSteerRecord n
      | 8 => execMergeRecord n
      | 9 => execConversionNodeRecord n
      | 13 => execRemoteScratchpadRecord n
      | _ => execARowRecord n

/-- The event that performs or answers an access. -/
def accessEvent (k : Nat) (a : Access) : Try :=
  if a.seq != 0 && !a.freed then execChainAccessRelease k
  else if a.kind.isLoad then execAccessResponse k
  else if a.kind == .stef && a.resendAt != 0 then execStefResend k
  else if a.kind == .stef && a.waiting then execStefWake k
  else execStorePerformed k

/-- The events that a task in a state waits for (spec/06 R125 to R129). -/
def taskEvents (c b : Nat) (x : Tcb) : List Try :=
  match x.st with
  | .named => []
  | .waitpred => []
  | .waitin => [execTaskResident c b]
  | .ready => [execCondTask c b, execWhileTask c b, execTaskIssue c b]
  | .issued => [execImma c b, execIdrain c b, execIzero c b, execRegionTask c b, execCopyTask c b]
  | .retired => [execTaskRetirement c b]

/-- Events of the ring (spec/07). -/
def State.ringEvents (s : State) : List Try :=
  s.cores.flatMap (fun c =>
    (List.range c.2.arriving.length).map (fun k => execTileCrcCheck c.1 k false) ++
    (if c.2.boards.isEmpty then [] else [execTileHeadArrival c.1 c.2.seen])) ++
  [execHoldExpiry, execRingHold, execLapBoundary]

/-- Events of one die's fabric: its timers, and the acknowledgements and NACKs that reach it (spec/08 R172 to R175). -/
def fabricEvents (d : Nat) (f : Fabric) : List Try :=
  (List.range f.entries.length).map (fun k => execDecodeTimeout d k) ++
  (List.range f.retired.length).map (fun k => execRetiredFilterExpiry d k) ++
  f.acks.map (fun a => execAckCoalesce d (a.dst, a.src)) ++
  f.sigs.map (fun g => match g with
    | .ack src ids => execAcknowledgement d (src, ids)
    | .nack src cls id final => execNack d (src, cls, id) final) ++
  (List.range f.msgs.length).map (fun k => execMsgloss d k)

/-- Events that time alone paces. -/
def State.timedEvents (s : State) : List Try :=
  ((s.cores.filter (fun c => c.2.owes.isSome)).map (fun c => execDebtAccrual c.1)) ++
  ((List.range 4).filter s.reportDue).map (fun d => execDieReport d) ++
  (List.range 4).map (fun d => execReplayWindowEnd d) ++
  (if s.hub.pageAt + 172800 ≤ s.now then [execPageModeInterval] else [])

/-- The events that the state may be ready for. -/
def State.readyEvents (s : State) : List Try :=
  s.timedEvents ++
  (List.range s.transit.length).filterMap (fun n => (s.transit[n]?).map (s.arrivalOf n)) ++
  (List.range s.accesses.length).filterMap (fun k => (s.accesses[k]?).map (accessEvent k)) ++
  (List.range s.replies.length).map (fun k => execAccessResponse (s.accesses.length + k)) ++
  s.flights.map (fun x => execFragmentArrival (State.nextDie x) x.hdr x.data x.crc) ++
  (List.range s.walks.length).map (fun k => execTableWalk k) ++
  s.regions.flatMap (fun e =>
    e.2.cols.flatMap (fun c =>
      (List.range c.2.spill.length).map (fun n => execSpillReplay e.1 c.1 n) ++ [execAdmission e.1 c.1, execWatchdog e.1 c.1]) ++
    (List.range e.2.outs.length).map (fun k => execMemoryOperatorResult e.1 k) ++
    (List.range e.2.adms.length).map (fun k => execExitAdmissionLeave e.1 k)) ++
  s.frames.flatMap (fun e => [execOldestWavePromotion (e.1 / 128) (e.1 % 128), execWaitEntryRetry (e.1 / 128) (e.1 % 128),
    execSeqWaitRetry (e.1 / 128) (e.1 % 128)]) ++
  s.tiles.flatMap (fun e =>
    e.2.windows.map (fun w => execOwcBroadcast e.1 (w.1 % 32)) ++ [execMmatComplete e.1, execTileWake e.1] ++
    (List.range 4).map (fun c => execContextSelection e.1 c)) ++
  s.cores.flatMap (fun e =>
    e.2.tcbs.flatMap (fun b => taskEvents e.1 b.1 b.2) ++
    e.2.copies.flatMap (fun q => [execCopyStart e.1 q.1, execCopyBeat e.1 q.1, execCopyEnd e.1 q.1])) ++
  (List.range s.forks.length).map (fun k => execSqforkCopyEnd k) ++
  s.ringEvents ++
  s.fabric.flatMap (fun f => fabricEvents f.1 f.2) ++
  s.parts.flatMap (fun p => if p.2.resetting then [execTenantReset p.1] else if p.2.phase = .halting then [execPreemptionSave p.1] else []) ++
  s.queues.map (fun q => execCommandQueueRead q.1) ++ [execMarchPlacement] ++
  s.tiles.flatMap (fun e => [execClockGatingEntry e.1, execPowerGatingEntry e.1])

end Sys2Proof.Machine
end

