-- ==== Sys2Proof/Machine/Step.lean ====
section
/-!
DEFINITION. Machine/Step.lean: one step of the machine: a move of the environment, an instruction of the context that issues,
or an event that the hardware is ready to make. It only calls what the other files define.
-/

namespace Sys2Proof.Machine

/-- An outcome with something done on its next state. -/
def andThen (o : Host.Outcome State Fault Refusal) (f : State → State) : Host.Outcome State Fault Refusal :=
  match o with
  | .next s => .next (f s)
  | .fault r => .fault r
  | .refused r => .refused r

/-- Performs a word that has been latched: ILL where it is no instruction (spec/09 R200, R202 step 4). -/
def performWord (s : State) (w : Word) : Host.Outcome State Fault Refusal :=
  match decodeWord w with
  | some i => exec i s
  | none => .next (s.takeTrap (s.faultOf Cause.ill))

/-- The instruction of the context in focus, in the order of spec/09 R202. -/
def issue (s : State) : Host.Outcome State Fault Refusal :=
  if (s.tile s.curTile).hbudget ≤ s.cur.issued then exec .budget s.latchNext
  else
    match s.fetch with
    | .beyond => .next (s.fetchTrap 0 4 0xFFFF Cause.ill 2)
    | .badCode p => .next (s.fetchTrap 0 1 ((p.extractLsb' 0 10).setWidth 16) Cause.dict 4)
    | .code i =>
      if (s.tile s.curTile).dictSize ≤ i.toNat then exec (.dictionaryCode i) s
      else
        match exec (.dictionaryCode i) s with
        | .next s1 => performWord s1 s1.cur.word
        | o => o
    | .word w => performWord (s.latch w 4 0xFFFF) w

/-- Whether an instruction is an event of the table, not an instruction of a code stream. -/
def isEvent (i : Instr) : Bool :=
  match i with
  | .dictionaryCode _ => false
  | j => j.fields.isNone

/-- A move of the environment (log entry 1). -/
def doMove (m : Move) (s : State) : Host.Outcome State Fault Refusal :=
  match m with
  | .ev i => if isEvent i then exec i s else .fault .notAnEvent
  | .clk => .next s
  | .flip n bit => .next (s.flipHeader n bit)
  | .upset pa => .next (s.upsetByte pa)
  | .evict n => .next (s.dropLine n)
  | .lose n => .next (s.loseFragment n)
  | .loseSig d n => .next (s.loseSignal d n)
  | .evictFrame t => .next (s.evictLru t)
  | .staged st => .next (s.stageTile st)

/-- The first of some events that changes the machine. -/
def firstEvent (s : State) : List (State → Host.Outcome State Fault Refusal) → Option State
  | [] => none
  | e :: l =>
    match e s with
    | .next s1 => if s1 = s then firstEvent s l else some s1
    | _ => firstEvent s l

/-- The turn of the events: held contexts may try again, and one event that the hardware is ready for is made. -/
def eventTurn (s : State) : Option State := firstEvent s.unhold s.unhold.readyEvents

/-- The turn of the sequencers: of the contexts with an instruction ready to issue, the first that does issue; one whose instruction holds
gives way to the next (spec/06 R132). -/
def issueTurn : (fuel : Nat) → State → Host.Outcome State Fault Refusal
  | 0, s => .next s
  | n + 1, s =>
    match s.pick with
    | none => .next s
    | some k =>
      match issue (s.focusOn k) with
      | .next s1 =>
        if s1.heldAt k then issueTurn n { s1 with focus := s.focus } else .next (State.noteIssue s k (s1.issuedFrom k))
      | o => o

/-- One step. -/
def step (s : State) : Host.Outcome State Fault Refusal :=
  match s.agenda with
  | m :: rest => andThen (doMove m { s with agenda := rest }) State.finishStep
  | [] =>
    if s.turn then
      match eventTurn { s with turn := false } with
      | some s1 => .next s1.finishStep
      | none => .next ({ s with turn := false }).unhold.finishStep
    else
      andThen (issueTurn (s.ctxs.length + 1) { s with turn := true }) State.finishStep

/-- The machine with the instruction whose bits are w (numbered as spec/opcode_table.json numbers them) as the next that
step performs: its parcels at parcel 0 of the tile in focus, which is awake, and the context in focus running an activation at
parcel 0 that is not held while no other context is ready, no move of the environment stands before it, and the budget is not
spent. A program otherwise comes to run as log entry 14 says. -/
def State.withFetchWord (s : State) (nbits w : Nat) : State :=
  let v := w % 2 ^ nbits
  let t := s.tile s.curTile
  let ps := (List.range 4).map (fun i => (i, BitVec.ofNat 16 (v >>> (16 * i))))
  let c := s.cur
  { s with agenda := [], turn := false,
           tiles := lset s.tiles s.curTile { t with code := ps, codeLen := 4, gate := .awake },
           ctxs := lset (s.ctxs.map (fun e => (e.1, { e.2 with held := true }))) s.focus
             { c with busy := true, ip := 0, issued := 0, held := false, pend := none, kept := none, ended := false, stop := none } }

end Sys2Proof.Machine
end

