-- ==== Sys2Proof/Safety.lean ====
section
/-!
DEFINITION. Safety.lean: the words that the statements use: a machine in good form, the conditions under which an instruction is
performed, and what an instruction leaves as it was.
-/

namespace Sys2Proof
open Machine

/-- What the model answers for one step or instruction. -/
abbrev Outcome := Host.Outcome State Fault Refusal

/-- Memory and tile memory keep their canonical form: equal memories are equal lists. -/
abbrev Safe (s : State) : Prop := Memory.wf s.mem ∧ Memory.wf s.tmem

/-! When an instruction is performed (spec/09 R191, spec/11 R220). -/

/-- The predicate holds and no source waits for a load. -/
def Ready (s : State) (p : Pred) (rs : List SReg) (vs : List VReg) : Prop :=
  s.holds p = true ∧ s.srcReady rs vs = true

/-- Every vector source and the vector destination is configured for the activation's slot, a beat stands at every source channel, and
the assembly pool has room (spec/09 R190, spec/16 R316). -/
def ChansReady (s : State) (srcs : List VSrc) (d : Option VDst) : Prop :=
  (∀ c ∈ srcs.filterMap VSrc.chan?, s.srcOk c = true ∧ s.slotPresent c = true) ∧
  (∀ c ∈ (d.bind VDst.chan?).toList, s.dstOk c = true ∧ s.poolUsed < Config.poolBeats)

/-! What an instruction leaves as it was. -/

/-- The activation stays on its context. -/
def StaysOn (s t : State) : Prop :=
  t.cur.busy = s.cur.busy ∧ t.cur.aid = s.cur.aid ∧ t.cur.frame = s.cur.frame ∧ t.cur.col = s.cur.col ∧
  t.cur.wave = s.cur.wave ∧ t.cur.rtag = s.cur.rtag ∧ t.cur.opsl = s.cur.opsl

/-- IP moves past the instruction. -/
def NextInstr (s t : State) : Prop := t.cur.ip = s.cur.ip + BitVec.ofNat 32 s.cur.len

/-- Every register but the listed ones keeps its value. -/
def KeepsRegs (s t : State) (ss : List SReg) (vs : List VReg) (ps : List PReg) (ms : List MReg) : Prop :=
  (∀ r, r ∉ ss → t.rdS r = s.rdS r) ∧ (∀ r, r ∉ vs → t.rdV r = s.rdV r) ∧
  (∀ r, r ∉ ps → t.rdP r = s.rdP r) ∧ (∀ r, r ∉ ms → t.rdM r = s.rdM r)

/-- Nothing of the machine changes but the context in focus: no other context, no byte of memory, no flag, no special register, no
accumulator, no queue. -/
def OnlyFocus (s t : State) : Prop :=
  t = { s with ctxs := t.ctxs } ∧ ∀ k, k ≠ s.focus → t.ctx k = s.ctx k

/-- Nothing changes but the context in focus and FSTAT of its slot and colour, which takes some flags (spec/04 R89). -/
def OnlyFlags (s t : State) (fl : Flags) : Prop :=
  t = { s with ctxs := t.ctxs, tiles := t.tiles } ∧ (∀ k, k ≠ s.focus → t.ctx k = s.ctx k) ∧
  (∀ k, k ≠ s.curTile → t.tile k = s.tile k) ∧
  t.tile s.curTile = { s.tile s.curTile with fstat := (t.tile s.curTile).fstat } ∧
  (∀ k, k ≠ s.slotColour → lget 0 (t.tile s.curTile).fstat k = lget 0 (s.tile s.curTile).fstat k) ∧
  lget 0 (t.tile s.curTile).fstat s.slotColour = s.fstat ||| fl

/-- Nothing changes but the context in focus and the tile in focus, whose part named by a change takes a new value. -/
def OnlyTile (s t : State) (x : Tile) : Prop :=
  t = { s with ctxs := t.ctxs, tiles := t.tiles } ∧ (∀ k, k ≠ s.focus → t.ctx k = s.ctx k) ∧
  (∀ k, k ≠ s.curTile → t.tile k = s.tile k) ∧ t.tile s.curTile = x

/-! How an instruction completes. -/

/-- It writes one scalar register (s0 discards the write) and does nothing else but go on. -/
def WritesS (s : State) (o : Outcome) (d : SReg) (v : Word) : Prop :=
  ∃ t, o = .next t ∧ t.rdS d = (if d = 0 then 0 else v) ∧ KeepsRegs s t [d] [] [] [] ∧
    OnlyFocus s t ∧ StaysOn s t ∧ NextInstr s t

/-- It writes one predicate (p0 discards the write) and does nothing else but go on. -/
def WritesP (s : State) (o : Outcome) (d : PReg) (v : Bool) : Prop :=
  ∃ t, o = .next t ∧ t.rdP d = (if d = 0 then true else v) ∧ KeepsRegs s t [] [] [d] [] ∧
    OnlyFocus s t ∧ StaysOn s t ∧ NextInstr s t

/-- It writes one mask register and does nothing else but go on. -/
def WritesM (s : State) (o : Outcome) (d : MReg) (v : Word) : Prop :=
  ∃ t, o = .next t ∧ t.rdM d = v ∧ KeepsRegs s t [] [] [] [d] ∧ OnlyFocus s t ∧ StaysOn s t ∧ NextInstr s t

/-- It writes one vector register and does nothing else but go on. -/
def WritesV (s : State) (o : Outcome) (d : VReg) (v : Vec) : Prop :=
  ∃ t, o = .next t ∧ t.rdV d = v ∧ KeepsRegs s t [] [d] [] [] ∧ OnlyFocus s t ∧ StaysOn s t ∧ NextInstr s t

/-- It writes one scalar register, and FSTAT takes some flags. -/
def WritesFp (s : State) (o : Outcome) (d : SReg) (v : Word) (fl : Flags) : Prop :=
  ∃ t, o = .next t ∧ t.rdS d = (if d = 0 then 0 else v) ∧ KeepsRegs s t [d] [] [] [] ∧
    OnlyFlags s t fl ∧ StaysOn s t ∧ NextInstr s t

/-- It only goes on. -/
def OnlyAdvances (s : State) (o : Outcome) : Prop :=
  ∃ t, o = .next t ∧ KeepsRegs s t [] [] [] [] ∧ OnlyFocus s t ∧ StaysOn s t ∧ NextInstr s t

/-- It moves IP and does nothing else. -/
def Jumps (s : State) (o : Outcome) (ip : BitVec 32) : Prop :=
  ∃ t, o = .next t ∧ t.cur.ip = ip ∧ KeepsRegs s t [] [] [] [] ∧ OnlyFocus s t ∧ StaysOn s t

/-- It writes a scalar register and moves IP. -/
def JumpsWith (s : State) (o : Outcome) (d : SReg) (v : Word) (ip : BitVec 32) : Prop :=
  ∃ t, o = .next t ∧ t.rdS d = (if d = 0 then 0 else v) ∧ t.cur.ip = ip ∧ KeepsRegs s t [d] [] [] [] ∧
    OnlyFocus s t ∧ StaysOn s t

/-- A vector result goes to its destination (spec/12 R242): the sources' channels are popped once each, FSTAT takes the flags, the
register is written or the beat appended, and the next instruction follows. -/
def GivesV (s : State) (o : Outcome) (srcs : List VSrc) (d : VDst) (v : Vec) (scale : BitVec 16) (fl : Flags) : Prop :=
  o = .next (((s.addFlags fl).popAll srcs).put d v scale).advance

/-- No flag of some lanes is enabled to trap (spec/04 R90). -/
def NoTrap (s : State) (fl : Flags) : Prop := fl &&& s.enabled = 0

/-- Lanes of a vector of width w: lane i of v is f i, for each of n lanes. -/
def LanesAre (w n : Nat) (v : Vec) (f : Nat → Nat) : Prop := ∀ i, i < n → lane w v i = f i % 2 ^ w

/-! Bigger frames. -/

/-- Every byte of memory and of tile memory, and every word state, is as it was. -/
def KeepsMem (s t : State) : Prop :=
  (∀ a, mget t.mem a = mget s.mem a) ∧ (∀ a, mget t.tmem a = mget s.tmem a) ∧ ∀ a, t.feOf a = s.feOf a

/-- The bytes [a, a + n) of a memory hold the low bytes of a number, and every other byte is as it was. -/
def Stored (m m' : List Host.Cell) (a n v : Nat) : Prop :=
  (∀ i, i < n → mget m' (a + i) = BitVec.ofNat 8 (v / 256 ^ i)) ∧ ∀ x, x < a ∨ a + n ≤ x → mget m' x = mget m x

/-- The instruction has been performed and goes on: no register has changed. -/
def GoesOn (s t : State) : Prop := KeepsRegs s t [] [] [] [] ∧ StaysOn s t ∧ NextInstr s t

/-- t is u, but that some parked continuations, whose cause to wait is gone, are runnable; one that a late fault has marked trapped keeps
that its cause is gone until TRET (spec/02 R52, spec/15 R302). -/
def Woken (u t : State) : Prop :=
  t = { u with frames := t.frames } ∧ ∀ k,
    let f := u.frame k
    let met := f.waitOver || State.overOnce f.wait
    t.frame k = f ∨ (f.cont = .parked ∧ t.frame k = if f.lateMark then { f with removed := true, waitOver := met }
      else { f with cont := .runnable, readyAt := u.clkOf (k / 4096), waitOver := met, promoted := none })

/-- It traps precisely with a cause: none of its effects happens (spec/10 R208). -/
def Traps (s : State) (o : Outcome) (c : BitVec 8) : Prop :=
  ∃ i : TrapInfo, o = .next (s.takeTrap i) ∧ i.cause = c ∧ i.ip = s.cur.ip ∧ i.word = s.cur.word ∧ i.flags.getLsbD 0 = false

/-- It is held: it tries again, and nothing else changes. -/
def Holds (s : State) (o : Outcome) : Prop :=
  ∃ t, o = .next t ∧ t.cur.held = true ∧ t.cur.ip = s.cur.ip ∧ KeepsRegs s t [] [] [] [] ∧ OnlyFocus s t ∧ StaysOn s t

/-- A panel of tile memory lies aligned in the data half (spec/13 R267), no earlier access of the activation to it is still to be
performed, and none of its bytes is uncorrectable. -/
def PanelOk (s : State) (off n : Nat) : Prop :=
  off % 64 = 0 ∧ 0x40000 ≤ off ∧ off + n ≤ 0x80000 ∧ s.tsBusy off n = false ∧ s.hasUce (2 ^ 48 + s.curTile * 0x80000 + off) n = false

/-! What rides the fabric (spec/08 R162). -/

/-- Nothing changes but what the sending of requests and answers changes. -/
def OnFabric (u t : State) : Prop := t = { u with trips := t.trips, fabric := t.fabric, flights := t.flights, nextId := t.nextId }

/-- What stands for one who asks: a message for each of some nodes, sent by `src` or back to it, not delivered yet. -/
def Stands (t : State) (who : List Nat) (src : Nat) (back : Bool) (hs : List Nat) : Prop :=
  ∃ x, t.tripOfKey who = some x ∧ x.src = src ∧ x.back = back ∧ x.lost = false ∧ x.nums.length = hs.length ∧
    ∀ (i h n : Nat), hs[i]? = some h → x.nums[i]? = some n → ∃ m ∈ (t.fab ((if back then h else src) / 512)).msgs, m.num = n ∧ m.done = false ∧
      m.src = (if back then h else src) ∧ m.dst = (if back then src else h) ∧ m.what = if back then .reply else .request

/-- The request of the instruction in focus has come to every home. -/
def HasCome (s : State) (x : Trip) : Prop :=
  s.tripOfKey s.tripHere.who = some x ∧ x.src = s.tripHere.src ∧ x.back = false ∧ s.tripDone x = true

/-- The instruction in focus has asked nothing yet. -/
def NotAsked (s : State) : Prop := s.tripOfKey s.tripHere.who = none

/-- The request of an instruction leaves for some nodes, and the instruction is held; no register and no byte changes. -/
def Asks (s : State) (o : Outcome) (hs : List Nat) : Prop :=
  ∃ t, o = .next t ∧ t.cur.held = true ∧ t.cur.ip = s.cur.ip ∧ StaysOn s t ∧ KeepsRegs s t [] [] [] [] ∧
    OnFabric { s with ctxs := t.ctxs } t ∧ (∀ k, k ≠ s.focus → t.ctx k = s.ctx k) ∧ Stands t s.tripHere.who s.tripHere.src false hs

/-! Accesses. -/

/-- What an instruction asks of memory passes its checks at issue (spec/15 R300), its count has room (spec/19 R381), and it starts no
copy. -/
def MayIssue (s : State) (x : Want) (es : List Elem) : Prop :=
  s.check x = .ok es ∧ s.countFull (s.mkAccess x es) = false ∧ ∀ e ∈ es, ∀ c ch off, placeOf e.pa ≠ .aperture c ch off

/-- The destination of a load waits for the access that has just been numbered, with those that it waited for before. -/
def Awaits (s t : State) (x : Want) : Prop :=
  (x.kind = .ld ∨ x.kind = .feget → x.dst ≠ 0 → lget? t.cur.pendS x.dst = some (lget [] s.cur.pendS x.dst ++ [s.nextId])) ∧
  (x.kind = .vld ∨ x.kind = .vldg → lget? t.cur.pendV x.dst = some (lget [] s.cur.pendV x.dst ++ [s.nextId]))

/-- An access that is no chain access is on its way (spec/15 R305): it stands last among the outstanding ones, and nothing of the machine
changes but the context in focus, which goes on and waits for it where it is a load (spec/11 R220). -/
def IssuesPlain (s : State) (o : Outcome) (x : Want) : Prop :=
  ∀ es, MayIssue s x es → x.mf.seq = 0 → x.mf.ts = false →
    ∃ t, o = .next t ∧ GoesOn s t ∧ t.accesses = s.accesses ++ [s.mkAccess x es] ∧
      t = { s with ctxs := t.ctxs, accesses := t.accesses, nextId := s.nextId + 1 } ∧ (∀ k, k ≠ s.focus → t.ctx k = s.ctx k) ∧ Awaits s t x

/-- A chain access is on its way (spec/05 R104, R106): it takes an entry of its region's replay buffer, which starts a chain or joins an open
one; it waits for one where none is free or an earlier chain access of its activation waits; a chain that is closed counts it in LINKLATE and
lets it go as if its SEQ were 0. -/
def IssuesChained (s : State) (o : Outcome) (x : Want) : Prop :=
  ∀ es, MayIssue s x es → x.mf.seq ≠ 0 → (x.mf.ts = false ∨ (s.tile s.curTile).mmats = []) → (∀ b ∈ s.accesses, b.id < s.nextId) →
    let a := s.mkAccess x es
    let reg := s.region a.region
    let item : ChainItem := { seq := a.seq, sd := a.sd, acc := a.id }
    let first := ∀ b ∈ s.accesses, b.aid = a.aid → b.seq ≠ 0 → b.freed = false → s.arrived b = true
    let room := s.chainUsed a.region < 256 * reg.cores.length
    (∀ c, s.chainOf a = some c → ∀ i ∈ c.items, i.acc ≠ s.nextId) →
    ∃ t, o = .next t ∧ GoesOn s t ∧ t = { s with ctxs := t.ctxs, accesses := t.accesses, regions := t.regions, nextId := s.nextId + 1 } ∧
      (∀ k, k ≠ s.focus → t.ctx k = s.ctx k) ∧ (∀ r, r ≠ a.region → t.region r = s.region r) ∧ Awaits s t x ∧
      (s.chainOf a = none → first → room → t.accesses = s.accesses ++ [a] ∧ t.region a.region = { reg with
        chains := reg.chains ++ [{ col := a.col, wave := a.wave, sub := a.sub, items := [item] }] }) ∧
      (∀ c, s.chainOf a = some c → c.closed = false → first → room →
        t.accesses = s.accesses ++ [a] ∧ t.chainOf a = some { c with items := c.items ++ [item] }) ∧
      (∀ c, s.chainOf a = some c → c.closed = true → first → t.accesses = s.accesses ++ [{ a with seq := 0, freed := true }] ∧
        t.region a.region = { reg with linklate := min (2 ^ 32 - 1) (reg.linklate + 1) }) ∧
      (¬ first ∨ ((∀ c, s.chainOf a = some c → c.closed = false) ∧ ¬ room) → t.accesses = s.accesses ++ [a] ∧ t.region a.region = reg)

/-- An access of some kind is on its way, with SEQ 0 or not. -/
def Issues (s : State) (o : Outcome) (x : Want) : Prop := IssuesPlain s o x ∧ IssuesChained s o x

/-- Nothing of the activation in focus is outstanding or waits to be taken, and no access has a number still to be given. -/
def Quiet (s : State) : Prop :=
  s.runningOn s.cur.aid = some s.focus ∧ s.cur.pend = none ∧ (s.tile s.curTile).mmats = [] ∧
  (∀ a ∈ s.accesses, a.aid ≠ s.cur.aid ∧ a.id < s.nextId) ∧ ∀ y ∈ s.replies, y.acc.aid ≠ s.cur.aid

/-- What an operation that holds its activation asks of memory passes its checks, and nothing of the activation blocks it. -/
def MaySync (s : State) (x : Want) (es : List Elem) : Prop :=
  s.check x = .ok es ∧ (∀ a ∈ s.accesses, a.aid ≠ s.cur.aid ∧ a.id < s.nextId) ∧ (∀ y ∈ s.replies, y.acc.aid ≠ s.cur.aid) ∧
  (s.tile s.curTile).mmats = []

/-- The park set and the continuation word as they are saved in the frame (spec/02 R40, R51): registers s1 to s15, v0 to v7, m0 to m3, p1 to p3, and
IP with the pcause; every other byte of tile memory but some given ones is as it was. -/
def SavedSet (s t : State) (pcause : Nat) (ip : BitVec 32) (other : Nat → Prop) : Prop :=
  let b := s.curTile * 0x80000 + s.fp
  (∀ i : Nat, i < 8 → mread t.tmem (b + 0x400 + 64 * i) 64 = (s.rdV (BitVec.ofNat 5 i)).toNat) ∧
  (∀ i : Nat, i < 15 → mread t.tmem (b + 0x600 + 8 * i) 8 = (s.rdS (BitVec.ofNat 6 (i + 1))).toNat) ∧
  (∀ i : Nat, i < 4 → mread t.tmem (b + 0x678 + 8 * i) 8 = (s.rdM (BitVec.ofNat 3 i)).toNat) ∧
  mread t.tmem (b + 0x698) 8 = ip.toNat + (if s.rdP 1 then 2 ^ 32 else 0) + (if s.rdP 2 then 2 ^ 33 else 0) +
    (if s.rdP 3 then 2 ^ 34 else 0) + pcause * 2 ^ 40 ∧
  ∀ x, x < b + 0x400 ∨ b + 0x6A0 ≤ x → ¬ other x → mget t.tmem x = mget s.tmem x

/-- The activation parks (spec/02 R51, R52): its set is saved, its continuation waits, its context is free; nothing else changes but what
the wake-up of continuations changes. Where the region holds a poison mark its frame may be pinned besides (spec/21 R420). -/
def Parks (s : State) (o : Outcome) (pcause : Nat) (w : Wait) (ip : BitVec 32) : Prop :=
  (s.region s.curRegion).marks = [] → s.oldCount s.cur.aid = 0 →
  ∃ u t, o = .next t ∧ Woken u t ∧ u = { s with ctxs := u.ctxs, frames := u.frames, tmem := u.tmem } ∧
    SavedSet s u pcause ip (fun _ => False) ∧ u.ctx s.focus = {} ∧ (∀ k, k ≠ s.focus → u.ctx k = s.ctx k) ∧
    u.frame s.curFrameKey = { s.curFrame with cont := .parked, wait := w, lateMark := false, removed := false, trapLate := false,
                                              waitOver := s.cur.waitOver, promoted := none, used := s.now } ∧
    ∀ k, k ≠ s.curFrameKey → u.frame k = s.frame k

/-- A trap record with NOCONT has been raised for a region (spec/21 R414, R417): it is on its way to the trap operator, behind the records of
some list; for a region that has none, the log of the partition gets an entry, and the hub owes a purge. -/
def Raises (sent : List Transit) (s t : State) (r p : Nat) (c : BitVec 8) : Prop :=
  ((s.region r).trapv = true → ∃ l x, t.transit = sent ++ l ++ [x] ∧ x.dst = .slot (s.trapTileOf r) 63 ∧ x.rc.beats.length = 4 ∧
    (x.rc.beats.headD 0).extractLsb' 0 8 = c ∧ (x.rc.beats.headD 0).getLsbD 11 = true) ∧
  ((s.region r).trapv = false → (t.part p).log.head = (s.part p).log.head + 1 ∧
    ∃ o, t.purges = s.purges ++ [o] ∧ o.region = r ∧ o.cause = c)

/-- A record whose header is damaged is dropped (spec/02 R37): its channel counts it, and it is reported with the raw header and the channel, to
the trap operator of a region that has one and an armed colour, else in the log of the partition of a core. u is the machine without the
record, t the machine after. -/
def DropsDamaged (u : State) (x : Transit) (r core : Nat) (t : State) : Prop :=
  let told := (u.region r).trapv = true ∧ (u.region r).colours.any (fun y => kArmed y.2) = true
  lget 0 (t.tile x.cherr.1).cherr x.cherr.2 = min 0xFFFF (lget 0 (u.tile x.cherr.1).cherr x.cherr.2 + 1) ∧
  t.frames = u.frames ∧ t.purges = u.purges ∧ t.regions = u.regions ∧
  (told → t = { u with tiles := t.tiles, transit := t.transit } ∧ ∃ y, t.transit = u.transit ++ [y] ∧ y.dst = .slot (u.trapTileOf r) 63 ∧
    y.rc.beats.length = 4 ∧ (y.rc.beats.headD 0).extractLsb' 0 8 = Cause.uce ∧ (y.rc.beats.headD 0).getLsbD 11 = true ∧
    (y.rc.beats.headD 0).extractLsb' 272 16 = BitVec.ofNat 16 x.cherr.2 ∧ (y.rc.beats.headD 0).extractLsb' 384 64 = x.rc.hdr) ∧
  (¬ told → t.transit = u.transit ∧ (t.part (u.partOf core)).log.head = (u.part (u.partOf core)).log.head + 1)

/-- A record goes into its colour's spill ring (spec/02 R45, spec/16 R320): into the lowest entry that holds none, behind the records there, or in
its place among them where it stood in a wake buffer or in the ring before; its beats are written to the entry, 64 bytes apart. -/
def Spills (u : State) (x : Transit) (r : Nat) (frozen : Bool) (t : State) : Prop :=
  let c := (rhCol x.rc.hdr).toNat
  let col := u.colour r c
  let e := lget 0 (u.region r).colours c
  ∃ i l1 l2, col.spill = l1 ++ l2 ∧ t.colour r c = { col with spill := l1 ++ { tr := x, entry := i, frozen := frozen } :: l2 } ∧
    (x.ahead = 0 → l2 = []) ∧ (1 < x.ahead → l1 = []) ∧ (∀ y ∈ col.spill, y.entry ≠ i) ∧ (∀ j, j < i → ∃ y ∈ col.spill, y.entry = j) ∧
    (u.migs = [] → i < kSpilln e → ∀ j, j < x.rc.beats.length →
      mread t.mem (kSpillpa e + i * 5120 + 64 * j) 64 = (x.rc.beats.getD j 0).toNat)

/-- Nothing changes but what a record put into a spill ring changes. -/
def OnlySpills (u t : State) : Prop :=
  t = { u with regions := t.regions, mem := t.mem, uce := t.uce, lines := t.lines, reveals := t.reveals, pages := t.pages, migs := t.migs }

/-- A record that has reached an operator slot of a tile is taken in: dropped with its header's parity, discarded as stale, held at a poison mark,
sent to its conversion node, refused with CHAN, landed in its frame, or spilled (spec/02 R37, R43, R45, R49, spec/16 R317, R318, spec/21 R419). u is the
machine without the record, t the machine after. -/
def Arrives (u : State) (x : Transit) (T ch : Nat) (replay : Bool) (t : State) : Prop :=
  let h := x.rc.hdr
  let c := rhCol h
  let w := rhWave h
  let r := u.tileRegion T
  let e := u.chan T ch c w
  let slot := cISlot e
  let hd := u.handler T slot.toNat c w
  let n := x.rc.beats.length
  let base := cBase e
  let d := waveDiff w (lget 0 (u.tile T).owc c.toNat)
  let k := u.frameFor r T slot.toNat c w
  let f := u.frame k
  let col := u.colour r c.toNat
  let spilled := fun (frozen : Bool) => Spills u x r frozen t
  let marked := ∃ m ∈ (t.region r).marks, m.fixed = false ∧ m.tile = T ∧ m.op = slot.toNat ∧ m.col = c ∧ m.wave = w
  let stale := d < 0 ∨ kArmed (u.colourEntry r c w) = false
  let open_ := rhParityOk h = true ∧ ¬ stale ∧ u.marked r false T slot.toNat c w = false ∧ rhPoison h = false
  let format := (hFilter hd).getLsbD (rhFmt h).toNat = true
  let fits := d < kW (u.colourEntry r c w) ∧ (replay = true ∨ u.spilledBefore r T ch c w = false) ∧ u.slotsFree k ch slot c w base n = true
  (rhParityOk h = false → DropsDamaged u x r (T / 32) t) ∧
  (rhParityOk h = true → stale → t.colour r c.toNat = { col with stalew := min 0xFFFF (col.stalew + 1) } ∧ t = { u with regions := t.regions }) ∧
  (rhParityOk h = true → ¬ stale → u.marked r false T slot.toNat c w = true → spilled true ∧ OnlySpills u t) ∧
  (rhParityOk h = true → ¬ stale → u.marked r false T slot.toNat c w = false → rhPoison h = true → spilled true ∧ marked) ∧
  (open_ → ¬ format → cConv e ≠ 0xFF → t = { u with transit := { x with dst := .op r (cConv e) ch, left := 0, waits := [] } :: u.transit }) ∧
  (open_ → (¬ format ∧ cConv e = 0xFF) ∨ (format ∧ cBeats e < n) → marked ∧ Raises u.transit u t r (u.partOf (T / 32)) Cause.chan) ∧
  (open_ → format → n ≤ cBeats e → ¬ fits → spilled false ∧ OnlySpills u t) ∧
  (open_ → format → n ≤ cBeats e → fits →
    let f0 : Frame := if f.alloc then f else { alloc := true, opsl := slot, col := c, wave := w, rtag := rhRtag h, gen := f.gen + 1 }
    let g := t.frame k
    let fires := hV hd = true ∧ f0.cont = .none ∧ hFire hd ≠ 0 ∧ ∀ i, i < 16 → (hFire hd).getLsbD i = true → g.present.getLsbD i = true
    g.alloc = true ∧ g.opsl = f0.opsl ∧ g.col = f0.col ∧ g.wave = f0.wave ∧ g.rtag = f0.rtag ∧ g.gen = f0.gen ∧ lget? g.hdrs ch = some h ∧
    lget? g.cursors ch = some base ∧ (∀ i, i < 16 → g.present.getLsbD i = (f0.present.getLsbD i || decide (base ≤ i ∧ i < base + n))) ∧
    (fires → g.cont = .fresh ∧ g.readyAt = u.clkOf (k / 4096)) ∧ (¬ fires → g.cont = f0.cont) ∧ (∀ j, j ≠ k → t.frame j = u.frame j) ∧
    t = { u with frames := t.frames, tmem := t.tmem, mem := t.mem, lines := t.lines, pages := t.pages, uce := t.uce, migs := t.migs,
                 reveals := t.reveals } ∧
    (f.inHeap = false → (u.region r).marks = [] → base + n ≤ 16 → t.mem = u.mem ∧
      (∀ i, i < n → mread t.tmem (k / 128 * 0x80000 + k % 128 * 0x800 + 64 * (base + i)) 64 = (x.rc.beats.getD i 0).toNat) ∧
      let a := k / 128 * 0x80000 + k % 128 * 0x800 + 64 * base
      ∀ y, y < a ∨ a + 64 * n ≤ y → mget t.tmem y = mget u.tmem y))

end Sys2Proof
end

