-- ==== Sys2Proof/Certificates/Slice0/Obligations.lean ====
section
/-!
DEFINITION. Certificates/Slice0/Obligations.lean: the statements for the provers, in the words of Safety.lean. A statement that speaks of
an instruction says in its conclusion that the instruction answers a next state, and what that state holds.
-/

open Sys2Proof Sys2Proof.Machine

/-! Encoding. -/

/-- spec/09 R186, spec/11, spec/12, spec/13, spec/15, spec/17, spec/18, spec/20: words written out from the encoding tables, one or more of every
family, decode to the instructions they stand for. -/
def Obligations.WordsOfEachFamilyDecode : Prop :=
  decodeWord 0x4080030102000000#64 = some (.add ⟨0, false⟩ 3 1 2) ∧
  decodeWord 0x46C8010203000000#64 = some (.cmp ⟨0, false⟩ .lt 1 2 3) ∧
  decodeWord 0x474C010200000108#64 = some (.bfx ⟨0, false⟩ .i64 1 2 4 8) ∧
  decodeWord 0x4DC8010200000161#64 = some (.fcvt ⟨0, false⟩ .i32 1 2 .f32 .none .rz) ∧
  decodeWord 0x4E04010203000000#64 = some (.pand ⟨0, false⟩ true false 1 2 3) ∧
  decodeWord 0x8080010200000005#64 = some (.addi ⟨0, false⟩ 1 2 5) ∧
  decodeWord 0x502C020001007000#64 = some (.vadd ⟨0, false⟩ .f32 (.reg 2) (.reg 0) (.reg 1) ⟨3, true, false⟩ .none .rne) ∧
  decodeWord 0x59A0430000000008#64 = some (.vqnt ⟨0, false⟩ (.chan 3) 0 0 .sat .rne) ∧
  decodeWord 0x68EC0207000004A0#64 = some (.mwrr ⟨0, false⟩ .f32 2 (.reg 7) true 5) ∧
  decodeWord 0xC570060104057000#64 = some (.acas ⟨0, false⟩ ⟨.d, false, false, .ar, .device, 0, 0, 0⟩ 6 1 4 5) ∧
  decodeWord 0xD200000500000001#64 = some (.tret ⟨0, false⟩ 5 true) ∧
  decodeWord 0xD540410400000003#64 = some (.hdr ⟨0, false⟩ 1 4 3) ∧
  decodeWord 0xDD40000102001000#64 = some (.sqwait ⟨0, false⟩ 1 2 .device) ∧
  decodeWord 0xF000010203000000#64 = some (.cfgld ⟨0, false⟩ 1 2 3) ∧
  decodeWord 0x5BC0000000000000#64 = none ∧
  decodeWord 0x4000000000000001#64 = none ∧
  decodeWord 0x46E8010203000000#64 = none ∧
  decodeWord 0x4080034102000000#64 = none

/-- spec/09 R186, R188, R193: encoding then decoding gives back every well-formed instruction with every operand, so no bit of an encoding is dropped
or read twice; a dictionary code's parcel gives back its index. -/
def Obligations.DecodeOfEncodeIsIdentity : Prop :=
  (∀ (i : Instr) (w : Word), i.wf = true → encode i = some w → decodeWord w = some i) ∧
  (∀ n : BitVec 10, decodeCode (0#6 ++ n) = some (.dictionaryCode n))

/-- spec/09 R200: what the decoder accepts is well formed and encodes to the very word, so a nonzero unused field, a reserved code or a K bit on a
register is refused. -/
def Obligations.DecodedWordHasOneEncoding : Prop :=
  ∀ (w : Word) (i : Instr), decodeWord w = some i → i.wf = true ∧ encode i = some w ∧ w.extractLsb' 62 2 ≠ 0

/-- spec/09 R180, R181: the four parcels of a full word, the one with bits [63:48] first, decode to the word's instruction; a first parcel whose bits
[15:14] are 0 is a dictionary code whatever follows, and one with a nonzero reserved field is none. spec/09 R181: the fetch reads the parcels at IP
that CFGLD has loaded: one parcel for a dictionary code, four for a full word, the first in bits [63:48]; a parcel that is not loaded is a fetch
fault. -/
def Obligations.FetchOrder : Prop :=
  ((∀ (w : Word) (i : Instr), decodeWord w = some i →
     decodeParcels (w.extractLsb' 48 16) (w.extractLsb' 32 16) (w.extractLsb' 16 16) (w.extractLsb' 0 16) = some i) ∧
   (∀ (n : BitVec 10) (p q r : Parcel), decodeParcels (0#6 ++ n) p q r = some (.dictionaryCode n)) ∧
   (∀ (p q r t : Parcel), p.extractLsb' 14 2 = 0 → p.extractLsb' 10 4 ≠ 0 → decodeParcels p q r t = none)) ∧
  (∀ s : State,
     let a := s.cur.ip.toNat
     let loaded := fun (n : Nat) => lget? (s.tile s.curTile).code n ≠ none
     (¬ loaded a → s.fetch = .beyond) ∧
     (loaded a → (s.parcel a).extractLsb' 14 2 = 0 → (s.parcel a).extractLsb' 10 6 = 0 → s.fetch = .code ((s.parcel a).extractLsb' 0 10)) ∧
     (loaded a → (s.parcel a).extractLsb' 14 2 = 0 → (s.parcel a).extractLsb' 10 6 ≠ 0 → s.fetch = .badCode (s.parcel a)) ∧
     (loaded a → ¬ (loaded (a + 1) ∧ loaded (a + 2) ∧ loaded (a + 3)) → (s.parcel a).extractLsb' 14 2 ≠ 0 → s.fetch = .beyond) ∧
     (loaded a → loaded (a + 1) → loaded (a + 2) → loaded (a + 3) → (s.parcel a).extractLsb' 14 2 ≠ 0 →
       s.fetch = .word (s.parcel a ++ s.parcel (a + 1) ++ s.parcel (a + 2) ++ s.parcel (a + 3))))

/-! Reset and the step. -/

/-- spec/10 R205, R209, R214 to R217, spec/02 R50, spec/19 R380: every context register, special register, accumulator, token and counter after reset,
of every context and tile. spec/14 R282, spec/05 R107, spec/02 R39, spec/18: memory reads zero, scratchpad words are EMPTY, frames are free, no table
entry is valid, nothing is under way. spec/07 R154, spec/08 R166, spec/06 R124, spec/19 R389, spec/21 R425, spec/22 R435, R439: the firmware registers
after reset. The values of registers for which the spec states no reset value are the model's choice (log entry 3). -/
def Obligations.ResetState : Prop :=
  (let s := State.reset
   (∀ (k : Nat) (r : SReg), ({ s with focus := k } : State).rdS r = 0) ∧
   (∀ (k : Nat) (r : VReg), ({ s with focus := k } : State).rdV r = 0) ∧
   (∀ (k : Nat) (r : PReg), ({ s with focus := k } : State).rdP r = (r == 0)) ∧
   (∀ (k : Nat) (r : MReg), ({ s with focus := k } : State).rdM r = 0) ∧
   (∀ k : Nat, ({ s with focus := k } : State).fctl = 0 ∧ ({ s with focus := k } : State).fstat = 0) ∧
   (∀ t : Nat, (s.tile t).hmask = 0 ∧ (s.tile t).hbudget = 0x2000) ∧
   (∀ t a i j : Nat, s.accEl t a i j = 0 ∧ (s.accOf t a).valid = false) ∧
   (∀ t k : Nat, s.tokenOf t k = 0 ∧ lget 0 (s.tile t).cherr k = 0) ∧
   (∀ c b : Nat, (s.barrier c b).exp = 0 ∧ (s.barrier c b).arr = 0 ∧ (s.barrier c b).phase = 0) ∧
   (∀ d : Nat, s.cycOf d = 0)) ∧
  (let s := State.reset
   (∀ a n : Nat, mread s.mem a n = 0) ∧ (∀ t a n : Nat, s.tread t a n = 0) ∧
   (∀ k : Nat, lget 0 s.fe k = 0) ∧
   (∀ k : Nat, (s.frame k).alloc = false ∧ (s.frame k).present = 0 ∧ (s.frame k).cont = .none) ∧
   (∀ t n : Nat, hV (lget 0 (s.tile t).handlers n) = false ∧ cIV (lget 0xFF00000 (s.tile t).chans n) = false ∧
     cOV (lget 0xFF00000 (s.tile t).chans n) = false) ∧
   (∀ r c : Nat, kValid (lget 0 (s.region r).colours c) = false ∧ (s.region r).st = 0) ∧
   (∀ c : Nat, (s.core c).nTasks = 0 ∧ (s.core c).nTemplates = 0 ∧ (s.core c).region = none) ∧
   (∀ v : Nat, (lget 0 s.vmids v).getLsbD 0 = false) ∧ s.accesses = [] ∧ s.transit = [] ∧ s.walks = [] ∧ s.lines = [] ∧ s.uce = []) ∧
  (let s := State.reset
   s.ring.pace = 16 ∧ s.ring.minPace = 4 ∧ s.ring.paceEff = 16 ∧ s.ring.lead = 2 ∧
   (∀ e : Nat, lget 0 s.ring.lapn e = 0 ∧ riEn (s.image e) = false) ∧
   (∀ d : Nat, s.coderate d 0 = 0x00140201 ∧ s.coderate d 2 = 0x00140802 ∧ s.coderate d 5 = 0x00C81004 ∧ (s.fab d).lean = false ∧
     (s.fab d).latedrop = 0 ∧ (s.fab d).fragerr = 0 ∧ (s.fab d).decfull = 0 ∧ (s.fab d).nacks = 0 ∧ (s.fab d).retxn = 0 ∧
     (s.fab d).msgloss = 0) ∧
   s.hub.placeTh = 85 ∧ s.hub.throtTh = 95 ∧ s.hub.timingTh = 64 ∧ s.hub.wdogTh = 2 ^ 24 ∧ s.hub.tileCg = 256 ∧
   s.hub.tilePg = 2 ^ 20 ∧ s.hub.portup = 0 ∧
   (∀ p : Nat, (s.part p).share = 1 ∧ (s.part p).debt = 0 ∧ (s.part p).wholeFrozen = false))

/-- The invariant holds at reset: memory and tile memory are in canonical form. The canonical form is the model's own (spec/14 R282 gives what an
unlisted byte reads as). -/
def Obligations.ResetIsSafe : Prop :=
  Safe State.reset

/-- THE INVARIANT: whatever the state, a step that goes on keeps memory and tile memory in canonical form, so equal memories are equal data. The
canonical form is the model's own (spec/14 R282 gives what an unlisted byte reads as). -/
def Obligations.EveryStepKeepsMemoryCanonical : Prop :=
  ∀ s t : State, Safe s → step s = .next t → Safe t

/-- spec/09 R181, R183, R200: with no move of the environment before it, and an instruction turn of a context whose budget is not spent, step is exec
of the instruction that the parcels at IP decode to, latched with its length and dictionary index; then the issue is noted and the step ends. A word
that is no instruction traps ILL instead. Where the instruction holds, the next context that is ready has the turn (spec/06 R132). The turns and the
agenda are the model's own (log entries 1, 2). -/
def Obligations.StepRunsDecodedInstruction : Prop :=
  ∀ (s : State) (k : Nat), s.agenda = [] → s.turn = false → s.pick = some k →
    let u := ({ s with turn := true } : State).focusOn k
    let v : State := { s with turn := true }
    let ends := fun (o : Outcome) => andThen (match o with
      | .next t => if t.heldAt k then issueTurn s.ctxs.length { t with focus := s.focus }
                   else .next (State.noteIssue v k (t.issuedFrom k))
      | o => o) State.finishStep
    u.cur.issued < (u.tile u.curTile).hbudget →
    (∀ (w : Word) (i : Instr), u.fetch = .word w → decodeWord w = some i → step s = ends (exec i (u.latch w 4 0xFFFF))) ∧
    (∀ (w : Word), u.fetch = .word w → decodeWord w = none →
      step s = ends (.next ((u.latch w 4 0xFFFF).takeTrap ((u.latch w 4 0xFFFF).faultOf Cause.ill)))) ∧
    (∀ (n : BitVec 10) (i : Instr), u.fetch = .code n → n.toNat < (u.tile u.curTile).dictSize →
      decodeWord (lget 0 (u.tile u.curTile).dict n.toNat) = some i →
      step s = ends (exec i (u.latch (lget 0 (u.tile u.curTile).dict n.toNat) 1 (n.setWidth 16))))

/-- spec/02 R53, spec/09 R200 to R202: a spent budget traps BUDGET in the place of the instruction at IP; a fetch beyond the code traps ILL and marks
a fetch fault; a code with a reserved field, or beyond the loaded dictionary, traps DICT. Each takes the trap of spec/10 R208. spec/02 R53, spec/09
R183: the rows BUDGET and DICTIONARY_CODE: the budget trap, and a code within the dictionary that takes the word it names for the instruction at its
own address, of length 1. -/
def Obligations.FetchBudgetAndDictionary : Prop :=
  (∀ s : State,
     ((s.tile s.curTile).hbudget ≤ s.cur.issued → issue s = .next (s.latchNext.takeTrap (s.latchNext.faultOf Cause.budget))) ∧
     (s.cur.issued < (s.tile s.curTile).hbudget → s.fetch = .beyond →
       ∃ i : TrapInfo, issue s = .next ((s.latch 0 4 0xFFFF).takeTrap i) ∧ i.cause = Cause.ill ∧ i.flags = 2) ∧
     (∀ p : Parcel, s.cur.issued < (s.tile s.curTile).hbudget → s.fetch = .badCode p →
       ∃ (i : TrapInfo) (d : BitVec 16), issue s = .next ((s.latch 0 1 d).takeTrap i) ∧ i.cause = Cause.dict) ∧
     (∀ n : BitVec 10, s.cur.issued < (s.tile s.curTile).hbudget → s.fetch = .code n → (s.tile s.curTile).dictSize ≤ n.toNat →
       ∃ i : TrapInfo, issue s = .next ((s.latch 0 1 (n.setWidth 16)).takeTrap i) ∧ i.cause = Cause.dict ∧ i.dindex = n.setWidth 16)) ∧
  ((∀ s : State, exec .budget s = .next (s.takeTrap (s.faultOf Cause.budget))) ∧
   (∀ (n : BitVec 10) (s : State), n.toNat < (s.tile s.curTile).dictSize →
     ∃ t, exec (.dictionaryCode n) s = .next t ∧ t.cur.word = lget 0 (s.tile s.curTile).dict n.toNat ∧ t.cur.len = 1 ∧
       t.cur.dindex = n.setWidth 16 ∧ t.cur.ip = s.cur.ip ∧ KeepsRegs s t [] [] [] [] ∧ OnlyFocus s t ∧ StaysOn s t))

/-! Registers and predicates. -/

/-- spec/09 R188: s0 reads zero and ignores writes, p0 reads 1 and ignores writes; a write of any other register is read back and leaves every other
register as it was. -/
def Obligations.HardwiredRegisters : Prop :=
  ∀ s : State,
    s.rdS 0 = 0 ∧ s.rdP 0 = true ∧ (∀ v : Word, s.wrS 0 v = s) ∧ (∀ v : Bool, s.wrP 0 v = s) ∧
    (∀ (d r : SReg) (v : Word), d ≠ 0 → (s.wrS d v).rdS r = if r = d then v else s.rdS r) ∧
    (∀ (d r : PReg) (v : Bool), d ≠ 0 → (s.wrP d v).rdP r = if r = d then v else s.rdP r) ∧
    (∀ (d r : VReg) (v : Vec), (s.wrV d v).rdV r = if r = d then v else s.rdV r) ∧
    (∀ (d r : MReg) (v : Word), (s.wrM d v).rdM r = if r = d then v else s.rdM r)

/-- spec/09 R191, R202: an instruction whose predicate is 0 writes no register, reads and pops no channel, appends no beat, makes no access and raises
no fault but PRIV: for every instruction of the opcode map, the next state differs in the issue count and IP only. An instruction of layout M with SEQ
≠ 0 sends a null entry (spec/09 R192) and stands in a statement of its own. -/
def Obligations.FalsePredicateOnlyAdvances : Prop :=
  ∀ (i : Instr) (f : Fields) (s : State), i.fields = some f → s.holds f.pred = false →
    (f.form = 3 → 0xC0 ≤ f.op.toNat → s.priv = true) →
    (f.form = 1 → f.op = 0x22 → f.d = 11 ∨ f.d = 12 → s.priv = true) →
    (f.form = 3 → f.op = 0x48 → s.trapMode = true) →
    (f.form = 3 → f.op.toNat < 0x40 → f.aux.extractLsb' 4 6 = 0) →
    OnlyAdvances s (exec i s)

/-- spec/09 R202, R203: step 5 does not depend on the predicate. Where the colour's entry in force has SYS clear and the slot is not the trap
operator's, every instruction of OP 0xC0 to 0xCC of format X and every MTS to HMASK or HBUDGET traps PRIV, whatever its predicate and operands. -/
def Obligations.PrivilegedInstructionsTrap : Prop :=
  ∀ (i : Instr) (f : Fields) (s : State), i.fields = some f →
    kSys (s.colourEntry s.curRegion s.cur.col s.cur.wave) = false → hTrapOp (s.handler s.curTile s.cur.opsl.toNat s.cur.col s.cur.wave) = false →
    ((f.form = 3 ∧ 0xC0 ≤ f.op.toNat) ∨ (f.form = 1 ∧ f.op = 0x22 ∧ (f.d = 11 ∨ f.d = 12))) →
    exec i s = .next (s.takeTrap (s.faultOf Cause.priv))

/-! Scalar instructions. -/

/-- spec/11 R222: the instructions of two scalar sources write the stated value and change nothing else. -/
def Obligations.ScalarTwoSourceResults : Prop :=
  ∀ (s : State) (p : Pred) (d a b : SReg), Ready s p [a, b] [] →
    let x := s.rdS a
    let y := s.rdS b
    let n := (y.extractLsb' 0 6).toNat
    WritesS s (exec (.add p d a b) s) d (x + y) ∧
    WritesS s (exec (.sub p d a b) s) d (x - y) ∧
    WritesS s (exec (.mul p d a b) s) d (x * y) ∧
    WritesS s (exec (.mulh p d a b) s) d (BitVec.ofInt 64 (x.toInt * y.toInt / 2 ^ 64)) ∧
    WritesS s (exec (.mulhu p d a b) s) d (BitVec.ofNat 64 (x.toNat * y.toNat / 2 ^ 64)) ∧
    WritesS s (exec (.and p d a b) s) d (x &&& y) ∧
    WritesS s (exec (.or p d a b) s) d (x ||| y) ∧
    WritesS s (exec (.xor p d a b) s) d (x ^^^ y) ∧
    WritesS s (exec (.andn p d a b) s) d (x &&& ~~~y) ∧
    WritesS s (exec (.shl p d a b) s) d (x <<< n) ∧
    WritesS s (exec (.shr p d a b) s) d (x >>> n) ∧
    WritesS s (exec (.sra p d a b) s) d (x.sshiftRight n) ∧
    WritesS s (exec (.rol p d a b) s) d (x.rotateLeft n) ∧
    WritesS s (exec (.min p d a b) s) d (if x.toInt < y.toInt then x else y) ∧
    WritesS s (exec (.max p d a b) s) d (if x.toInt < y.toInt then y else x) ∧
    WritesS s (exec (.minu p d a b) s) d (if x.toNat < y.toNat then x else y) ∧
    WritesS s (exec (.maxu p d a b) s) d (if x.toNat < y.toNat then y else x) ∧
    (∀ sh : BitVec 3, WritesS s (exec (.lea p d a b sh) s) d (x + (y <<< sh.toNat))) ∧
    (∀ c : PReg, WritesS s (exec (.sel p d a b c) s) d (if s.rdP c = true then x else y))

/-- spec/11 R222, R223: division never traps: it gives the quotient truncated toward zero and the remainder, and the stated values for b = 0 and for
−2^63 by −1. -/
def Obligations.DivisionNeverTraps : Prop :=
  ∀ (s : State) (p : Pred) (d a b : SReg), Ready s p [a, b] [] →
    let x := s.rdS a
    let y := s.rdS b
    ∃ q qu r ru : Word,
      WritesS s (exec (.div p d a b) s) d q ∧ WritesS s (exec (.divu p d a b) s) d qu ∧
      WritesS s (exec (.rem p d a b) s) d r ∧ WritesS s (exec (.remu p d a b) s) d ru ∧
      (y = 0 → q = -1 ∧ qu = -1 ∧ r = x ∧ ru = x) ∧
      (x = 0x8000000000000000 → y = -1 → q = x ∧ qu = 0 ∧ r = 0 ∧ ru = x) ∧
      (y ≠ 0 → qu.toNat = x.toNat / y.toNat ∧ ru.toNat = x.toNat % y.toNat) ∧
      (y ≠ 0 → ¬(x = 0x8000000000000000 ∧ y = -1) → q.toInt = x.toInt.tdiv y.toInt) ∧
      (y ≠ 0 → r = x - q * y) ∧ (r ≠ 0 → (r.toInt < 0 ↔ x.toInt < 0))

/-- spec/11 R222, R225: the instructions of one scalar source, and the bit-field instructions, bit by bit. -/
def Obligations.ScalarOneSourceResults : Prop :=
  ∀ (s : State) (p : Pred) (d a b : SReg), Ready s p [a, b] [] →
    let x := s.rdS a
    let y := s.rdS b
    WritesS s (exec (.mov p d a) s) d x ∧
    (∃ v, WritesS s (exec (.clz p d a) s) d v ∧ v.toNat ≤ 64 ∧ (x = 0 → v = 64) ∧
      (x ≠ 0 → x.getLsbD (63 - v.toNat) = true ∧ ∀ i, 63 - v.toNat < i → x.getLsbD i = false)) ∧
    (∃ v, WritesS s (exec (.popc p d a) s) d v ∧ v.toNat = ((List.range 64).filter (fun i => x.getLsbD i)).length) ∧
    (∃ v, WritesS s (exec (.brev p d a) s) d v ∧ ∀ i, i < 64 → v.getLsbD i = x.getLsbD (63 - i)) ∧
    (∀ ty, ty = .i8 ∨ ty = .i16 ∨ ty = .i32 →
      WritesS s (exec (.sext p ty d a) s) d ((x.setWidth ty.width).signExtend 64)) ∧
    (∀ ty, ty = .n8 ∨ ty = .n16 ∨ ty = .n32 →
      WritesS s (exec (.zext p ty d a) s) d ((x.setWidth ty.width).setWidth 64)) ∧
    (∀ (len : BitVec 7) (pos : BitVec 6), WF.fieldOk pos len = true →
      WritesS s (exec (.bfx p .n64 d a len pos) s) d ((x.extractLsb' pos.toNat len.toNat).setWidth 64) ∧
      WritesS s (exec (.bfx p .i64 d a len pos) s) d ((x.extractLsb' pos.toNat len.toNat).signExtend 64) ∧
      ∃ v, WritesS s (exec (.bfi p d a b len pos) s) d v ∧ ∀ i, i < 64 → v.getLsbD i =
        if pos.toNat ≤ i ∧ i < pos.toNat + len.toNat then y.getLsbD (i - pos.toNat) else x.getLsbD i)

/-- spec/11 R224, R231, R232: compares and predicate instructions write one predicate and nothing else. -/
def Obligations.CompareAndPredicateResults : Prop :=
  ∀ (s : State) (p : Pred) (d : PReg),
    (∀ (a b : SReg), Ready s p [a, b] [] →
      let x := s.rdS a
      let y := s.rdS b
      WritesP s (exec (.cmp p .eq d a b) s) d (decide (x = y)) ∧
      WritesP s (exec (.cmp p .ne d a b) s) d (decide (x ≠ y)) ∧
      WritesP s (exec (.cmp p .lt d a b) s) d (decide (x.toInt < y.toInt)) ∧
      WritesP s (exec (.cmp p .ge d a b) s) d (decide (y.toInt ≤ x.toInt)) ∧
      WritesP s (exec (.cmp p .le d a b) s) d (decide (x.toInt ≤ y.toInt)) ∧
      WritesP s (exec (.cmp p .gt d a b) s) d (decide (y.toInt < x.toInt)) ∧
      WritesP s (exec (.cmp p .ltu d a b) s) d (decide (x.toNat < y.toNat)) ∧
      WritesP s (exec (.cmp p .geu d a b) s) d (decide (y.toNat ≤ x.toNat)) ∧
      WritesP s (exec (.cmp p .leu d a b) s) d (decide (x.toNat ≤ y.toNat)) ∧
      WritesP s (exec (.cmp p .gtu d a b) s) d (decide (y.toNat < x.toNat))) ∧
    (∀ (a : SReg) (imm : BitVec 32), Ready s p [a] [] →
      let x := s.rdS a
      let y := imm.signExtend 64
      WritesP s (exec (.cmpi p .eq d a imm) s) d (decide (x = y)) ∧
      WritesP s (exec (.cmpi p .ne d a imm) s) d (decide (x ≠ y)) ∧
      WritesP s (exec (.cmpi p .lt d a imm) s) d (decide (x.toInt < y.toInt)) ∧
      WritesP s (exec (.cmpi p .ge d a imm) s) d (decide (y.toInt ≤ x.toInt)) ∧
      WritesP s (exec (.cmpi p .le d a imm) s) d (decide (x.toInt ≤ y.toInt)) ∧
      WritesP s (exec (.cmpi p .gt d a imm) s) d (decide (y.toInt < x.toInt)) ∧
      WritesP s (exec (.cmpi p .ltu d a imm) s) d (decide (x.toNat < y.toNat)) ∧
      WritesP s (exec (.cmpi p .geu d a imm) s) d (decide (y.toNat ≤ x.toNat)) ∧
      WritesP s (exec (.cmpi p .leu d a imm) s) d (decide (x.toNat ≤ y.toNat)) ∧
      WritesP s (exec (.cmpi p .gtu d a imm) s) d (decide (y.toNat < x.toNat))) ∧
    (∀ (ia ib : Bool) (a b : PReg), Ready s p [] [] →
      WritesP s (exec (.pand p ia ib d a b) s) d ((s.rdP a != ia) && (s.rdP b != ib)) ∧
      WritesP s (exec (.por p ia ib d a b) s) d ((s.rdP a != ia) || (s.rdP b != ib)) ∧
      WritesP s (exec (.pxor p ia ib d a b) s) d ((s.rdP a != ia) != (s.rdP b != ib)) ∧
      WritesP s (exec (.pnot p d a) s) d (!s.rdP a))

/-- spec/11 R232 to R234: the instructions of format I. spec/09 R188, spec/11 R222: NOP, and any instruction that writes s0 or p0, only goes on. -/
def Obligations.ImmediateResults : Prop :=
  (∀ (s : State) (p : Pred) (d a : SReg) (imm : BitVec 32), Ready s p [a] [] →
     let x := s.rdS a
     let e := imm.signExtend 64
     WritesS s (exec (.li p d imm) s) d e ∧
     WritesS s (exec (.lih p d a imm) s) d ((imm.setWidth 64) <<< 32 ||| (x.setWidth 32).setWidth 64) ∧
     WritesS s (exec (.addi p d a imm) s) d (x + e) ∧
     WritesS s (exec (.andi p d a imm) s) d (x &&& e) ∧
     WritesS s (exec (.ori p d a imm) s) d (x ||| e) ∧
     WritesS s (exec (.xori p d a imm) s) d (x ^^^ e) ∧
     WritesS s (exec (.muli p d a imm) s) d (x * e) ∧
     WritesS s (exec (.mini p d a imm) s) d (if x.toInt < e.toInt then x else e) ∧
     WritesS s (exec (.maxi p d a imm) s) d (if x.toInt < e.toInt then e else x) ∧
     (∀ n : BitVec 6, WritesS s (exec (.shli p d a n) s) d (x <<< n.toNat) ∧
       WritesS s (exec (.shri p d a n) s) d (x >>> n.toNat) ∧ WritesS s (exec (.srai p d a n) s) d (x.sshiftRight n.toNat)) ∧
     WritesS s (exec (.fli p .f32 d imm) s) d (imm.setWidth 64) ∧
     WritesS s (exec (.fli p .f64 d imm) s) d (BitVec.ofNat 64 (convert .f64 .f32 .rne .none imm.toNat).v) ∧
     (∀ (ty : Ty) (v : VReg), WF.vbcastiOk ty imm = true → ∃ z, WritesV s (exec (.vbcasti p ty v imm) s) v z ∧
       LanesAre ty.width ty.lanes z (fun _ => if ty = .i64 then e.toNat else imm.toNat))) ∧
  (∀ (s : State) (p : Pred), (Ready s p [] [] → OnlyAdvances s (exec (.nop p) s)) ∧
     (∀ a b : SReg, Ready s p [a, b] [] → OnlyAdvances s (exec (.add p 0 a b) s) ∧ OnlyAdvances s (exec (.cmp p .eq 0 a b) s)) ∧
     (∀ imm : BitVec 32, Ready s p [] [] → OnlyAdvances s (exec (.li p 0 imm) s)))

/-! Number formats and scalar floating point. -/

/-- spec/04 R82: rounding m × 2^e to a multiple of 2^(e + sh): each mode picks the neighbour that its rule names, with ties to even under RNE and to
the larger magnitude under RNA. `neg` is the sign of the result, whose magnitude is rounded. -/
def Obligations.RoundingPicksTheNamedNeighbour : Prop :=
  ∀ (m sh : Nat) (neg : Bool), 0 < sh →
    let x := lowerPart m 0 false (sh : Int)
    let r := fun rnd => if roundUp rnd neg (x.1 % 2 == 1) x.2.1 x.2.2.1 x.2.2.2 then x.1 + 1 else x.1
    x.1 = m / 2 ^ sh ∧ (x.2.1 = true ↔ m % 2 ^ sh ≠ 0) ∧
    r .rz = m / 2 ^ sh ∧
    r .ru = (if neg = false ∧ m % 2 ^ sh ≠ 0 then m / 2 ^ sh + 1 else m / 2 ^ sh) ∧
    r .rd = (if neg = true ∧ m % 2 ^ sh ≠ 0 then m / 2 ^ sh + 1 else m / 2 ^ sh) ∧
    2 * m ≤ 2 * (r .rne * 2 ^ sh) + 2 ^ sh ∧ 2 * (r .rne * 2 ^ sh) ≤ 2 * m + 2 ^ sh ∧
    (2 * m = 2 * (r .rne * 2 ^ sh) + 2 ^ sh ∨ 2 * (r .rne * 2 ^ sh) = 2 * m + 2 ^ sh → r .rne % 2 = 0) ∧
    2 * m < 2 * (r .rna * 2 ^ sh) + 2 ^ sh ∧ 2 * (r .rna * 2 ^ sh) ≤ 2 * m + 2 ^ sh

/-- spec/04 R86: an integer result wraps modulo 2^width, and is clamped to the range of its type under sat. spec/04 R91: the results and flags of the
table of conversion boundaries. -/
def Obligations.NarrowingAndConversion : Prop :=
  (∀ (ty : Ty) (i : Int), WF.isInt ty = true →
     intTo ty .none i = (i % (2 ^ ty.width : Nat)).toNat ∧
     (tyLo ty ≤ i → i ≤ tyHi ty → tyInt ty (intTo ty .none i) = i ∧ tyInt ty (intTo ty .sat i) = i) ∧
     (i < tyLo ty → tyInt ty (intTo ty .sat i) = tyLo ty) ∧
     (tyHi ty < i → tyInt ty (intTo ty .sat i) = tyHi ty)) ∧
  (convert .e4m3 .f32 .rne .sat 0x3F800000 = ⟨0x38, 0⟩ ∧
   convert .e4m3 .f32 .rne .sat 0x43E00000 = ⟨0x7E, 0⟩ ∧
   convert .e4m3 .f32 .rne .nan 0x43E80000 = ⟨0x7E, flNX⟩ ∧
   convert .e4m3 .f32 .rne .sat 0x43E80001 = ⟨0x7E, flOF ||| flNX⟩ ∧
   convert .e4m3 .f32 .rne .nan 0x43E80001 = ⟨0x7F, flOF ||| flNX⟩ ∧
   convert .e4m3 .f32 .rz .nan 0xC3FA0000 = ⟨0x7F, flOF ||| flNX⟩ ∧
   convert .e4m3 .f32 .rz .sat 0xC3FA0000 = ⟨0xFE, flOF ||| flNX⟩ ∧
   convert .e4m3 .f32 .rne .sat 0x7F800000 = ⟨0x7E, flNV⟩ ∧
   convert .e4m3 .f32 .rne .sat 0x3C800000 = ⟨0x08, 0⟩ ∧
   convert .e4m3 .f32 .rne .sat 0x3B000000 = ⟨0x01, 0⟩ ∧
   convert .e4m3 .f32 .rne .sat 0x3AC00000 = ⟨0x01, flUF ||| flNX⟩ ∧
   convert .e4m3 .f32 .rne .sat 0x3A800000 = ⟨0x00, flUF ||| flNX⟩ ∧
   convert .fp16 .f32 .rne .none 0x477FE000 = ⟨0x7BFF, 0⟩ ∧
   convert .fp16 .f32 .rne .none 0x477FF000 = ⟨0x7C00, flOF ||| flNX⟩ ∧
   convert .fp16 .f32 .rne .sat 0x477FF000 = ⟨0x7BFF, flOF ||| flNX⟩ ∧
   convert .fp16 .f32 .rne .none 0x33000000 = ⟨0x0000, flUF ||| flNX⟩ ∧
   convert .bf16 .f32 .rne .none 0x7F7F7FFF = ⟨0x7F7F, flNX⟩ ∧
   convert .bf16 .f32 .rne .none 0x7F7F8000 = ⟨0x7F80, flOF ||| flNX⟩ ∧
   convert .bf16 .f32 .rne .none 0x3F808000 = ⟨0x3F80, flNX⟩ ∧
   convert .bf16 .f32 .rne .none 0x3F818000 = ⟨0x3F82, flNX⟩ ∧
   (∀ (x : Nat) (rnd : Rnd) (sm : Sat), (Fmt.f32.num (x % 2 ^ 32)).isNan = true →
     convert .e4m3 .f32 rnd sm x = ⟨0x7F, if (Fmt.f32.num (x % 2 ^ 32)).isSig then flNV else 0⟩ ∧
     convert .fp16 .f32 rnd sm x = ⟨0x7E00, if (Fmt.f32.num (x % 2 ^ 32)).isSig then flNV else 0⟩ ∧
     convert .bf16 .f32 rnd sm x = ⟨0x7FC0, if (Fmt.f32.num (x % 2 ^ 32)).isSig then flNV else 0⟩))

/-- spec/11 R226, R227, R229, R230: a scalar floating-point result with no enabled exception is written zero-extended (an I32 result sign-extended)
and its flags join FSTAT; nothing else changes. FMIN, FMAX and FCMP set NV only and never trap. spec/11 R229, R230: FCVT to an integer: the value
rounded by the mode, sign-extended for I32; the worked results of R230. -/
def Obligations.ScalarFloatResults : Prop :=
  (∀ (s : State) (p : Pred) (ty : Ty) (d a b c : SReg), WF.scalarFloat ty = true → Ready s p [a, b, c] [] →
     let f := Fmt.ofTy ty
     let x := (s.rdS a).toNat % 2 ^ ty.width
     let y := (s.rdS b).toNat % 2 ^ ty.width
     let z := (s.rdS c).toNat % 2 ^ ty.width
     (∀ (sm : Sat) (rnd : Rnd),
       let m := s.rmode rnd
       (NoTrap s (fAdd f m sm x y).fl →
         WritesFp s (exec (.fadd p ty d a b sm rnd) s) d (BitVec.ofNat 64 (fAdd f m sm x y).v) (fAdd f m sm x y).fl) ∧
       (NoTrap s (fSub f m sm x y).fl →
         WritesFp s (exec (.fsub p ty d a b sm rnd) s) d (BitVec.ofNat 64 (fSub f m sm x y).v) (fSub f m sm x y).fl) ∧
       (NoTrap s (fMul f m sm x y).fl →
         WritesFp s (exec (.fmul p ty d a b sm rnd) s) d (BitVec.ofNat 64 (fMul f m sm x y).v) (fMul f m sm x y).fl) ∧
       (NoTrap s (fFma f m sm x y z).fl →
         WritesFp s (exec (.ffma p ty d a b c sm rnd) s) d (BitVec.ofNat 64 (fFma f m sm x y z).v) (fFma f m sm x y z).fl) ∧
       (∀ (src : Ty), WF.fcvtOk ty src sm = true →
         let r := convert ty src m sm ((s.rdS a).toNat % 2 ^ src.width)
         NoTrap s r.fl → WritesFp s (exec (.fcvt p ty d a src sm rnd) s) d (BitVec.ofNat 64 r.v) r.fl)) ∧
     WritesFp s (exec (.fmin p ty d a b) s) d (BitVec.ofNat 64 (fMinMax f false x y).v) (sigFlag f x y) ∧
     WritesFp s (exec (.fmax p ty d a b) s) d (BitVec.ofNat 64 (fMinMax f true x y).v) (sigFlag f x y) ∧
     (∀ (q : PReg) (cond : FCond), ∃ t, exec (.fcmp p ty q a b cond) s = .next t ∧
       t.rdP q = (if q = 0 then true else fCmp f (FCond.toV cond) x y) ∧ KeepsRegs s t [] [] [q] [] ∧
       OnlyFlags s t (sigFlag f x y) ∧ StaysOn s t ∧ NextInstr s t)) ∧
  ((∀ (s : State) (p : Pred) (d a : SReg) (src : Ty) (rnd : Rnd), WF.scalarFloat src = true → Ready s p [a] [] →
     let x := (s.rdS a).toNat % 2 ^ src.width
     let m := s.rmode rnd
     (NoTrap s (convert .i32 src m .none x).fl → WritesFp s (exec (.fcvt p .i32 d a src .none rnd) s) d
       ((BitVec.ofNat 32 (convert .i32 src m .none x).v).signExtend 64) (convert .i32 src m .none x).fl) ∧
     (NoTrap s (convert .i64 src m .none x).fl → WritesFp s (exec (.fcvt p .i64 d a src .none rnd) s) d
       (BitVec.ofNat 64 (convert .i64 src m .none x).v) (convert .i64 src m .none x).fl) ∧
     (NoTrap s (convert .n32 src m .none x).fl → WritesFp s (exec (.fcvt p .n32 d a src .none rnd) s) d
       (BitVec.ofNat 64 (convert .n32 src m .none x).v) (convert .n32 src m .none x).fl) ∧
     (NoTrap s (convert .n64 src m .none x).fl → WritesFp s (exec (.fcvt p .n64 d a src .none rnd) s) d
       (BitVec.ofNat 64 (convert .n64 src m .none x).v) (convert .n64 src m .none x).fl)) ∧
   convert .i32 .f32 .rz .none 0xC0200000 = ⟨0xFFFFFFFE, flNX⟩ ∧
   convert .i32 .f32 .rne .none 0x4FC00000 = ⟨0x7FFFFFFF, flNV⟩ ∧
   convert .n32 .f32 .rne .none 0xBF800000 = ⟨0, flNV⟩ ∧
   fAdd .f32 .rne .none 0x3F800000 0x33800000 = ⟨0x3F800000, flNX⟩ ∧
   fAdd .f32 .ru .none 0x3F800000 0x33800000 = ⟨0x3F800001, flNX⟩ ∧
   fMul .f32 .rne .none 0x71800000 0x71800000 = ⟨0x7F800000, flOF ||| flNX⟩ ∧
   fMul .f32 .rne .sat 0x71800000 0x71800000 = ⟨0x7F7FFFFF, flOF ||| flNX⟩ ∧
   fFma .f64 .rne .none 0 0x7FF0000000000000 0x3FF0000000000000 = ⟨0x7FF8000000000000, flNV⟩)

/-- spec/04 R90, spec/11 R230, spec/12 R245: an instruction with an enabled exception traps precisely: no destination, no channel, no beat and no
flag; the cause is DIVZ before OVF before INV, FL carries every flag, LANE the lowest lane with an enabled one. -/
def Obligations.EnabledExceptionTraps : Prop :=
  (∀ (s : State) (l : List (Nat × Flags)) (f : State → State), State.orAll l &&& s.enabled ≠ 0 →
    ∃ i : TrapInfo, s.fpDone l f = .trap i ∧ i.fl = (State.orAll l).setWidth 8 ∧ i.ip = s.cur.ip ∧ i.word = s.cur.word ∧
      i.cause = (if (State.orAll l &&& s.enabled).getLsbD 4 then Cause.divz
        else if (State.orAll l &&& s.enabled).getLsbD 0 || (State.orAll l &&& s.enabled).getLsbD 1 then Cause.ovf else Cause.inv) ∧
      ((∀ x ∈ l, x.1 < 256) → ∃ x ∈ l, i.lane = BitVec.ofNat 8 x.1 ∧ x.2 &&& s.enabled ≠ 0 ∧ ∀ y ∈ l, y.2 &&& s.enabled ≠ 0 → x.1 ≤ y.1)) ∧
  (∀ (s : State) (p : Pred) (ty : Ty) (d a b : SReg) (sm : Sat) (rnd : Rnd), WF.scalarFloat ty = true → Ready s p [a, b] [] →
    let r := fAdd (Fmt.ofTy ty) (s.rmode rnd) sm ((s.rdS a).toNat % 2 ^ ty.width) ((s.rdS b).toNat % 2 ^ ty.width)
    r.fl &&& s.enabled ≠ 0 → ∃ i : TrapInfo, exec (.fadd p ty d a b sm rnd) s = .next (s.takeTrap i) ∧ i.fl = r.fl.setWidth 8)

/-! Special registers. -/

/-- spec/10 R214 to R217: what MFS gives for every special register, and that it changes nothing but its destination. spec/10 R212, R213, R215 to
R217: MTS writes the instance of the activation's slot and colour, or the tile's register; reserved bits and a reserved rounding mode leave their
fields, LIMIT 0 is ignored and one above 8,192 writes 8,192. Nothing else changes. -/
def Obligations.SpecialRegisterMoves : Prop :=
  (∀ (s : State) (p : Pred) (d : SReg), Ready s p [] [] →
     WritesS s (exec (.mfs p d 0 0) s) d (BitVec.ofNat 64 (s.cur.frame * 0x800)) ∧
     WritesS s (exec (.mfs p d 1 0) s) d (s.cur.ip.setWidth 64) ∧
     WritesS s (exec (.mfs p d 2 0) s) d (s.cur.col.setWidth 64) ∧
     WritesS s (exec (.mfs p d 3 0) s) d (s.cur.wave.setWidth 64) ∧
     WritesS s (exec (.mfs p d 4 0) s) d (s.cur.rtag.setWidth 64) ∧
     WritesS s (exec (.mfs p d 5 0) s) d (s.cur.opsl.setWidth 64) ∧
     WritesS s (exec (.mfs p d 6 0) s) d (BitVec.ofNat 64 (s.focus / 4 % 32)) ∧
     WritesS s (exec (.mfs p d 7 0) s) d (BitVec.ofNat 64 (s.focus / 128 % 16)) ∧
     WritesS s (exec (.mfs p d 8 0) s) d (BitVec.ofNat 64 (s.focus / 2048)) ∧
     WritesS s (exec (.mfs p d 9 0) s) d (s.fctl.setWidth 64) ∧
     WritesS s (exec (.mfs p d 10 0) s) d (s.fstat.setWidth 64) ∧
     WritesS s (exec (.mfs p d 11 0) s) d ((s.tile s.curTile).hmask.setWidth 64) ∧
     WritesS s (exec (.mfs p d 12 0) s) d (BitVec.ofNat 64 (s.tile s.curTile).hbudget) ∧
     WritesS s (exec (.mfs p d 14 0) s) d (s.cycOf s.curDie) ∧
     (∀ e : BitVec 3, WritesS s (exec (.mfs p d 13 e) s) d
       (if s.imageOn e.toNat s.curPart then (lget 0 s.ring.lapn e.toNat).setWidth 64 else 0))) ∧
  (∀ (s : State) (p : Pred) (a : SReg), Ready s p [a] [] →
     let v := s.rdS a
     let x := s.tile s.curTile
     let rm := if (v.extractLsb' 0 3).toNat ≤ 4 then v.extractLsb' 0 3 else s.fctl.extractLsb' 0 3
     (∃ t, exec (.mts p 9 a) s = .next t ∧ KeepsRegs s t [] [] [] [] ∧ StaysOn s t ∧ NextInstr s t ∧
       OnlyTile s t { x with fctl := lset x.fctl s.slotColour (v.extractLsb' 8 4 ++ 0#5 ++ rm) }) ∧
     (∃ t, exec (.mts p 10 a) s = .next t ∧ KeepsRegs s t [] [] [] [] ∧ StaysOn s t ∧ NextInstr s t ∧
       OnlyTile s t { x with fstat := lset x.fstat s.slotColour (v.extractLsb' 0 5) }) ∧
     (s.priv = true →
       (∃ t, exec (.mts p 11 a) s = .next t ∧ KeepsRegs s t [] [] [] [] ∧ StaysOn s t ∧ NextInstr s t ∧
         OnlyTile s t { x with hmask := v.extractLsb' 0 16 }) ∧
       (∃ t, exec (.mts p 12 a) s = .next t ∧ KeepsRegs s t [] [] [] [] ∧ StaysOn s t ∧ NextInstr s t ∧
         OnlyTile s t { x with hbudget := let l := (v.extractLsb' 0 14).toNat; if l = 0 then x.hbudget else min l 8192 })))

/-! Vectors. -/

/-- spec/09 R190, spec/12 R242, spec/16 R317, R319: where a vector result goes. A register takes it; a channel takes one beat at the end of its open
record, which is sent when it reaches the channel's beat count. A popped slot is no longer present, and the cursor moves on. spec/12 R242, spec/17:
the absent slot, the channel that is not configured, the full pool: the instruction parks with pcause 5, traps CHAN, or is held, before any effect
(spec/09 R190, R202). -/
def Obligations.VectorOperands : Prop :=
  (∀ s : State,
     (∀ (r : VReg) (v : Vec) (sc : BitVec 16), s.put (.reg r) v sc = s.wrV r v) ∧
     (∀ (c : Chan) (v : Vec) (sc : BitVec 16), s.openOn c.toNat = none → 1 < cBeats (s.chanCur c.toNat) →
       ∃ o : OpenRec, o.aid = s.cur.aid ∧ o.ch = c.toNat ∧ o.beats = [v] ∧ o.scales = [sc] ∧ o.hdrSet = 0 ∧
         s.put (.chan c) v sc = s.setTile s.curTile { s.tile s.curTile with pool := (s.tile s.curTile).pool ++ [o] }) ∧
     (∀ (c : Chan) (v : Vec) (sc : BitVec 16) (o : OpenRec), s.openOn c.toNat = some o →
       cBeats (s.chanCur c.toNat) ≤ o.beats.length + 1 →
       s.put (.chan c) v sc = s.sendOpen { o with beats := o.beats ++ [v], scales := o.scales ++ [sc] }) ∧
     (∀ ch : Nat, (s.popSlot ch).curFrame.present = s.curFrame.present &&& ~~~(1#16 <<< s.cursor ch) ∧
       (s.popSlot ch).mem = s.mem ∧ (s.popSlot ch).tmem = s.tmem ∧ (s.popSlot ch).cur = s.cur ∧
       (s.popSlot ch).tiles = s.tiles ∧ ∀ k, k ≠ s.curFrameKey → (s.popSlot ch).frame k = s.frame k) ∧
     (∀ (r : VReg), s.val (.reg r) = s.rdV r) ∧
     (∀ (k : Bool) (c : Chan), s.val (.chan k c) = BitVec.ofNat 512 (s.tread s.curTile (s.fp + s.cursor c.toNat * 64) 64))) ∧
  (∀ (s : State) (p : Pred) (rs : List SReg) (srcs : List VSrc) (d : Option VDst) (a : Act), Ready s p rs (State.regsOf srcs) →
     ((∃ c ∈ srcs.filterMap VSrc.chan?, s.srcOk c = false) ∨ (∃ c, d.bind VDst.chan? = some c ∧ s.dstOk c = false) →
       s.performV p rs srcs [] d a = .next (s.takeTrap (s.faultOf Cause.chan))) ∧
     ((∀ c ∈ srcs.filterMap VSrc.chan?, s.srcOk c = true) → (∀ c, d.bind VDst.chan? = some c → s.dstOk c = true) →
       (∃ c ∈ srcs.filterMap VSrc.chan?, s.slotPresent c = false) → s.oldCount s.cur.aid = 0 →
       ∃ c ∈ srcs.filterMap VSrc.chan?, s.slotPresent c = false ∧
         s.performV p rs srcs [] d a = .next (s.parkNow 5 (.slotOf c) s.cur.ip)) ∧
     ((∀ c ∈ srcs.filterMap VSrc.chan?, s.srcOk c = true ∧ s.slotPresent c = true) →
       (∃ c, d.bind VDst.chan? = some c ∧ s.dstOk c = true) → Config.poolBeats ≤ s.poolUsed → s.halting = false ∨ s.oldCount s.cur.aid ≠ 0 →
       Holds s (s.performV p rs srcs [] d a)))

/-- spec/12 R244, R245, R247 to R249, R253, R256, R264: the lane-wise mould. For every instruction of it, each active lane holds the operation's
result, each inactive lane what R244 says, and the flags of the active lanes join FSTAT. -/
def Obligations.LaneWiseResults : Prop :=
  ∀ (s : State) (p : Pred) (ty : Ty) (d : VDst) (a b c : VSrc) (mk : Mask) (sm : Sat) (rnd : Rnd),
    let f := Fmt.ofTy ty
    let m := s.rmode rnd
    let x := s.ln ty a
    let y := s.ln ty b
    let z := s.ln ty c
    let flags := fun (op : Nat → FRes) => State.orAll ((List.range ty.lanes).map (fun i => (i, if s.active mk i then (op i).fl else 0)))
    let mould := fun (o : Outcome) (srcs : List VSrc) (op : Nat → FRes) =>
      NoTrap s (flags op) → ∃ v, LanesAre ty.width ty.lanes v (fun i => if s.active mk i then (op i).v else s.inactive d mk ty.width i) ∧
        GivesV s o srcs d v 0 (flags op)
    (Ready s p [] (State.regsOf [a, b, c] ++ oldOf d mk) → ChansReady s [a, b, c] (some d) →
      mould (exec (.vfma p ty d a b c mk sm rnd) s) [a, b, c] (fun i =>
        if WF.isInt ty then ⟨intTo ty sm (tyInt ty (x i) * tyInt ty (y i) + tyInt ty (z i)), 0⟩ else fFma f m sm (x i) (y i) (z i))) ∧
    (Ready s p [] (State.regsOf [a, b] ++ oldOf d mk) → ChansReady s [a, b] (some d) →
      mould (exec (.vadd p ty d a b mk sm rnd) s) [a, b] (fun i => laneArith ty sm (· + ·) (fAdd f m sm) (x i) (y i)) ∧
      mould (exec (.vsub p ty d a b mk sm rnd) s) [a, b] (fun i => laneArith ty sm (· - ·) (fSub f m sm) (x i) (y i)) ∧
      mould (exec (.vmul p ty d a b mk sm rnd) s) [a, b] (fun i => laneArith ty sm (· * ·) (fMul f m sm) (x i) (y i)) ∧
      mould (exec (.vmin p ty d a b mk) s) [a, b] (fun i => laneMinMax ty false (x i) (y i)) ∧
      mould (exec (.vmax p ty d a b mk) s) [a, b] (fun i => laneMinMax ty true (x i) (y i)) ∧
      mould (exec (.vmulh p ty d a b mk) s) [a, b]
        (fun i => ⟨((tyInt ty (x i) * tyInt ty (y i) / (2 ^ ty.width : Nat)) % (2 ^ ty.width : Nat)).toNat, 0⟩) ∧
      mould (exec (.vand p ty d a b mk) s) [a, b] (fun i => ⟨x i &&& y i, 0⟩) ∧
      mould (exec (.vor p ty d a b mk) s) [a, b] (fun i => ⟨x i ||| y i, 0⟩) ∧
      mould (exec (.vxor p ty d a b mk) s) [a, b] (fun i => ⟨x i ^^^ y i, 0⟩) ∧
      mould (exec (.vshl p ty d a b mk) s) [a, b] (fun i => ⟨if ty.width ≤ y i then 0 else x i * 2 ^ y i, 0⟩) ∧
      mould (exec (.vshr p ty d a b mk) s) [a, b] (fun i => ⟨x i / 2 ^ y i, 0⟩) ∧
      mould (exec (.vsra p ty d a b mk) s) [a, b]
        (fun i => ⟨(((BitVec.ofNat ty.width (x i)).sshiftRight (min (y i) ty.width)).toNat), 0⟩)) ∧
    (Ready s p [] (State.regsOf [a] ++ oldOf d mk) → ChansReady s [a] (some d) →
      mould (exec (.vabs p ty d a mk sm rnd) s) [a] (fun i => laneAbs ty sm (x i)) ∧
      mould (exec (.vneg p ty d a mk sm rnd) s) [a] (fun i => laneNeg ty sm (x i)) ∧
      mould (exec (.vmov p ty d a mk) s) [a] (fun i => ⟨x i, 0⟩) ∧
      mould (exec (.vrcp p ty d a mk sm) s) [a] (fun i => fRcp f sm (x i)) ∧
      mould (exec (.vrsq p ty d a mk sm) s) [a] (fun i => fRsq f sm (x i)) ∧
      mould (exec (.vexp2 p ty d a mk sm) s) [a] (fun i => fExp2 f sm (x i)) ∧
      mould (exec (.vlog2 p ty d a mk sm) s) [a] (fun i => fLog2 f sm (x i))) ∧
    (∀ (r : SReg) (side : Bool), Ready s p [r] (State.regsOf [a] ++ oldOf d mk) → ChansReady s [a] (some d) →
      mould (exec (.vscale p ty d a r mk side sm rnd) s) [a] (fun i => scaleLane f m sm (x i) (s.vscaleBy a r side)))

/-- spec/12 R250, R251, spec/10 R206: a compare writes one bit per lane, 0 in an inactive lane and above the lanes; the mask instructions work on the
low n bits and clear the bits above. -/
def Obligations.CompareAndMaskResults : Prop :=
  ∀ (s : State) (p : Pred) (ty : Ty), WF.isVec ty = true →
    (∀ (d : MReg) (a b : VSrc) (mk : Mask) (cond : VCond), Ready s p [] (State.regsOf [a, b]) → ChansReady s [a, b] none →
      let fl := State.orAll ((List.range ty.lanes).map (fun i => (i, if s.active mk i && !WF.isInt ty then
        sigFlag (Fmt.ofTy ty) (s.ln ty a i) (s.ln ty b i) else 0)))
      ∃ v : Word, exec (.vcmp p ty d a b mk cond) s = .next ((((s.addFlags fl).popAll [a, b]).wrM d v).advance) ∧
        ∀ i, i < 64 → v.getLsbD i = (decide (i < ty.lanes) && s.active mk i && laneCmp ty cond (s.ln ty a i) (s.ln ty b i))) ∧
    (∀ (d a b : MReg), Ready s p [] [] →
      (∃ v, WritesM s (exec (.mand p ty d a b) s) d v ∧
        ∀ i, i < 64 → v.getLsbD i = (decide (i < ty.lanes) && (s.rdM a).getLsbD i && (s.rdM b).getLsbD i)) ∧
      (∃ v, WritesM s (exec (.mor p ty d a b) s) d v ∧
        ∀ i, i < 64 → v.getLsbD i = (decide (i < ty.lanes) && ((s.rdM a).getLsbD i || (s.rdM b).getLsbD i))) ∧
      (∃ v, WritesM s (exec (.mxor p ty d a b) s) d v ∧
        ∀ i, i < 64 → v.getLsbD i = (decide (i < ty.lanes) && ((s.rdM a).getLsbD i != (s.rdM b).getLsbD i))) ∧
      (∃ v, WritesM s (exec (.mnot p ty d a) s) d v ∧
        ∀ i, i < 64 → v.getLsbD i = (decide (i < ty.lanes) && !(s.rdM a).getLsbD i))) ∧
    (∀ (d : SReg) (a : MReg), Ready s p [] [] → ∃ v, WritesS s (exec (.mcnt p ty d a) s) d v ∧
      v.toNat = ((List.range ty.lanes).filter (fun i => (s.rdM a).getLsbD i)).length)

/-- spec/12 R251, R264: selection and data movement, lane by lane; no flag is set. -/
def Obligations.LaneMovementResults : Prop :=
  ∀ (s : State) (p : Pred) (ty : Ty) (d : VDst) (a b : VSrc), WF.isVec ty = true →
    let n := ty.lanes
    let x := s.ln ty a
    let y := s.ln ty b
    let moved := fun (o : Outcome) (srcs : List VSrc) (f : Nat → Nat) =>
      ∃ v, LanesAre ty.width n v f ∧ GivesV s o srcs d v 0 0
    (Ready s p [] (State.regsOf [a, b]) → ChansReady s [a, b] (some d) →
      moved (exec (.vperm p ty d a b) s) [a, b] (fun i => if y i < n then x (y i) else 0) ∧
      (∀ c : MReg, moved (exec (.vsel p ty d a b c) s) [a, b] (fun i => if (s.rdM c).getLsbD i then x i else y i)) ∧
      moved (exec (.vzip p ty d a b false) s) [a, b] (fun i => if i % 2 = 0 then x (i / 2) else y (i / 2)) ∧
      moved (exec (.vzip p ty d a b true) s) [a, b] (fun i => if i % 2 = 0 then x (i / 2 + n / 2) else y (i / 2 + n / 2)) ∧
      moved (exec (.vunzip p ty d a b false) s) [a, b] (fun i => if i < n / 2 then x (2 * i) else y (2 * (i - n / 2))) ∧
      moved (exec (.vunzip p ty d a b true) s) [a, b] (fun i => if i < n / 2 then x (2 * i + 1) else y (2 * (i - n / 2) + 1))) ∧
    (Ready s p [] (State.regsOf [a]) → ChansReady s [a] (some d) →
      (∀ j : BitVec 6, moved (exec (.vbcast p ty d a j) s) [a] (fun _ => x j.toNat)) ∧
      (∀ c : MReg, moved (exec (.vcomp p ty d a c) s) [a] (fun i => ((s.maskLanes ty c)[i]?.map x).getD 0)) ∧
      (∀ c : MReg, moved (exec (.vexpd p ty d a c) s) [a] (fun i =>
        if (s.rdM c).getLsbD i then x ((List.range i).filter (fun j => (s.rdM c).getLsbD j)).length else 0))) ∧
    (∀ r : SReg, Ready s p [r] [] → ChansReady s [] (some d) →
      moved (exec (.vsplat p ty d r) s) [] (fun _ => (s.rdS r).toNat) ∧
      moved (exec (.viota p ty d r) s) [] (fun i => (s.rdS r).toNat + i)) ∧
    (∀ (v : VReg) (r : SReg) (j : BitVec 6), j.toNat < n → Ready s p [r] [v] →
      ∃ z, WritesV s (exec (.vins p ty v r j) s) v z ∧
        LanesAre ty.width n z (fun i => if i = j.toNat then (s.rdS r).toNat else lane ty.width (s.rdV v) i)) ∧
    (∀ (r : SReg) (j : BitVec 6), j.toNat < n → Ready s p [] (State.regsOf [a]) → ChansReady s [a] none →
      exec (.vext p ty r a j) s = .next (((s.popAll [a]).wrS r
        (if ty.signed then (BitVec.ofNat ty.width (x j.toNat)).signExtend 64 else BitVec.ofNat 64 (x j.toNat))).advance))

/-- spec/12 R252, R254, R255: conversions of whole vectors: VCVT's parts and inactive lanes, VQNT's values and scale, VCBD's 32 weights. -/
def Obligations.VectorConversionResults : Prop :=
  ∀ (s : State) (p : Pred) (d : VDst) (a : VSrc),
    (∀ (ty src : Ty) (mk : Mask) (part : BitVec 2) (sm : Sat) (rnd : Rnd), WF.vcvtOk ty src part rnd sm = true → src.width ≤ ty.width →
      Ready s p [] (State.regsOf [a] ++ oldOf d mk) → ChansReady s [a] (some d) →
      let r := fun i => convert ty src (s.rmode rnd) sm (lane src.width (s.val a) (part.toNat * ty.lanes + i))
      let fl := State.orAll ((List.range ty.lanes).map (fun i => (i, if s.active mk i then (r i).fl else 0)))
      NoTrap s fl → ∃ v, LanesAre ty.width ty.lanes v (fun i => if s.active mk i then (r i).v else s.inactive d mk ty.width i) ∧
        GivesV s (exec (.vcvt p ty d a mk part src sm rnd) s) [a] d v 0 fl) ∧
    (∀ (ty src : Ty) (mk : Mask) (part : BitVec 2) (sm : Sat) (rnd : Rnd), WF.vcvtOk ty src part rnd sm = true → ty.width < src.width →
      Ready s p [] (State.regsOf [a] ++ (match d with | .reg q => if mk.mz then [] else [q] | .chan _ => [])) → ChansReady s [a] (some d) →
      let n := src.lanes
      let r := fun i => convert ty src (s.rmode rnd) sm (lane src.width (s.val a) i)
      let fl := State.orAll ((List.range n).map (fun i => (i, if s.active mk i then (r i).fl else 0)))
      NoTrap s fl → ∃ v, LanesAre ty.width ty.lanes v (fun j =>
          if part.toNat * n ≤ j ∧ j < (part.toNat + 1) * n ∧ s.active mk (j - part.toNat * n) = true then (r (j - part.toNat * n)).v
          else s.inactive d mk ty.width j) ∧
        GivesV s (exec (.vcvt p ty d a mk part src sm rnd) s) [a] d v 0 fl) ∧
    (∀ (v0 : VReg) (r : SReg) (sm : Sat) (rnd : Rnd), Ready s p [] [v0, v0 + 1, v0 + 2, v0 + 3] → ChansReady s [] (some d) →
      let q := (s.quantSrc v0).map (quantLane (s.rmode rnd) sm (quantE (s.quantSrc v0)))
      let sc := BitVec.ofNat 16 ((quantE (s.quantSrc v0) + 127).toNat * 128)
      let fl := State.orAll ((List.range 64).zip (q.map (·.fl)))
      NoTrap s fl → ∃ v, LanesAre 8 64 v (fun i => ((q[i]?).map (·.v)).getD 0) ∧
        exec (.vqnt p d v0 r sm rnd) s = .next ((((s.addFlags fl).put d v sc).wrS r (sc.setWidth 64)).advance)) ∧
    (∀ (part : BitVec 3), Ready s p [] (State.regsOf [a]) → ChansReady s [a] (some d) →
      ∃ v, LanesAre 16 32 v (fun k =>
          let x := BitVec.ofNat 16 (lane 16 (s.val a) (4 * part.toNat + k / 8))
          ((cb2 (lget 0 (s.region s.curRegion).codebook (x.extractLsb' 8 8).toNat) x (k % 8)).to .bf16 .rne .none).v) ∧
        GivesV s (exec (.vcbd p d a part) s) [a] d v 0 0)

/-- spec/04 R97, spec/12 R257 to R259: reductions over the tree of active lanes give their value in lane 0 and zeros above; the scan gives running
sums. The lane of a trap in a reduction follows log entry 20; that VSUM of a signalling 16-bit lane sets no NV is log entry 88. -/
def Obligations.ReductionAndScanResults : Prop :=
  ∀ (s : State) (p : Pred) (ty : Ty) (d : VDst) (a b : VSrc) (mk : Mask) (sm : Sat) (rnd : Rnd),
    let m := s.rmode rnd
    let f := Fmt.ofTy ty
    let ints := fun (g : Nat → Int) => sumInts ty sm ((List.range ty.lanes).map (fun i => (i, if s.active mk i then some (g i) else none)))
    let minmax := fun (mx : Bool) => tree (fun x y => ((laneMinMax ty mx x y).v, (laneMinMax ty mx x y).fl)) 6
      ((List.range ty.lanes).map (fun i => (i, if s.active mk i then some (s.ln ty a i) else none)))
    (Ready s p [] (State.regsOf [a]) → ChansReady s [a] (some d) →
      (WF.isInt ty = true →
        GivesV s (exec (.vsum p ty d a mk sm rnd) s) [a] d (BitVec.ofNat 512 (ints (fun i => tyInt ty (s.ln ty a i)))) 0 0) ∧
      (WF.isInt ty = false →
        let wide := fun (x : Nat) => if ty = .f32 then x else (convert .f32 ty .rne .none x).v
        let r := sumFloats m sm ((List.range ty.lanes).map (fun i => (i, if s.active mk i then some (wide (s.ln ty a i)) else none)))
        NoTrap s (State.orAll r.2) → GivesV s (exec (.vsum p ty d a mk sm rnd) s) [a] d (BitVec.ofNat 512 r.1) 0 (State.orAll r.2)) ∧
      (NoTrap s (State.orAll (minmax true).2) → GivesV s (exec (.vrmax p ty d a mk) s) [a] d
        (BitVec.ofNat 512 ((minmax true).1.getD (noLane ty true))) 0 (State.orAll (minmax true).2)) ∧
      (NoTrap s (State.orAll (minmax false).2) → GivesV s (exec (.vrmin p ty d a mk) s) [a] d
        (BitVec.ofNat 512 ((minmax false).1.getD (noLane ty false))) 0 (State.orAll (minmax false).2)) ∧
      (∀ excl : Bool,
        let add := laneArith ty sm (· + ·) (fAdd f m sm)
        let first := if excl then 0 else s.ln ty a 0
        let r := scanFrom add first ((List.range (ty.lanes - 1)).map (fun i => (i + 1, s.ln ty a (if excl then i else i + 1))))
        NoTrap s (State.orAll r.2) → GivesV s (exec (.vscan p ty d a excl sm rnd) s) [a] d (ofLanes ty.width (first :: r.1)) 0
          (State.orAll r.2))) ∧
    (Ready s p [] (State.regsOf [a, b]) → ChansReady s [a, b] (some d) →
      (WF.isInt ty = true → GivesV s (exec (.vdot p ty d a b mk sm rnd) s) [a, b] d (BitVec.ofNat 512 (ints (fun i =>
        tyInt (redTy ty) (intTo (redTy ty) sm (tyInt ty (s.ln ty a i) * tyInt ty (s.ln ty b i)))))) 0 0) ∧
      (WF.isInt ty = false →
        let ps := (List.range ty.lanes).map (fun i => (i, if s.active mk i then
          some ((f.num (s.ln ty a i)).mul (f.num (s.ln ty b i))) else none))
        let r := sumLanes m sm (ps.map (fun x => (x.1, x.2.map (·.1))))
        let fl := State.orAll (ps.map (fun x => (x.1, (x.2.map (·.2)).getD 0)) ++ r.2)
        NoTrap s fl → GivesV s (exec (.vdot p ty d a b mk sm rnd) s) [a, b] d (BitVec.ofNat 512 r.1) 0 fl))

/-- spec/12 R260 to R263: a reset takes a unit whose tag is invalid, of the activation's slot and colour, or of a retired wave, empties it, sets K and
its tag; a feed of the activation's slot and colour keeps the K best in order of rank, and a NaN is not fed and sets NV; a drain gives a page of
values or indices with the stated fillers and changes no unit. Otherwise VTOPK traps SLOT. spec/12 R262: what a feed keeps: never more than K entries,
in order of rank, and no entry that ranks before one that is kept is lost. -/
def Obligations.TopkUnits : Prop :=
  (∀ (s : State) (p : Pred) (u : BitVec 2),
     let o := (s.topkOf u).owner
     let mine := o.valid = true ∧ o.slot = s.cur.opsl ∧ o.col = s.cur.col
     let free := o.valid = false ∨ mine ∨ s.waveGone s.curRegion o.col o.wave = true
     let sets := fun (v t : State) (x : TopK) => GoesOn s t ∧ OnlyTile v t { v.tile s.curTile with topk := (t.tile s.curTile).topk } ∧
       t.topkOf u = x ∧ ∀ w, w ≠ u → t.topkOf w = s.topkOf w
     (∀ k : BitVec 6, Ready s p [] [] →
       (free → ∃ t, exec (.vtopkReset p k u) s = .next t ∧ sets s t { entries := [], k := k.toNat + 1, owner :=
         { valid := true, slot := s.cur.opsl, col := s.cur.col, wave := s.cur.wave, rtag := s.cur.rtag } }) ∧
       (¬ free → Traps s (exec (.vtopkReset p k u) s) Cause.slot)) ∧
     (∀ (a b : VSrc), Ready s p [] (State.regsOf [a, b]) → ChansReady s [a, b] none →
       let ps := (List.range 16).map (fun i => (BitVec.ofNat 32 (lane 32 (s.val a) i), BitVec.ofNat 32 (lane 32 (s.val b) i)))
       let isN := fun (v : BitVec 32 × BitVec 32) => (Fmt.f32.num v.1.toNat).isNan
       (mine → ∃ t, exec (.vtopkFeed p a b u) s = .next t ∧
         sets ((s.addFlags (if ps.any isN then flNV else 0)).popAll [a, b]) t
           { s.topkOf u with entries := (ps.filter (fun v => !isN v)).foldl (topkFeed (s.topkOf u).k) (s.topkOf u).entries }) ∧
       (¬ mine → Traps s (exec (.vtopkFeed p a b u) s) Cause.slot)) ∧
     (∀ (d : VDst) (page : BitVec 2), Ready s p [] [] → ChansReady s [] (some d) →
       let es := (s.topkOf u).entries
       (mine → (∃ v, LanesAre 32 16 v (fun i => ((es[16 * page.toNat + i]?).map (fun e => e.1.toNat)).getD 0xFF800000) ∧
           GivesV s (exec (.vtopkDrainv p d page u) s) [] d v 0 0) ∧
         (∃ v, LanesAre 32 16 v (fun i => ((es[16 * page.toNat + i]?).map (fun e => e.2.toNat)).getD 0xFFFFFFFF) ∧
           GivesV s (exec (.vtopkDraini p d page u) s) [] d v 0 0)) ∧
       (¬ mine → Traps s (exec (.vtopkDrainv p d page u) s) Cause.slot ∧ Traps s (exec (.vtopkDraini p d page u) s) Cause.slot))) ∧
  (∀ (k : Nat) (l : List (BitVec 32 × BitVec 32)) (e : BitVec 32 × BitVec 32),
     l.length ≤ k → l.Pairwise (fun x y => ranksBefore y x = false) →
     let r := topkFeed k l e
     r.length ≤ k ∧ r.Pairwise (fun x y => ranksBefore y x = false) ∧ r.length = min k (l.length + 1) ∧
     (∀ x ∈ r, x = e ∨ x ∈ l) ∧ (∀ x, x = e ∨ x ∈ l → x ∉ r → ∀ y ∈ r, ranksBefore x y = false))

/-! The tile array. -/

/-- spec/10 R209, R210, spec/13 R266 to R270, R272: MZERO and MLDA take an accumulator that is free, of the activation's colour or of a retired wave;
MMAT and MWRR, as the reads of an accumulator, need one of the activation's colour. Each changes one accumulator, MMAT the queue of the array;
everything else stays. Any other accumulator traps SLOT, a poisoned one POISON. spec/13 R271, R273: MRDR and MRDC give a row or a column of an
accumulator, converted, in the lanes of R271; MSTA stores its 1,024 elements in row-major order, and no other byte. The accumulators keep their
values. When a poisoned accumulator faults follows log entry 22. -/
def Obligations.AccumulatorInstructions : Prop :=
  (∀ (s : State) (p : Pred) (d : AReg),
     let T := s.curTile
     let o := s.accOf T d.toNat
     let owns := s.accMine d = true ∧ o.valid = true ∧ o.col = s.cur.col ∧ o.poisoned = false
     let takes := s.accMine d = true ∧ (o.valid = false ∨ ((o.col = s.cur.col ∨ s.waveGone s.curRegion o.col o.wave = true) ∧ o.poisoned = false))
     let sets := fun (u t : State) (own : Owner) (v : Nat → Nat → BitVec 32) =>
       GoesOn s t ∧ OnlyTile u t { s.tile T with acc := (t.tile T).acc, accTag := (t.tile T).accTag } ∧
       t.accOf T d.toNat = own ∧ (∀ a, a ≠ d.toNat → t.accOf T a = s.accOf T a) ∧
       (∀ i j, i < 32 → j < 32 → t.accEl T d.toNat i j = v i j) ∧
       (∀ a i j, a ≠ d.toNat → i < 32 → j < 32 → t.accEl T a i j = s.accEl T a i j)
     (takes → (s.tile T).mmats = [] →
       (Ready s p [] [] → ∃ t, exec (.mzero p d) s = .next t ∧ sets s t s.ownTag (fun _ _ => 0)) ∧
       (∀ r : SReg, Ready s p [r] [] → PanelOk s (s.rdS r).toNat 4096 →
         ∃ t, exec (.mlda p d r) s = .next t ∧
           sets s t s.ownTag (fun i j => BitVec.ofNat 32 (s.tread T ((s.rdS r).toNat + 4 * (32 * i + j)) 4)))) ∧
     (owns → ∀ (ty : Ty) (cb : Bool) (a b : SReg), Ready s p [a, b] [] → (s.tile T).mmats.length < 4 → s.otoCount s.cur.aid < 15 →
       let sh := (mmatMode ty cb).shape
       PanelOk s (s.rdS a).toNat sh.2.1 → PanelOk s (s.rdS b).toNat sh.2.2 →
       ∃ (t : State) (m : Mmat), exec (.mmat p ty d a b cb) s = .next t ∧ GoesOn s t ∧
         OnlyTile s t { s.tile T with mmats := (s.tile T).mmats ++ [m] } ∧ m.aid = s.cur.aid ∧ m.acc = d.toNat ∧ m.ty = ty ∧ m.cb = cb ∧
         m.pa = (s.rdS a).toNat ∧ m.pb = (s.rdS b).toNat ∧ (cb = true → m.book = (s.region s.curRegion).codebook)) ∧
     (owns → (s.tile T).mmats = [] → ∀ (ty : Ty) (a : VSrc) (hi : Bool) (r : BitVec 5), Ready s p [] (State.regsOf [a]) → ChansReady s [a] none →
       ∃ t, exec (.mwrr p ty d a hi r) s = .next t ∧ sets (s.popAll [a]) t o (fun i j =>
         match (if i = r.toNat then rowLane ty hi j else none) with
         | some l => accWiden ty (s.ln ty a l)
         | none => s.accEl T d.toNat i j)) ∧
     let may := s.accMine d = true ∧ (o.valid = false ∨ o.col = s.cur.col ∨ s.waveGone s.curRegion o.col o.wave = true)
     let has := s.accMine d = true ∧ o.valid = true ∧ o.col = s.cur.col
     let bad := fun (ok : Prop) (out : Outcome) => (¬ ok → Traps s out Cause.slot) ∧ (ok → o.valid = true → o.poisoned = true → Traps s out Cause.poison)
     (Ready s p [] [] → bad may (exec (.mzero p d) s)) ∧
     (∀ r : SReg, Ready s p [r] [] → bad may (exec (.mlda p d r) s) ∧
       ∀ (ty : Ty) (sm : Sat) (rnd : Rnd), bad has (exec (.msta p ty d r sm rnd) s)) ∧
     (∀ (ty : Ty) (cb : Bool) (a b : SReg), Ready s p [a, b] [] → bad has (exec (.mmat p ty d a b cb) s)) ∧
     (∀ (ty : Ty) (a : VSrc) (hi : Bool) (r : BitVec 5), Ready s p [] (State.regsOf [a]) → ChansReady s [a] none →
       bad has (exec (.mwrr p ty d a hi r) s)) ∧
     (∀ (ty : Ty) (v : VDst) (hi : Bool) (r : BitVec 5) (sm : Sat) (rnd : Rnd),
       Ready s p [] (match v with | .reg q => if ty.width = 8 then [q] else [] | .chan _ => []) → ChansReady s [] (some v) →
       bad has (exec (.mrdr p ty v d hi r sm rnd) s) ∧ bad has (exec (.mrdc p ty v d hi r sm rnd) s))) ∧
  (∀ (s : State) (p : Pred) (a : AReg) (ty : Ty) (sm : Sat) (rnd : Rnd),
     let T := s.curTile
     let o := s.accOf T a.toNat
     s.accMine a = true → o.valid = true → o.col = s.cur.col → o.poisoned = false → (s.tile T).mmats = [] →
     let conv := fun (i j : Nat) => accConv ty (s.rmode rnd) sm (s.accEl T a.toNat i j)
     (∀ (d : VDst) (hi : Bool) (r : BitVec 5),
       Ready s p [] (match d with | .reg q => if ty.width = 8 then [q] else [] | .chan _ => []) → ChansReady s [] (some d) →
       let fl := fun (f : Nat → FRes) => State.orAll ((List.range ty.lanes).map (fun i => (i, ((laneRow ty hi i).map (fun e => (f e).fl)).getD 0)))
       let gives := fun (out : Outcome) (f : Nat → FRes) =>
         NoTrap s (fl f) → ∃ v, LanesAre ty.width ty.lanes v (fun i => match laneRow ty hi i with
           | some e => (f e).v
           | none => match d with
             | .reg q => lane ty.width (s.rdV q) i
             | .chan _ => 0) ∧ GivesV s out [] d v 0 (fl f)
       gives (exec (.mrdr p ty d a hi r sm rnd) s) (fun e => conv r.toNat e) ∧
       gives (exec (.mrdc p ty d a hi r sm rnd) s) (fun e => conv e r.toNat)) ∧
     (∀ b : SReg, Ready s p [b] [] →
       let w := ty.width / 8
       let off := (s.rdS b).toNat
       let fl := State.orAll ((List.range 1024).map (fun k => (k, (conv (k / 32) (k % 32)).fl)))
       PanelOk s off (1024 * w) → NoTrap s fl → 0 < w →
       ∃ t, exec (.msta p ty a b sm rnd) s = .next t ∧ GoesOn s t ∧
         (∀ i j, i < 32 → j < 32 → t.tread T (off + (32 * i + j) * w) w = (conv i j).v % 256 ^ w) ∧
         (∀ x, x < T * 0x80000 + off ∨ T * 0x80000 + off + 1024 * w ≤ x → mget t.tmem x = mget s.tmem x) ∧
         t = { s with ctxs := t.ctxs, tiles := t.tiles, tmem := t.tmem, uce := t.uce } ∧
         (∀ k, k ≠ s.focus → t.ctx k = s.ctx k) ∧ (∀ k, k ≠ T → t.tile k = s.tile k) ∧
         t.tile T = { s.tile T with fstat := (t.tile T).fstat } ∧ t.fstat = s.fstat ||| fl))

/-- spec/04 R96, spec/13 R269: MMAT_COMPLETE takes the oldest queued MMAT; every element of its accumulator becomes the sum of its mode, exact for I8,
one rounding of the exact sum of 32 products for E4M3, one rounding a product for BF16 and FP16, and the scaled group for CB2, with the codebook that
stood when the MMAT was accepted (spec/18 R360). NaN flags follow log entry 21. -/
def Obligations.MatrixProductCompletes : Prop :=
  ∀ (s : State) (T : Nat) (m : Mmat) (rest : List Mmat), (s.tile T).mmats = m :: rest → s.mmatUce T m = false →
    0x40000 ≤ m.pa → 0x40000 ≤ m.pb →
    ∃ u t : State, exec (.mmatComplete T) s = .next t ∧ Woken u t ∧ u = { s with tiles := u.tiles } ∧ (∀ k, k ≠ T → u.tile k = s.tile k) ∧
      u.tile T = { s.tile T with mmats := rest, acc := (u.tile T).acc } ∧
      (∀ a i j, a ≠ m.acc → i < 32 → j < 32 → u.accEl T a i j = s.accEl T a i j) ∧
      ∀ i j, i < 32 → j < 32 →
        let c := s.accEl T m.acc i j
        let cf := Fmt.f32.num c.toNat
        let bitsOf := fun (x : Sys2Proof.Machine.Num) => BitVec.ofNat 32 (x.to .f32 .rne .none).v
        let A := fun (k n w : Nat) => s.tread T (m.pa + (n * i + k) * w) w
        let B := fun (k w : Nat) => s.tread T (m.pb + (32 * k + j) * w) w
        let prods := fun (f : Fmt) (w : Nat) => (List.range 32).map (fun k => ((f.num (A k 32 w)).mul (f.num (B k w))).1)
        (m.ty = .i8 → u.accEl T m.acc i j =
          BitVec.ofInt 32 (c.toInt + ((List.range 32).map (fun k => tyInt .i8 (A k 32 1) * tyInt .i8 (B k 1))).sum)) ∧
        (m.ty = .e4m3 → m.cb = false → u.accEl T m.acc i j = bitsOf (accAdd cf (exactSum (prods .e4m3 1)))) ∧
        (m.ty = .bf16 → u.accEl T m.acc i j = bitsOf ((prods .bf16 2).foldl (fun x y => accAdd x (prodInf y)) cf)) ∧
        (m.ty = .fp16 → u.accEl T m.acc i j = bitsOf ((prods .fp16 2).foldl (fun x y => accAdd x (prodInf y)) cf)) ∧
        (m.ty = .e4m3 → m.cb = true →
          let idx := fun k => BitVec.ofNat 16 (s.tread T (m.pb + 64 + 2 * (32 * j + k / 8)) 2)
          let weight := fun k => cb2 (lget 0 m.book ((idx k).extractLsb' 8 8).toNat) (idx k) (k % 8)
          let sum := exactSum ((List.range 256).map (fun k => ((Fmt.e4m3.num (A k 256 1)).mul (weight k)).1))
          u.accEl T m.acc i j = bitsOf (accAdd cf (rndF32 ((rndF32 sum).mul (Fmt.bf16.num (s.tread T (m.pb + 2 * j) 2))).1)))

/-! Memory. -/

/-- spec/15 R300, R301, R302, spec/14 R284, R288, R292: the checks at issue in their order, for a load and a store: ALIGN, then the translation's
fault, then PERM; for tile memory PERM before ALIGN. A fault is precise. A translation that no TLB holds is asked for, and the instruction is held. -/
def Obligations.AccessChecksInOrder : Prop :=
  ∀ (s : State) (p : Pred) (mf : MemF) (d a b c : SReg), Ready s p [a, b, c] [] →
    let n := widthBytes mf.wd
    let g := s.addr a b
    let load := exec (.ld p mf d a b) s
    let store := exec (.st p mf a b c) s
    (mf.ts = false →
      (g % n ≠ 0 → Traps s load Cause.align ∧ Traps s store Cause.align) ∧
      (g % n = 0 → 2 ^ 56 ≤ g → Traps s load Cause.page ∧ Traps s store Cause.page) ∧
      (g % n = 0 → g < 2 ^ 56 →
        (∀ f, s.findXlate false g = .error f → Traps s load f) ∧
        (∀ f, s.findXlate true g = .error f → Traps s store f) ∧
        (∀ e hit, s.findXlate true g = .ok (e, hit) → e.ro = true → Traps s store Cause.perm) ∧
        (∀ e hit k off, s.findXlate false g = .ok (e, hit) → placeOf (e.pa + (g - e.gva)) = .scratch k off → k ≠ s.curCore →
          Traps s load Cause.perm) ∧
        (∀ e hit k ch off, s.findXlate false g = .ok (e, hit) → placeOf (e.pa + (g - e.gva)) = .aperture k ch off →
          Traps s load Cause.attr) ∧
        (∀ e hit, s.findXlate false g = .ok (e, hit) → placeOf (e.pa + (g - e.gva)) = .hole → Traps s load Cause.page2) ∧
        (∀ e, s.findXlate false g = .ok (e, false) → placeOf (e.pa + (g - e.gva)) = .hbm → s.halting = false →
          (s.walks.filter (fun w => w.tile / 512 == s.curTile / 512)).length < 64 →
          ∃ t, load = .next t ∧ t.cur.held = true ∧ t.cur.ip = s.cur.ip ∧ KeepsRegs s t [] [] [] [] ∧ KeepsMem s t ∧ t.accesses = s.accesses ∧
            ∃ w ∈ t.walks, (w.vmid, w.asid) = s.curVm ∧ w.gva / 0x10000 = g / 0x10000))) ∧
    (mf.ts = true →
      (0x80000 < g + n → Traps s load Cause.perm ∧ Traps s store Cause.perm) ∧
      (0x40000 ≤ g → g + n ≤ 0x80000 → g % n ≠ 0 → Traps s load Cause.align ∧ Traps s store Cause.align) ∧
      (g < 0x40000 → s.trapMode = false → g / 0x800 ≠ s.cur.frame → Traps s load Cause.perm ∧ Traps s store Cause.perm) ∧
      (g < 0x40000 → g % 0x800 < 0x6A0 → 0x698 < g % 0x800 + n → Traps s store Cause.perm))

/-- spec/15 R297, R300, R303 to R305, spec/11 R220, spec/05 R104, R106: with its checks passed, a load or a store of memory goes on its way with its
kind, its addresses, its width, its data; a load's destination waits for it. With SEQ other than 0 it reaches its region's replay buffer too, where it
starts or joins its chain, waits for an entry, or is let go and counted where the chain is closed. What the checks let through is aligned, translated
by a TLB entry, and no store to a page marked RO. spec/14 R282, R284, spec/15 R303 to R305, spec/05 R116: a load or a store of tile memory with
nothing of its activation before it is performed at once: the register takes the bytes, or the bytes take the register; every other byte, all of
memory, every other register stay. That an access is one element list on its way is the model's choice (log entry 7). -/
def Obligations.AccessesAtIssue : Prop :=
  (∀ (s : State) (p : Pred) (mf : MemF),
     let n := widthBytes mf.wd
     let g := s.addr
     (∀ (d a b : SReg), Ready s p [a, b] [] →
       Issues s (exec (.ld p mf d a b) s) { kind := .ld, mf := mf, bytes := n, elems := [(0, g a b)], dst := d.toNat } ∧
       Issues s (exec (.feget p mf d a b) s) { kind := .feget, mf := mf, fe := true, bytes := 4, elems := [(0, g a b)], dst := d.toNat }) ∧
     (∀ (a b c : SReg), Ready s p [a, b, c] [] →
       let v := (s.rdS c).setWidth 512
       let w : Want := { mf := mf, write := true, bytes := n, elems := [(0, g a b)], data := v }
       Issues s (exec (.st p mf a b c) s) { w with kind := .st, aperture := mf.wd == .d } ∧
       Issues s (exec (.stef p mf a b c) s) { w with kind := .stef, fe := true } ∧
       Issues s (exec (.stf p mf a b c) s) { w with kind := .stf, fe := true } ∧
       Issues s (exec (.feset p mf a b c) s) { w with kind := .feset, fe := true, bytes := 4 }) ∧
     (∀ (d : VReg) (a b : SReg), Ready s p [a, b] [] →
       Issues s (exec (.vld p mf d a b) s)
         { kind := .vld, mf := mf, bytes := n, elems := (List.range (64 / n)).map (fun i => (i, (g a b + i * n) % 2 ^ 64)), dst := d.toNat }) ∧
     (∀ (a b : SReg) (c : VReg), Ready s p [a, b] [c] →
       let w : Want := { mf := mf, write := true, bytes := n, elems := (List.range (64 / n)).map (fun i => (i, (g a b + i * n) % 2 ^ 64)),
                         data := s.rdV c }
       Issues s (exec (.vst p mf a b c) s) { w with kind := .vst } ∧
       Issues s (exec (.vstf p mf a b c) s) { w with kind := .vstf, fe := true }) ∧
     (∀ (a : SReg) (b c d : VReg),
       let els := (List.range (if n = 8 then 8 else 16)).map (fun i => (i, ((s.rdS a).toNat + lane 32 (s.rdV b) i) % 2 ^ 64))
       (Ready s p [a] [b] → Issues s (exec (.vldg p mf d a b) s)
         { kind := .vldg, mf := mf, gather := true, bytes := n, elems := els, dst := d.toNat }) ∧
       (Ready s p [a] [b, c] → Issues s (exec (.vsts p mf a b c) s)
         { kind := .vsts, mf := mf, write := true, gather := true, bytes := n, elems := els, data := s.rdV c })) ∧
     (∀ (x : Want) (es : List Elem), x.mf.ts = false → s.check x = .ok es →
       es.map (fun e => (e.lane, e.gva)) = x.elems ∧
       ∀ e ∈ es, e.gva % x.bytes = 0 ∧ e.gva < 2 ^ 56 ∧ ∃ l, s.findXlate x.write e.gva = .ok (l, true) ∧ e.pa = l.pa + (e.gva - l.gva) ∧
         (x.write = true → l.ro = false))) ∧
  (∀ (s : State) (p : Pred) (mf : MemF), mf.ts = true → mf.seq = 0 → Quiet s →
     let n := widthBytes mf.wd
     let T := s.curTile
     let reach := fun (off : Nat) (w : Bool) => off % n = 0 ∧ off + n ≤ 0x80000 ∧
       (0x40000 ≤ off ∨ (∀ i, i < n → s.frameByte w (off + i) = true) ∧ (s.frame (T * 128 + off / 0x800)).inHeap = false)
     let sound := fun (off : Nat) => s.hasUce (2 ^ 48 + T * 0x80000 + off) n = false
     let same := fun (u t : State) => Woken u t ∧ StaysOn s u ∧ NextInstr s u ∧ (∀ k, k ≠ s.focus → u.ctx k = s.ctx k)
     let loads := fun (o : Outcome) (r : State → Prop) =>
       ∃ u t, o = .next t ∧ same u t ∧ u = { s with ctxs := u.ctxs, nextId := s.nextId + 1 } ∧ r u
     let stores := fun (o : Outcome) (r : List Host.Cell → Prop) =>
       ∃ u t, o = .next t ∧ same u t ∧ KeepsRegs s u [] [] [] [] ∧
         u = { s with ctxs := u.ctxs, nextId := s.nextId + 1, tmem := u.tmem, uce := u.uce } ∧ r u.tmem
     (∀ (d a b c : SReg), Ready s p [a, b, c] [] →
       let off := s.addr a b
       (reach off false → sound off → loads (exec (.ld p mf d a b) s) (fun u => KeepsRegs s u [d] [] [] [] ∧ u.rdS d = if d = 0 then 0 else
         if mf.sx then (BitVec.ofNat (8 * n) (s.tread T off n)).signExtend 64 else BitVec.ofNat 64 (s.tread T off n))) ∧
       (reach off true → stores (exec (.st p mf a b c) s) (fun m => Stored s.tmem m (T * 0x80000 + off) n (s.rdS c).toNat))) ∧
     (∀ (a b : SReg) (v : VReg), Ready s p [a, b] [v] →
       let off := s.addr a b
       (off + 64 ≤ 0x80000 → (∀ i, i < 64 / n → reach (off + i * n) false ∧ sound (off + i * n)) →
         loads (exec (.vld p mf v a b) s) (fun u => KeepsRegs s u [] [v] [] [] ∧
           LanesAre (8 * n) (64 / n) (u.rdV v) (fun i => s.tread T (off + i * n) n))) ∧
       (off + 64 ≤ 0x80000 → (∀ i, i < 64 / n → reach (off + i * n) true) →
         stores (exec (.vst p mf a b v) s) (fun m => Stored s.tmem m (T * 0x80000 + off) 64 (s.rdV v).toNat))) ∧
     (∀ (a : SReg) (b v : VReg), Ready s p [a] [b, v] →
       let g := if n = 8 then 8 else 16
       let off := fun i => ((s.rdS a).toNat + lane 32 (s.rdV b) i) % 2 ^ 64
       ((∀ i, i < g → reach (off i) false ∧ sound (off i)) →
         loads (exec (.vldg p mf v a b) s) (fun u => KeepsRegs s u [] [v] [] [] ∧
           LanesAre (8 * n) (64 / n) (u.rdV v) (fun i => if i < g then s.tread T (off i) n else 0))) ∧
       ((∀ i, i < g → reach (off i) true) →
         stores (exec (.vsts p mf a b v) s) (fun m =>
           m = (List.range g).foldl (fun x i => mwrite x (T * 0x80000 + off i) n (lane (8 * n) (s.rdV v) i)) s.tmem))))

/-- spec/15 R302 to R305, R308, R309, spec/11 R220, spec/08 R162: ACCESS_RESPONSE reads the bytes at their home and gives them to the waiting
destination, at once from a home in the core, from any other with the reply that comes back; STORE_PERFORMED writes them, with the word states that
the instruction sets; STEF_WAKE does so for a STEF that waited for EMPTY words. Each takes the access away; no other byte changes. The homes of a
store outside the core answer it. How a request rides the fabric, one message for each home, is the model's choice (log entry 78). -/
def Obligations.AccessesArePerformed : Prop :=
  (∀ (s : State) (n c : Nat) (x : Reply), s.replies[n]? = some x → s.rideDone x.ride = true → s.runningOn x.acc.aid = some c →
    (s.ctx c).pend = none → x.acc.kind = .ld → x.acc.sx = false → lget? (s.ctx c).pendS x.acc.dst = some [x.acc.id] →
    ∃ u t, exec (.accessResponse (s.accesses.length + n)) s = .next t ∧ Woken u t ∧
      u = { s with ctxs := u.ctxs, replies := dropAt s.replies n } ∧
      u.ctx c = { s.ctx c with sregs := lset (s.ctx c).sregs x.acc.dst (BitVec.ofNat 64 x.val), pendS := ldel (s.ctx c).pendS x.acc.dst } ∧
      ∀ j, j ≠ c → u.ctx j = s.ctx j) ∧
  (∀ (s : State) (k : Nat) (a : Access), s.accesses[k]? = some a → a.seq = 0 → a.ts = false → 0 < a.bytes →
     (∀ e ∈ a.elems, ∀ c ch off, placeOf (s.forward e.pa) ≠ .aperture c ch off) →
     let ends := fun (u t : State) => Woken u t ∧ u.accesses = s.accesses.filter (fun b => b.id != a.id) ∧
       u = { s with ctxs := u.ctxs, accesses := u.accesses, replies := u.replies, mem := u.mem, fe := u.fe, uce := u.uce, lines := u.lines,
                    reveals := u.reveals, pages := u.pages, migs := u.migs, fabric := u.fabric, flights := u.flights, nextId := u.nextId } ∧
       (a.ride = .none ∨ a.kind.isLoad = true → u.fabric = s.fabric ∧ u.flights = s.flights ∧ u.nextId = s.nextId) ∧
       (a.ride ≠ .none → a.kind.isLoad = false → ∀ h ∈ s.homesOf (a.pieces 0 true), ∃ m ∈ (u.fab (h / 512)).msgs, m.src = h ∧
         m.dst = a.tile / 32 / 16 * 512 + a.tile / 32 % 16 ∧ m.what = .reply ∧ m.done = false ∧ m.aid = a.aid ∧ s.nextId ≤ m.num)
     let ext := fun (v : Nat) => if a.sx then (BitVec.ofNat (8 * a.bytes) v).signExtend 64 else BitVec.ofNat 64 v
     (s.mayPerform a = true → (∀ c, s.runningOn a.aid = some c → (s.ctx c).pend = none) → (∀ e ∈ a.elems, s.homeBad a e = none) →
       (a.kind = .feget ∨ ∀ e ∈ a.elems, s.hasUce (s.forward e.pa) a.bytes = false) →
       (∀ c, s.runningOn a.aid = some c → (a.ride = .none ∨ a.kind = .feget) →
         let answers := fun (r : Ctx → Prop) => ∃ u t, exec (.accessResponse k) s = .next t ∧ ends u t ∧ KeepsMem s t ∧ u.replies = s.replies ∧
           r (u.ctx c) ∧ ∀ j, j ≠ c → u.ctx j = s.ctx j
         (∀ e, a.elems = [e] → a.kind = .ld → e.lane = 0 → lget? (s.ctx c).pendS a.dst = some [a.id] →
           answers (fun x => x = { s.ctx c with sregs := lset (s.ctx c).sregs a.dst (ext (mread s.mem (s.forward e.pa) a.bytes)),
                                                pendS := ldel (s.ctx c).pendS a.dst })) ∧
         (∀ e, a.elems = [e] → a.kind = .feget → a.sx = false → lget? (s.ctx c).pendS a.dst = some [a.id] →
           answers (fun x => x = { s.ctx c with sregs := lset (s.ctx c).sregs a.dst ((s.feOf (s.forward e.pa)).setWidth 64),
                                                pendS := ldel (s.ctx c).pendS a.dst })) ∧
         (a.kind = .vld ∨ a.kind = .vldg → lget? (s.ctx c).pendV a.dst = some [a.id] → a.elems.Pairwise (fun x y => x.lane ≠ y.lane) →
           (∀ e ∈ a.elems, 8 * a.bytes * (e.lane + 1) ≤ 512) →
           ∃ v, answers (fun x => x = { s.ctx c with vregs := lset (s.ctx c).vregs a.dst v, pendV := ldel (s.ctx c).pendV a.dst }) ∧
             (∀ e ∈ a.elems, lane (8 * a.bytes) v e.lane = mread s.mem (s.forward e.pa) a.bytes) ∧
             ∀ i, 8 * a.bytes * (i + 1) ≤ 512 → (∀ e ∈ a.elems, e.lane ≠ i) → lane (8 * a.bytes) v i = 0)) ∧
       (a.ride ≠ .none → a.kind = .ld ∨ a.kind = .vld ∨ a.kind = .vldg →
         ∃ u t, exec (.accessResponse k) s = .next t ∧ ends u t ∧ KeepsMem s t ∧ u.ctxs = s.ctxs ∧
           u.replies = s.replies ++ [{ acc := a, val := s.loadValue a }] ∧
           ∀ e, a.elems = [e] → e.lane = 0 → s.loadValue a = mread s.mem (s.forward e.pa) a.bytes)) ∧
     ((∀ c, s.runningOn a.aid = some c → (s.ctx c).pend = none) →
       let plain := a.kind = .st ∨ a.kind = .vst ∨ a.kind = .vsts
       let fills := a.kind = .stf ∨ a.kind = .vstf ∨ a.kind = .stef
       (∀ e, a.elems = [e] → s.homeBad a e = none →
         let pa := s.forward e.pa
         let v := lane (8 * a.bytes) a.data e.lane
         let stores := fun (o : Outcome) => ∃ u t, o = .next t ∧ ends u t ∧ Stored s.mem t.mem pa a.bytes v ∧ t.ctxs = s.ctxs ∧
           (plain → t.fe = s.fe) ∧
           (fills → ∀ w, t.feOf (4 * w) = if pa / 4 ≤ w ∧ w * 4 < pa + a.bytes then 1 else s.feOf (4 * w))
         (a.waiting = false → a.resendAt = 0 → s.mayPerform a = true →
           (plain ∨ a.kind = .stf ∨ a.kind = .vstf → stores (exec (.storePerformed k) s)) ∧
           (a.kind = .stef → s.allEmpty a = true → s.stefBefore a = false → stores (exec (.storePerformed k) s)) ∧
           (a.kind = .stef → s.allEmpty a = false → (∀ c, s.waitUsed c < 512) →
             ∃ t, exec (.storePerformed k) s = .next t ∧ KeepsMem s t ∧
               t = { s with accesses := s.accesses.filter (fun b => b.id != a.id) ++ [{ a with waiting := true }] }) ∧
           (a.kind = .feset → ∃ u t, exec (.storePerformed k) s = .next t ∧ ends u t ∧ t.mem = s.mem ∧ t.ctxs = s.ctxs ∧
             ∀ w, t.feOf (4 * w) = if w = pa / 4 then BitVec.ofNat 2 (v % 4) else s.feOf (4 * w))) ∧
         (a.waiting = true → a.kind = .stef → s.allEmpty a = true → s.stefBefore a = false → stores (exec (.stefWake k) s))) ∧
       (plain ∨ a.kind = .stf ∨ a.kind = .vstf → a.waiting = false → a.resendAt = 0 → s.mayPerform a = true →
         (s.doParts a (State.partsOf a) 0 0).2.2 = none →
         ∃ u t, exec (.storePerformed k) s = .next t ∧ ends u t ∧ t.ctxs = s.ctxs ∧ (plain → t.fe = s.fe) ∧
           (¬ plain → ∀ w, t.feOf (4 * w) =
             if ∃ e ∈ a.elems, s.forward e.pa / 4 ≤ w ∧ w * 4 < s.forward e.pa + a.bytes then 1 else s.feOf (4 * w)) ∧
           t.mem = (State.partsOf a).flatten.foldl (fun m e => mwrite m (s.forward e.pa) a.bytes (lane (8 * a.bytes) a.data e.lane)) s.mem)))

/-- spec/15 R306 to R308, spec/05 R107: LDF, LDFE and VLDF read their words once every one is FULL, LDFE leaving them EMPTY in the same event; else
the activation parks with pcause 6 and waits for the words. -/
def Obligations.FullEmptyLoads : Prop :=
  ∀ (s : State) (p : Pred) (mf : MemF) (a b : SReg) (es : List Elem), Ready s p [a, b] [] → mf.seq = 0 → mf.ts = false →
    let n := widthBytes mf.wd
    let g := s.addr a b
    let words := fun (w : Nat) => ∃ e ∈ es, s.forward e.pa / 4 ≤ w ∧ w * 4 < s.forward e.pa + n
    let one : Want := { kind := .ld, mf := mf, fe := true, bytes := n, elems := [(0, g)] }
    let many : Want := { kind := .vld, mf := mf, fe := true, bytes := n, elems := (List.range (64 / n)).map (fun i => (i, (g + i * n) % 2 ^ 64)) }
    let sound := fun (x : Want) => MaySync s x es ∧
      ∀ e ∈ es, s.homeBad { s.mkAccess x es with kind := .ld } e = none ∧ s.hasUce (s.forward e.pa) n = false
    let full := ∀ w, words w → s.feOf (4 * w) = 1
    let goes := fun (o : Outcome) (r : State → Prop) => ∃ u t, o = .next t ∧ Woken u t ∧ StaysOn s u ∧ NextInstr s u ∧
      u = { s with ctxs := u.ctxs, fe := u.fe } ∧ (∀ k, k ≠ s.focus → u.ctx k = s.ctx k) ∧ r u
    let value := fun (e : Elem) => let v := mread s.mem (s.forward e.pa) n
      if mf.sx then (BitVec.ofNat (8 * n) v).signExtend 64 else BitVec.ofNat 64 v
    (∀ (d : SReg) (e : Elem), es = [e] → sound one → full →
      let out := fun u => KeepsRegs s u [d] [] [] [] ∧ u.rdS d = if d = 0 then 0 else value e
      goes (exec (.ldf p mf d a b) s) (fun u => out u ∧ u.fe = s.fe) ∧
      goes (exec (.ldfe p mf d a b) s) (fun u => out u ∧ (∀ w, words w → u.feOf (4 * w) = 0) ∧ ∀ w, ¬ words w → u.feOf (4 * w) = s.feOf (4 * w))) ∧
    (∀ d : VReg, sound many → full →
      goes (exec (.vldf p mf d a b) s) (fun u => KeepsRegs s u [] [d] [] [] ∧ u.fe = s.fe ∧
        ∀ e ∈ es, lane (8 * n) (u.rdV d) e.lane = mread s.mem (s.forward e.pa) n)) ∧
    (¬ full → s.waitUsed s.curCore < 512 →
      let w : Wait := .words ((es.head?.map (·.gva)).getD 0) (es.flatMap (fun e => State.wordsOf (s.forward e.pa) n))
      (∀ d : SReg, sound one → Parks s (exec (.ldf p mf d a b) s) 6 w s.cur.ip ∧ Parks s (exec (.ldfe p mf d a b) s) 6 w s.cur.ip) ∧
      (∀ d : VReg, sound many → Parks s (exec (.vldf p mf d a b) s) 6 w s.cur.ip))

/-- spec/15 R310, spec/08 R162: an atomic gives its register the old value and stores the new one, in memory or in tile memory; ACAS stores nothing
where it does not match. No other byte, no other register, no flag changes. One whose home lies outside the core is held while its request is on its
way; it is performed once the request has come, and the home answers. Atomics on pages of sequences follow log entry 27. How a request rides the
fabric, one message for each home, is the model's choice (log entry 78). -/
def Obligations.AtomicResults : Prop :=
  ∀ (s : State) (p : Pred) (mf : MemF) (d a b c : SReg) (e : Elem), Ready s p [a, b, c, d] [] → mf.seq = 0 →
    let n := widthBytes mf.wd
    let w := 8 * n
    let x : Want := { kind := .ld, mf := mf, write := true, bytes := n, elems := [(0, s.addr a b)] }
    let acc := s.mkAccess x [e]
    let far := State.isFar mf.ts [e] = true
    let all : List Instr := [.aadd p mf d a b c, .amin p mf d a b c, .amax p mf d a b c, .aand p mf d a b c, .aor p mf d a b c, .axor p mf d a b c,
      .aswp p mf d a b c, .acas p mf d a b c, .afadd p mf d a b c]
    let old := BitVec.ofNat w (s.readElem acc e)
    let v := (s.rdS c).setWidth w
    let waits := { acc with kind := .sync }
    let stands := fun (n : Nat) => s.accesses.find? (fun y => y.kind == .sync && y.aid == s.cur.aid && y.ip == s.cur.ip && y.seq == 0) =
        some { waits with id := n } ∧ (∀ y ∈ s.accesses, y.aid = s.cur.aid ↔ y.id = n) ∧ ∀ y ∈ s.replies, y.acc.aid ≠ s.cur.aid
    let sound := (mf.ts = true → 0x40000 ≤ e.pa ∨ (s.frame (s.curTile * 128 + e.pa / 0x800)).inHeap = false) ∧
      s.atomBad acc e true = none ∧ s.atomBad acc e false = none ∧ s.hasUce (s.uceKey acc e) n = false
    let gives := fun (i : Instr) (new : Nat) => ∃ u t, exec i s = .next t ∧ Woken u t ∧ StaysOn s u ∧ NextInstr s u ∧ KeepsRegs s u [d] [] [] [] ∧
      u.rdS d = (if d = 0 then 0 else if mf.sx then old.signExtend 64 else old.setWidth 64) ∧
      OnFabric { s with ctxs := u.ctxs, mem := u.mem, tmem := u.tmem, uce := u.uce, lines := u.lines, reveals := u.reveals, pages := u.pages,
                        migs := u.migs, accesses := u.accesses } u ∧
      (¬ far → u.accesses = s.accesses ∧ u.trips = s.trips ∧ u.fabric = s.fabric ∧ u.flights = s.flights ∧ u.nextId = s.nextId) ∧
      (far → (∀ y, y ∈ u.accesses ↔ y ∈ s.accesses ∧ y.aid ≠ s.cur.aid) ∧
        ∀ h, homeNode (s.forward e.pa) = some h → Stands u s.tripHere.who s.tripHere.src true [h]) ∧
      (∀ k, k ≠ s.focus → u.ctx k = s.ctx k) ∧
      (mf.ts = false → u.tmem = s.tmem ∧ Stored s.mem u.mem (s.forward e.pa) n new) ∧
      (mf.ts = true → u.mem = s.mem ∧ Stored s.tmem u.tmem (s.curTile * 0x80000 + e.pa) n new)
    (far → MaySync s x [e] → NotAsked s → ∀ h, homeNode (s.forward e.pa) = some h → ∀ i ∈ all,
      ∃ t, exec i s = .next t ∧ t.cur.held = true ∧ t.cur.ip = s.cur.ip ∧ StaysOn s t ∧ KeepsRegs s t [] [] [] [] ∧
        OnFabric { s with ctxs := t.ctxs, accesses := s.accesses ++ [waits] } t ∧ Stands t s.tripHere.who s.tripHere.src false [h]) ∧
    (sound → (¬ far ∧ MaySync s x [e]) ∨ (far ∧ (∃ n, stands n) ∧ ∃ y, HasCome s y) →
      gives (.aadd p mf d a b c) (old + v).toNat ∧
      gives (.amin p mf d a b c) (if v.toInt < old.toInt then v else old).toNat ∧
      gives (.amax p mf d a b c) (if old.toInt < v.toInt then v else old).toNat ∧
      gives (.aand p mf d a b c) (old &&& v).toNat ∧
      gives (.aor p mf d a b c) (old ||| v).toNat ∧
      gives (.axor p mf d a b c) (old ^^^ v).toNat ∧
      gives (.aswp p mf d a b c) v.toNat ∧
      gives (.acas p mf d a b c) (if old = (s.rdS d).setWidth w then v else old).toNat ∧
      (mf.wd = .w → gives (.afadd p mf d a b c) (fAdd .f32 .rne .none old.toNat v.toNat).v) ∧
      (mf.wd = .d → gives (.afadd p mf d a b c) (fAdd .f64 .rne .none old.toNat v.toNat).v))

/-- spec/15 R311 to R313, spec/09 R192, spec/08 R162: FENCE goes on once no access of the activation is still to be performed, and is held before,
whatever their kind; a null entry makes no access. CWB, CINV and PREF, once no access to the block is outstanding, are held while the request goes to
the block's home in HBM; there CWB and CINV leave no dirty copy of its line, CINV no copy at all, PREF one in the slice, and none of them changes a
byte; a block outside HBM is left alone; a PREF that would fault is dropped. OSCLM and OSREL add and remove one record of the activation's colour and
request tag, and fault SLOT on a bad selector, a 17th record or none to remove. A chain access whose predicate is 0 sends a null entry, the last of
the outstanding accesses. That CWB, CINV and PREF change no byte is the model's choice (log entry 28). How a request rides the fabric, one message for
each home, is the model's choice (log entry 78). -/
def Obligations.FencesCachesAndClaims : Prop :=
  ∀ (s : State) (p : Pred) (mf : MemF),
    (Ready s p [] [] →
      ((∀ a ∈ s.accesses, a.aid = s.cur.aid → a.kind = .sync ∨ a.kind = .null) →
        OnlyAdvances s (exec (.fence p mf) s)) ∧
      ((∃ a ∈ s.accesses, a.aid = s.cur.aid ∧ a.kind ≠ .sync ∧ a.kind ≠ .null) → Holds s (exec (.fence p mf) s))) ∧
    (∀ (a b : SReg) (e : Elem), Ready s p [a, b] [] →
      let x : Want := { mf := mf, elems := [(0, s.addr a b)] }
      let num := s.forward e.pa / 128
      let kept := fun (o : Outcome) (r : State → Prop) => ∃ t, o = .next t ∧ GoesOn s t ∧ KeepsMem s t ∧
        OnFabric { s with ctxs := t.ctxs, lines := t.lines, reveals := t.reveals } t ∧
        (∀ h, homeNode (s.forward e.pa) = some h → Stands t s.tripHere.who s.tripHere.src true [h]) ∧ (∀ k, k ≠ s.focus → t.ctx k = s.ctx k) ∧ r t
      let hbm := mf.ts = false ∧ placeOf (s.forward e.pa) = .hbm
      (s.check x = .ok [e] → (∀ b ∈ s.accesses, b.aid ≠ s.cur.aid) → hbm → NotAsked s → ∀ h, homeNode (s.forward e.pa) = some h →
        Asks s (exec (.cwb p mf a b) s) [h] ∧ Asks s (exec (.cinv p mf a b) s) [h] ∧ Asks s (exec (.pref p mf a b) s) [h]) ∧
      (s.check x = .ok [e] → (∀ b ∈ s.accesses, b.aid ≠ s.cur.aid) → hbm → (∃ y, HasCome s y) →
        kept (exec (.cwb p mf a b) s) (fun t => (∀ y ∈ t.lines, y.num = num → y.dirty = false) ∧
          (∀ y ∈ s.lines, y.num ≠ num → y ∈ t.lines) ∧ t.lines.length = s.lines.length) ∧
        kept (exec (.cinv p mf a b) s) (fun t => t.lines = s.lines.filter (fun y => y.num != num)) ∧
        kept (exec (.pref p mf a b) s) (fun t => e.nc = false → ∃ y ∈ t.lines, y.num = num ∧ y.gw = none ∧ y.sectors = 0xF)) ∧
      (s.check x = .ok [e] → (∀ b ∈ s.accesses, b.aid ≠ s.cur.aid) → ¬ hbm →
        OnlyAdvances s (exec (.cwb p mf a b) s) ∧ OnlyAdvances s (exec (.cinv p mf a b) s) ∧ OnlyAdvances s (exec (.pref p mf a b) s)) ∧
      (∀ i, s.check x = .fault i → exec (.cwb p mf a b) s = .next (s.takeTrap i) ∧ exec (.cinv p mf a b) s = .next (s.takeTrap i) ∧
        OnlyAdvances s (exec (.pref p mf a b) s))) ∧
    (∀ (d a : SReg), Ready s p [a] [] →
      let sel := s.rdS a
      let me := (s.cur.col, s.cur.rtag)
      let after := fun (o : Outcome) (c i k : Nat) (l : List (BitVec 5 × BitVec 16)) => ∃ t, o = .next t ∧ KeepsRegs s t [d] [] [] [] ∧ StaysOn s t ∧
        NextInstr s t ∧ t.rdS d = (if d = 0 then 0 else BitVec.ofNat 64 l.length) ∧ t.claimsAt (c, i, k) = l ∧
        t = { s with ctxs := t.ctxs, cores := t.cores } ∧ (∀ j, j ≠ c → t.core j = s.core j) ∧ (∀ j, j ≠ i → t.island c j = s.island c j) ∧
        ∀ j, j ≠ k → t.claimsAt (c, i, j) = s.claimsAt (c, i, j)
      (sel.extractLsb' 9 55 ≠ 0 ∨ (s.region s.curRegion).coreAt (sel.extractLsb' 0 4).toNat = none →
        Traps s (exec (.osclm p mf d a) s) Cause.slot ∧ Traps s (exec (.osrel p mf d a) s) Cause.slot) ∧
      (∀ c, sel.extractLsb' 9 55 = 0 → (s.region s.curRegion).coreAt (sel.extractLsb' 0 4).toNat = some c →
        let i := (sel.extractLsb' 4 1).toNat
        let k := (sel.extractLsb' 5 1).toNat * 8 + (sel.extractLsb' 6 3).toNat
        let l := s.claimsAt (c, i, k)
        (l.length < 16 → after (exec (.osclm p mf d a) s) c i k (l ++ [me])) ∧
        (16 ≤ l.length → Traps s (exec (.osclm p mf d a) s) Cause.slot) ∧
        (∀ l1 l2, l = l1 ++ me :: l2 → me ∉ l1 → after (exec (.osrel p mf d a) s) c i k (l1 ++ l2)) ∧
        (me ∉ l → Traps s (exec (.osrel p mf d a) s) Cause.slot))) ∧
    (∀ (i : Instr) (f : Fields), i.fields = some f → s.holds f.pred = false → f.form = 3 → f.op.toNat < 0x40 → f.aux.extractLsb' 4 6 ≠ 0 →
      s.ostCount s.cur.aid < 63 →
      ∃ t b, exec i s = .next t ∧ GoesOn s t ∧ KeepsMem s t ∧ t.accesses.map (·.id) = s.accesses.map (·.id) ++ [s.nextId] ∧
        t = { s with ctxs := t.ctxs, accesses := t.accesses, nextId := s.nextId + 1, regions := t.regions } ∧
        b ∈ t.accesses ∧ b.id = s.nextId ∧ b.kind = .null ∧ b.elems = [] ∧ b.aid = s.cur.aid)

/-- spec/05 R104 to R106, spec/15 R315: a chain access reaches its region's replay buffer, is let go once the accesses that its PD names and those
whose SD names it have been performed, and counts in LINKLATE when its chain is closed. -/
def Obligations.ChainAccessesInOrder : Prop :=
  ∀ (s : State) (k : Nat) (a : Access), s.accesses[k]? = some a → a.seq ≠ 0 → a.freed = false → a.kind ≠ .sync →
    let o := exec (.chainAccessRelease k) s
    let first := s.accesses.any (fun b => b.aid == a.aid && b.id < a.id && b.seq != 0 && !b.freed && !s.arrived b) = false
    let room := s.chainUsed a.region < 256 * (s.region a.region).cores.length
    let item : ChainItem := { seq := a.seq, sd := a.sd, acc := a.id }
    let onlyRegion := fun (t : State) => t = { s with regions := t.regions } ∧ ∀ r, r ≠ a.region → t.region r = s.region r
    (s.chainOf a = none → first → room → ∃ t, o = .next t ∧ onlyRegion t ∧ t.region a.region = { s.region a.region with
      chains := (s.region a.region).chains ++ [{ col := a.col, wave := a.wave, sub := a.sub, items := [item] }] }) ∧
    (∀ c, s.chainOf a = some c → c.closed = false → (∀ i ∈ c.items, i.acc ≠ a.id) → first → room →
      ∃ t, o = .next t ∧ onlyRegion t ∧ t.chainOf a = some { c with items := c.items ++ [item] }) ∧
    (∀ c, s.chainOf a = some c → c.closed = true → (∀ i ∈ c.items, i.acc ≠ a.id) → first →
      ∃ t, o = .next t ∧ (t.region a.region).linklate = min (2 ^ 32 - 1) ((s.region a.region).linklate + 1) ∧
        t.accesses = s.accesses.map (fun b => if b.id == a.id then { b with seq := if b.kind = .sync then b.seq else 0, freed := true } else b) ∧ KeepsMem s t ∧ t.ctxs = s.ctxs) ∧
    (∀ c i1 i2, s.chainOf a = some c → c.items = i1 ++ item :: i2 → (∀ i ∈ i1 ++ i2, i.acc ≠ a.id ∧ i.seq ≠ a.seq) →
      let others := i1 ++ i2
      let named := fun (n : Nat) => (a.pd = 1 ∧ n + 1 = a.seq) ∨ (a.pd = 2 ∧ n + 2 = a.seq) ∨
        ∃ i ∈ others, i.seq = n ∧ ((i.sd = 1 ∧ n + 1 = a.seq) ∨ (i.sd = 2 ∧ n + 2 = a.seq))
      (a.pd = 2 → 2 ≤ a.seq) →
      ((a.pd = 0 → ∃ n, named n) → (∀ n, named n → (∃ i ∈ others, i.seq = n) ∧ ∀ i ∈ others, i.seq = n → i.performed = true) →
        ∃ t, o = .next t ∧ t = { s with accesses := s.accesses.map (fun b => if b.id == a.id then { b with freed := true } else b) }) ∧
      ((∃ n, named n ∧ ((∀ i ∈ others, i.seq ≠ n) ∨ ∃ i ∈ others, i.seq = n ∧ i.performed = false)) → o = .next s))

/-- spec/14 R292, R293, R295, spec/15 R307, spec/20 R404, spec/08 R162: TABLE_WALK asks the homes of the entries that it reads; once its request has
come to each, it sets A, and D on a write, in both leaves, and fills the TLBs of every tile that waits for it and of their cores, and the homes
answer; a walk that faults fills nothing. WAIT_ENTRY_RETRY, SEQ_WAIT_RETRY and STEF_RESEND let a refused waiter try again once its time has come, and
do nothing before. PAGE_MODE_INTERVAL decides which pages are replicated and clears every count. spec/14 R290, R296, spec/02 R22: a page migrates,
whatever its size, by a copy at a quiesce point, copies again of what was written meanwhile, and a commit that changes the stage-2 leaf, drops every
translation of the old page and leads what pointed to it on; a slice that nothing leads into any more leaves and reads zero. A unit that changes hands
is scrubbed, a slice at a quiesce point only, and no byte outside it changes; no unit goes to a partition above 15. When a walk ends, and what a bad
walk leaves, are the model's choices (log entries 7, 31). How a request rides the fabric, one message for each home, is the model's choice (log entry
78). -/
def Obligations.TranslationAndPageEvents : Prop :=
  (∀ s : State,
     (∀ (k : Nat) (w : Walk), s.walks[k]? = some w →
       let hs := s.homesOf (s.walkPieces w)
       let who := (s.walkTrip w).who
       let src := (s.walkTrip w).src
       let done := fun (t : State) => t.walks = dropAt s.walks k ∧ (hs ≠ [] → Stands t who src true hs)
       (s.tripOfKey who = none → hs ≠ [] → ∃ t, exec (.tableWalk k) s = .next t ∧ OnFabric s t ∧ Stands t who src false hs) ∧
       (∀ x, s.tripOfKey who = some x → x.back = true ∨ s.tripDone x = false → exec (.tableWalk k) s = .next s) ∧
       ((s.tripOfKey who = none ∧ hs = []) ∨ (∃ x, s.tripOfKey who = some x ∧ x.src = src ∧ x.back = false ∧ s.tripDone x = true) →
       (∀ c, s.walk w.vmid w.asid w.gva = .error c → ∃ t, exec (.tableWalk k) s = .next t ∧ done t ∧ KeepsMem s t ∧
         OnFabric { s with walks := t.walks, lines := t.lines, reveals := t.reveals, pages := t.pages } t) ∧
       (∀ e e1 e2, s.walk w.vmid w.asid w.gva = .ok (e, e1, e2) →
         let d := w.write && !e.ro
         let x := { e with dirty := e.dirty || d }
         let at_ := fun (y : Nat) => y = s.forward e1.1 ∨ y = s.forward e2
         let tiles := w.tile :: w.also
         ∃ t, exec (.tableWalk k) s = .next t ∧ done t ∧
           OnFabric { s with walks := t.walks, mem := t.mem, tiles := t.tiles, cores := t.cores, uce := t.uce, lines := t.lines, reveals := t.reveals,
                             pages := t.pages, migs := t.migs } t ∧
           (∀ y, at_ y → (mget t.mem y).getLsbD 6 = true ∧ (d = true → (mget t.mem y).getLsbD 7 = true) ∧
             ∀ i, i < 6 → (mget t.mem y).getLsbD i = (mget s.mem y).getLsbD i) ∧
           (∀ y, ¬ at_ y → mget t.mem y = mget s.mem y) ∧
           (∀ T ∈ tiles, x ∈ (t.tile T).tlb ∧ (t.tile T).tlb.length ≤ 32 ∧ t.tile T = { s.tile T with tlb := (t.tile T).tlb } ∧
             x ∈ (t.core (T / 32)).tlb ∧ (t.core (T / 32)).tlb.length ≤ 2048) ∧
           (∀ c, t.core c = { s.core c with tlb := (t.core c).tlb }) ∧
           (∀ j, j ∉ tiles → t.tile j = s.tile j) ∧ ∀ c, c ∉ tiles.map (· / 32) → t.core c = s.core c))) ∧
     (∀ (T f : Nat), f < 128 →
       let x := s.frame (T * 128 + f)
       x.cont = .parked → x.lateMark = false →
       let woken := fun (o : Outcome) => o = .next (s.setFrame (T * 128 + f) { x with cont := .runnable, readyAt := s.clkOf (T / 32), promoted := none })
       (∀ g pas at_, x.wait = .wordsRetry g pas at_ → (at_ ≤ s.clkOf (T / 32) → woken (exec (.waitEntryRetry T f) s)) ∧
         (s.clkOf (T / 32) < at_ → exec (.waitEntryRetry T f) s = .next s)) ∧
       (∀ g n at_, x.wait = .seqRetry g n at_ → (at_ ≤ s.clkOf (T / 32) → woken (exec (.seqWaitRetry T f) s)) ∧
         (s.clkOf (T / 32) < at_ → exec (.seqWaitRetry T f) s = .next s))) ∧
     (∀ (k : Nat) (a : Access), s.accesses[k]? = some a → a.kind = .stef → a.resendAt ≠ 0 →
       (a.resendAt ≤ s.clkOf (a.tile / 32) → exec (.stefResend k) s = .next { s with accesses := s.accesses.map (fun b =>
         if b.id == a.id then { b with resendAt := 0 } else b) }) ∧
       (s.clkOf (a.tile / 32) < a.resendAt → exec (.stefResend k) s = .next s)) ∧
     (∃ t, exec .pageModeInterval s = .next t ∧ t = { s with hub := { s.hub with pageAt := s.now }, pages := t.pages } ∧
       ∀ pg,
         let q := lget {} s.pages pg
         let r := lget {} t.pages pg
         r.reads = 0 ∧ r.writes = 0 ∧ ((lget? s.pages pg).isSome →
           (r.replicated = true ↔ q.replicated = true ∨ (s.hub.replTh ≠ 0 ∧ s.hub.replTh ≤ q.reads ∧ q.writes = 0 ∧
             ∀ m ∈ s.migs, m.part ≠ s.ownerOf (pg * 0x10000)))))) ∧
  (∀ s : State, Safe s →
     let cleared := fun (t : State) (a n : Nat) => (∀ x, a ≤ x → x < a + n → mget t.mem x = 0) ∧
       (∀ x, x < a ∨ a + n ≤ x → mget t.mem x = mget s.mem x) ∧
       t = { s with mem := t.mem, uce := t.uce, fe := t.fe, lines := t.lines, pages := t.pages, migs := t.migs, ownCore := t.ownCore,
                    ownSlice := t.ownSlice, ownSram := t.ownSram }
     (∀ (p vmid gpa target : Nat) (l : Leaf) (pa : Nat), s.stage2 vmid gpa = .ok (l, pa) →
       let src := pa / l.size * l.size
       let dst := target / l.size * l.size
       s.quiesced p = true → s.ownsRange p src l.size = true → s.ownsRange p dst l.size = true → src / 0x100000000 ≠ dst / 0x100000000 →
       (dst + l.size ≤ src ∨ src + l.size ≤ dst) → (∀ m ∈ s.migs, m.src + m.size ≤ src ∨ src + l.size ≤ m.src) →
       ∃ t, exec (.sliceMigration (.start p vmid gpa target)) s = .next t ∧
         t.migs = s.migs ++ [{ part := p, vmid := vmid, gpa := gpa / l.size * l.size, src := src, dst := dst, size := l.size }] ∧
         (∀ i, i < l.size → mget t.mem (dst + i) = mget s.mem (src + i)) ∧ (∀ x, x < dst ∨ dst + l.size ≤ x → mget t.mem x = mget s.mem x) ∧
         (∀ y, y ∈ t.lines ↔ y ∈ s.lines ∧ (128 * y.num < src ∨ src + l.size ≤ 128 * y.num) ∧ (128 * y.num < dst ∨ dst + l.size ≤ 128 * y.num)) ∧
         t = { s with migs := t.migs, mem := t.mem, pages := t.pages, uce := t.uce, lines := t.lines, reveals := t.reveals }) ∧
     (∀ (k : Nat) (x : Migration), s.migs[k]? = some x → (x.src + x.size ≤ x.dst ∨ x.dst + x.size ≤ x.src) →
       (∀ i ∈ x.dirty, 128 * i + 128 ≤ x.size) →
       ∃ t, exec (.sliceMigration (.recopy k)) s = .next t ∧ t.migs[k]? = some { x with dirty := [] } ∧
         (∀ i ∈ x.dirty, ∀ j, j < 128 → mget t.mem (x.dst + 128 * i + j) = mget s.mem (x.src + 128 * i + j)) ∧
         (∀ y, y < x.dst ∨ x.dst + x.size ≤ y → mget t.mem y = mget s.mem y) ∧ t = { s with migs := t.migs, mem := t.mem, uce := t.uce }) ∧
     (∀ (k : Nat) (x : Migration) (l : Leaf) (pa : Nat), s.migs[k]? = some x → x.dirty = [] → x.committed = false →
       (x.src + x.size ≤ x.dst ∨ x.dst + x.size ≤ x.src) → s.stage2 x.vmid x.gpa = .ok (l, pa) →
       ∃ t, exec (.sliceMigration (.commit k)) s = .next t ∧ t.migs[k]? = some { x with committed := true } ∧
         (∀ j m, j ≠ k → s.migs[j]? = some m → m.committed = true → t.migs[j]? = some { m with
           dst := if x.src ≤ m.dst ∧ m.dst < x.src + x.size then x.dst + (m.dst - x.src) else m.dst }) ∧
         Stored s.mem t.mem (t.forward l.entryPa) 8 (l.entry % 0x10000 + x.dst) ∧
         t = { s with migs := t.migs, mem := t.mem, tiles := t.tiles, cores := t.cores, uce := t.uce, lines := t.lines, reveals := t.reveals,
                      pages := t.pages } ∧
         (∀ T, ∀ e ∈ (t.tile T).tlb, ¬(e.pa < x.src + x.size ∧ x.src < e.pa + e.size)) ∧
         (∀ c, ∀ e ∈ (t.core c).tlb, ¬(e.pa < x.src + x.size ∧ x.src < e.pa + e.size))) ∧
     ((∀ sl,
         let a := sl * 0x100000000
         let p := s.ownerOf a
         let old := fun (m : Migration) => m.src < a + 0x100000000 ∧ a < m.src + m.size
         (∀ m ∈ s.migs, old m → m.committed = true) → s.leavesIn p sl = false → s.quiesced p = true →
         (∀ b ∈ s.accesses, b.ts = false → ∀ e ∈ b.elems, e.pa / 0x100000000 ≠ sl) →
         ∃ t, exec (.sliceMigration (.finish sl)) s = .next t ∧ cleared t a 0x100000000 ∧ lget? t.ownSlice sl = none ∧
           ∀ m, m ∈ t.migs ↔ m ∈ s.migs ∧ (¬ old m ∨ ∃ i, i * 0x100000000 < m.size ∧ t.ownerOf (m.src + i * 0x100000000) = p)) ∧
       (∀ (u : OwnUnit) (part : Option Nat),
         let a := match u with
           | .core c => scratchPa c 0
           | .slice n => n * 0x100000000
           | .sram r => sramPa (r / 32) (r % 32 * 0x4000000)
         let n := match u with
           | .core _ => 0x800000
           | .slice _ => 0x100000000
           | .sram _ => 0x4000000
         let own := fun (t : State) => match u with
           | .core c => lget? t.ownCore c
           | .slice m => lget? t.ownSlice m
           | .sram r => lget? t.ownSram r
         (16 ≤ part.getD 0 → exec (.ownershipSet u part) s = .next s) ∧
         (∀ sl p, u = .slice sl → lget? s.ownSlice sl = some p → part ≠ some p → s.quiesced p = false → exec (.ownershipSet u part) s = .next s) ∧
         (part.getD 0 < 16 → (∀ sl p, u = .slice sl → lget? s.ownSlice sl = some p → part = some p ∨ s.quiesced p = true) →
           ∃ t, exec (.ownershipSet u part) s = .next t ∧ own t = part ∧
           ((own s).isSome → own s ≠ part → cleared t a n ∧ ∀ w, a ≤ 4 * w → 4 * w < a + n → t.feOf (4 * w) = 0) ∧
           ((own s = none ∨ own s = part) → KeepsMem s t)))))

/-! Control. -/

/-- spec/11 R235, R236: branches, calls, returns and loops move IP as stated and change nothing else but their register; with ENDH the open records
leave, and hold it while one of them is a wave control record still to be applied; then a frame without a present slot returns to the free list, and
the context is free, or, while loads are outstanding, kept for their answers alone. That a frame of a retired wave whose slots fire nothing is freed
with its slots is the model's choice (log entry 25; spec/02 R50 says it stays). -/
def Obligations.ControlFlowResults : Prop :=
  ∀ (s : State) (p : Pred) (d a : SReg) (imm : BitVec 32), Ready s p [a] [] →
    let ip := s.cur.ip
    let follows := ip + BitVec.ofNat 32 s.cur.len
    let x := s.rdS a
    Jumps s (exec (.br p imm) s) (ip + imm) ∧
    Jumps s (exec (.brr p a imm) s) (x.setWidth 32 + imm) ∧
    JumpsWith s (exec (.call p d imm) s) d (follows.setWidth 64) (ip + imm) ∧
    Jumps s (exec (.ret p a) s) (x.setWidth 32) ∧
    (x = 1 → JumpsWith s (exec (.loop p d a imm) s) d 0 follows) ∧
    (x ≠ 1 → JumpsWith s (exec (.loop p d a imm) s) d (x - 1) (ip + imm)) ∧
    let left := s.openRecs.foldl State.sendOpen s
    (left.sendsCtl = true → ∃ t, exec (.endh p) s = .next t ∧ t.cur = { s.cur with held := true } ∧ (∀ k, k ≠ s.focus → t.ctx k = s.ctx k) ∧
      t = { s with ctxs := t.ctxs, tiles := t.tiles, transit := left.transit } ∧
      (t.tile s.curTile).pool = (s.tile s.curTile).pool.filter (fun o => o.aid != s.cur.aid)) ∧
    (left.sendsCtl = false → (s.region s.curRegion).marks = [] → s.cur.frame < 128 →
      ∃ t, exec (.endh p) s = .next t ∧ (s.oldCount s.cur.aid = 0 → t.ctx s.focus = {}) ∧
        (s.oldCount s.cur.aid ≠ 0 → t.cur = { s.cur with ended := true, held := false, issued := s.cur.issued + 1 }) ∧
        (∀ k, k ≠ s.focus → t.ctx k = s.ctx k) ∧
        t = { s with ctxs := t.ctxs, frames := t.frames, tiles := t.tiles, transit := t.transit } ∧
        t.transit = left.transit ∧ (s.openRecs = [] → t.transit = s.transit) ∧
        (t.tile s.curTile).pool = (s.tile s.curTile).pool.filter (fun o => o.aid != s.cur.aid) ∧
        (s.curFrame.present = 0 → t.frame s.curFrameKey = { gen := s.curFrame.gen }) ∧
        (s.curFrame.present ≠ 0 → s.curFrame.alloc = true →
          let f := s.curFrame
          let h := s.handler s.curTile f.opsl.toNat f.col f.wave
          let fires := hV h = true ∧ hFire h ≠ 0 ∧ hFire h &&& f.present = hFire h
          let stays := (t.frame s.curFrameKey).present = f.present ∧ (t.frame s.curFrameKey).alloc = true
          (fires → stays ∧ (t.frame s.curFrameKey).cont = .fresh) ∧
          (¬ fires → s.waveGone s.curRegion f.col f.wave = false → stays ∧ (t.frame s.curFrameKey).cont = .none) ∧
          (¬ fires → s.waveGone s.curRegion f.col f.wave = true → t.frame s.curFrameKey = { gen := f.gen })) ∧
        ∀ k, k ≠ s.curFrameKey → t.frame k = s.frame k)

/-- spec/10 R208, spec/21 R414, R417, spec/11 R238: taking a trap. While loads of the activation are outstanding it only waits; then the park set and
the continuation word with pcause 7 are saved, the trap record is written at frame offset 0x700, the continuation is trapped, its context is free, and
the record goes to the region's trap operator on channel 63; nothing else changes. In trap-operator mode, or without a trap operator, the partition
log takes it and the hub purges. TRAP takes it with cause SWTRAP and its number. A trap with loads outstanding waits for them by log entry 15; log
entry 23 names WORD of a DICT trap. -/
def Obligations.TakingATrap : Prop :=
  ∀ (s : State),
    (∀ (p : Pred) (n : BitVec 16), Ready s p [] [] → ∃ i : TrapInfo, exec (.trap p n) s = .next (s.takeTrap i) ∧ i.cause = Cause.swtrap ∧
      i.arg = n ∧ i.ip = s.cur.ip ∧ i.word = s.cur.word) ∧
    (∀ i : TrapInfo, s.oldCount s.cur.aid ≠ 0 → s.takeTrap i = s.setCur { s.cur with pend := some i, held := true }) ∧
    (∀ i : TrapInfo, s.oldCount s.cur.aid = 0 → (s.region s.curRegion).marks = [] →
      let k := s.curFrameKey
      let b := s.curTile * 0x80000 + s.fp
      let record := fun (x : State) =>
        let at_ := fun (off n : Nat) => mread x.tmem (b + 0x700 + off) n
        at_ 0 1 = i.cause.toNat ∧ at_ 1 1 = (i.flags ||| (if s.trapMode then 0x10 else 0)).toNat ∧ at_ 2 1 = i.lane.toNat ∧ at_ 3 1 = i.fl.toNat ∧
        at_ 4 2 = s.cur.rtag.toNat ∧ at_ 6 2 = s.cur.wave.toNat ∧ at_ 8 1 = s.cur.col.toNat ∧ at_ 9 1 = s.cur.opsl.toNat ∧
        at_ 10 1 = s.curTile % 32 ∧ at_ 12 4 = i.ip.toNat ∧ at_ 16 8 = s.handleCur % 2 ^ 64 ∧ at_ 24 8 = i.word.toNat ∧ at_ 32 2 = i.dindex.toNat ∧
        at_ 34 2 = i.arg.toNat ∧ at_ 36 4 = i.parts.toNat ∧ at_ 40 8 = i.addr.toNat ∧ at_ 48 8 = i.under.toNat ∧ at_ 56 1 = s.cur.frame % 128
      let entered := fun (x : State) => SavedSet s x 7 s.cur.ip (fun y => b + 0x700 ≤ y ∧ y < b + 0x800) ∧ record x ∧ x.ctx s.focus = {} ∧
        (∀ j, j ≠ s.focus → x.ctx j = s.ctx j) ∧ (∀ j, j ≠ k → x.frame j = s.frame j) ∧
        x.frame k = { s.curFrame with cont := .trapped, wait := .nothing, lateMark := false, removed := false, trapLate := i.flags.getLsbD 0,
                                      trapLen := s.cur.len, waitOver := s.cur.waitOver, promoted := none }
      (s.trapMode = false → (s.region s.curRegion).trapv = true → let t := s.takeTrap i
        entered t ∧ t = { s with ctxs := t.ctxs, frames := t.frames, tmem := t.tmem, transit := t.transit } ∧
          ∃ x, t.transit = s.transit ++ [x] ∧ x.dst = .slot (s.trapTileOf s.curRegion) 63 ∧ rhChan x.rc.hdr = 63 ∧ rhCol x.rc.hdr = s.cur.col ∧
            rhWave x.rc.hdr = s.cur.wave ∧ rhRtag x.rc.hdr = s.cur.rtag ∧ x.rc.beats.length = 4 ∧
            x.rc.beats.head? = some (BitVec.ofNat 512 (t.tread s.curTile (s.fp + 0x700) 64))) ∧
      (s.trapMode = true ∨ (s.region s.curRegion).trapv = false →
        ∃ x y : State, entered x ∧ x = { s with ctxs := x.ctxs, frames := x.frames, tmem := x.tmem } ∧
          (y.part s.curPart).log.head = (x.part s.curPart).log.head + 1 ∧ 
            y = { x with mem := y.mem, parts := y.parts, uce := y.uce, lines := y.lines, reveals := y.reveals, pages := y.pages, migs := y.migs } ∧
          s.takeTrap i = State.purgeTag { r := s.curRegion, p := s.curPart, col := s.cur.col, rtag := s.cur.rtag, cause := i.cause, keep := 0 } y))

/-- spec/11 R239, R240, spec/10 R208: the return from a trap. TRET runs in trap-operator mode only, else it traps PRIV whatever its predicate; it
makes the named continuation runnable at the trapped instruction, or with SKIP past it where the trap was precise; one that a late fault found parked
stays on its wait, or is runnable where its cause was removed meanwhile (spec/15 R302); a handle that names none, or one of a wave that is poisoned at
some operator, traps CFG. A further late fault that is taken at TRET is log entry 15, a continuation whose frame stands in the heap log entry 43: the
model's choices. -/
def Obligations.ReturningFromATrap : Prop :=
  ∀ (s : State) (p : Pred) (a : SReg) (skip : Bool),
    (s.trapMode = false → exec (.tret p a skip) s = .next (s.takeTrap (s.faultOf Cause.priv))) ∧
    (s.trapMode = true → Ready s p [a] [] →
      (s.trappedFrame s.curRegion (s.rdS a) = none → Traps s (exec (.tret p a skip) s) Cause.cfg) ∧
      (∀ k, s.trappedFrame s.curRegion (s.rdS a) = some k →
        let f := s.frame k
        f.alloc = true ∧ (f.cont = .trapped ∨ f.lateMark = true) ∧
        (s.waveMarked s.curRegion f.col f.wave = true → Traps s (exec (.tret p a skip) s) Cause.cfg) ∧
        (s.waveMarked s.curRegion f.col f.wave = false → f.lateMark = false → f.inHeap = false →
          let w := k / 128 * 0x80000 + k % 128 * 0x800 + 0x698
          let ip := BitVec.ofNat 32 (mread s.tmem w 8)
          ∃ t, exec (.tret p a skip) s = .next t ∧ GoesOn s t ∧ t = { s with ctxs := t.ctxs, frames := t.frames, tmem := t.tmem } ∧
            t.frame k = { f with cont := .runnable, readyAt := s.clkOf (k / 4096), wait := .nothing,
                                 waitOver := f.waitOver && !(skip && !f.trapLate), promoted := none } ∧
            (∀ j, j ≠ k → t.frame j = s.frame j) ∧ (∀ j, j ≠ s.focus → t.ctx j = s.ctx j) ∧
            Stored s.tmem t.tmem w 4 (ip + (if skip = true ∧ f.trapLate = false then BitVec.ofNat 32 f.trapLen else 0)).toNat) ∧
        (s.waveMarked s.curRegion f.col f.wave = false → f.lateMark = false → f.inHeap = true →
          let w := s.heapAddr (s.regOfTile (k / 128)) (k / 128) (k % 128) + 0x698
          let ip := BitVec.ofNat 32 (s.rmem w 8)
          ∃ t, exec (.tret p a skip) s = .next t ∧ GoesOn s t ∧
            t = { s with ctxs := t.ctxs, frames := t.frames, mem := t.mem, uce := t.uce, lines := t.lines, reveals := t.reveals, pages := t.pages,
                         migs := t.migs } ∧
            t.frame k = { f with cont := .runnable, readyAt := s.clkOf (k / 4096), wait := .nothing,
                                 waitOver := f.waitOver && !(skip && !f.trapLate), promoted := none } ∧
            (∀ j, j ≠ k → t.frame j = s.frame j) ∧ (∀ j, j ≠ s.focus → t.ctx j = s.ctx j) ∧
            Stored s.mem t.mem (s.forward w) 4 (ip + (if skip = true ∧ f.trapLate = false then BitVec.ofNat 32 f.trapLen else 0)).toNat) ∧
        (s.waveMarked s.curRegion f.col f.wave = false → f.lateMark = true →
          (∀ i rest, f.lates = i :: rest → exec (.tret p a skip) s =
            .next ((s.setFrame k { f with lateMark := false, lates := rest }).lateParked k i).advance) ∧
          (f.lates = [] → ∃ u t, exec (.tret p a skip) s = .next t ∧ Woken u t ∧ GoesOn s u ∧ u = { s with ctxs := u.ctxs, frames := u.frames } ∧
            u.frame k = (if f.removed then { f with lateMark := false, removed := false, cont := .runnable, readyAt := s.clkOf (k / 4096),
                                                    promoted := none }
                         else { f with lateMark := false }) ∧ (∀ j, j ≠ k → u.frame j = s.frame j)))))

/-- spec/11 R237, spec/20 R393 to R396, spec/19 R385, spec/02 R54: PARK and WAITC park with their pcause. WAITC decides once, when it is first
performed, whether it goes on or parks, and is held meanwhile for the loads it waits for; once it has parked and its counts were met it goes on. A
barrier counts arrivals, and the last one changes the phase and makes every continuation filed with it runnable. BARINIT sets the count, an
uninitialised barrier traps CFG. -/
def Obligations.WaitingAndBarriers : Prop :=
  ∀ (s : State) (p : Pred), Ready s p [] [] →
    Parks s (exec (.park p) s) 3 .nothing (s.cur.ip + BitVec.ofNat 32 s.cur.len) ∧
    (∀ (tok : BitVec 8) (tom : BitVec 4) (stm ldm : BitVec 6),
      let o := exec (.waitc p tok tom stm ldm) s
      let other := s.ostCount s.cur.aid ≤ stm.toNat ∧ s.otoCount s.cur.aid ≤ tom.toNat ∧
        ∀ i, i < 8 → tok.getLsbD i = true → s.tokenOf s.curTile i ≠ 1
      let completes := s.cur.waitOver = false ∧ ((s.cur.kept = none ∧ other) ∨ s.cur.kept = some 1)
      let parks := s.cur.waitOver = false ∧ ((s.cur.kept = none ∧ ¬ other) ∨ s.cur.kept = some 2)
      let decided := fun (n : Nat) => Holds s o ∧ ∀ t, o = .next t → t.cur.kept = some n
      (s.cur.waitOver = true ∨ (completes ∧ s.oldCount s.cur.aid ≤ ldm.toNat) → OnlyAdvances s o) ∧
      (completes → ldm.toNat < s.oldCount s.cur.aid → decided 1) ∧
      (parks → s.oldCount s.cur.aid ≠ 0 → decided 2) ∧
      (parks → Parks s o 1 (.counts tok.toNat tom.toNat stm.toNat) s.cur.ip)) ∧
    (∀ (b : BitVec 5) (d : SReg),
      let c := s.curCore
      let x := s.barrier c b.toNat
      let onlyThis := fun (t : State) (y : Barrier) => t.barrier c b.toNat = y ∧ t = { s with ctxs := t.ctxs, frames := t.frames, cores := t.cores } ∧
        (∀ j, j ≠ c → t.core j = s.core j) ∧ (∀ j, j ≠ b.toNat → t.barrier c j = s.barrier c j) ∧
        t.core c = { s.core c with barriers := (t.core c).barriers } ∧ ∀ j, j ≠ s.focus → t.ctx j = s.ctx j
      let filed := fun (k : Nat) => k / 4096 = c ∧ (s.frame k).cont = .parked ∧ (s.frame k).wait = .barrier b.toNat
      let released := fun (t : State) => (∀ k, ¬ filed k → t.frame k = s.frame k) ∧
        (∀ k, filed k → (s.frame k).lateMark = false →
          t.frame k = { s.frame k with cont := .runnable, wait := .nothing, waitOver := true, readyAt := s.clkOf (k / 4096), promoted := none }) ∧
        ∀ k, filed k → (s.frame k).lateMark = true → t.frame k = { s.frame k with wait := .nothing, waitOver := true }
      (∀ n : BitVec 12, ∃ t, exec (.barinit p n b) s = .next t ∧ GoesOn s t ∧ onlyThis t { x with exp := n.toNat, arr := 0 } ∧ t.frames = s.frames) ∧
      (x.exp = 0 → Traps s (exec (.bara p d b) s) Cause.cfg ∧ (s.cur.waitOver = false → Traps s (exec (.barw p b) s) Cause.cfg)) ∧
      (s.cur.waitOver = true → OnlyAdvances s (exec (.barw p b) s)) ∧
      (x.exp ≠ 0 → s.pendingOf s.cur.aid ≠ [] → Holds s (exec (.bara p d b) s) ∧ (s.cur.waitOver = false → Holds s (exec (.barw p b) s))) ∧
      (x.exp ≠ 0 → s.pendingOf s.cur.aid = [] →
        let bara := fun (r : State → Prop) => ∃ t, exec (.bara p d b) s = .next t ∧ KeepsRegs s t [d] [] [] [] ∧ StaysOn s t ∧ NextInstr s t ∧
          t.rdS d = (if d = 0 then 0 else x.phase.setWidth 64) ∧ r t
        (x.arr + 1 ≠ x.exp → bara (fun t => onlyThis t { x with arr := x.arr + 1 } ∧ t.frames = s.frames) ∧
          (s.cur.waitOver = false → Parks (s.setBarrier c b.toNat { x with arr := x.arr + 1 }) (exec (.barw p b) s) 2 (.barrier b.toNat) s.cur.ip)) ∧
        (x.arr + 1 = x.exp → bara (fun t => onlyThis t { x with arr := 0, phase := x.phase + 1 } ∧ released t) ∧
          (s.cur.waitOver = false → ∃ t, exec (.barw p b) s = .next t ∧ GoesOn s t ∧ onlyThis t { x with arr := 0, phase := x.phase + 1 } ∧
            released t))))

/-! Queues. -/

/-- spec/17 R331 to R337, spec/16 R319, spec/09 R190: the instructions on channels. A record that is sent goes last on its way to the channel's
consumer, with the activation's header fields or those that HDR set, its parity right, after the accesses issued before; under skip coding a record of
zeros that is not the last of its wave is counted instead, up to 255 in a row. A channel that is not configured traps CHAN. -/
def Obligations.ChannelInstructions : Prop :=
  ∀ (s : State) (p : Pred) (c : Chan), Ready s p [] [] →
    let ch := c.toNat
    let e := s.chanCur ch
    let T := s.curTile
    let sent := fun (u t : State) (beats : List Vec) (set : BitVec 5) (v : BitVec 64) (skip : BitVec 8) =>
      ∃ x, t.transit = u.transit ++ [x] ∧ x.rc.beats = beats ∧ x.waits = s.pendingOf s.cur.aid ∧ rhParityOk x.rc.hdr = true ∧
        rhBeats x.rc.hdr = beats.length ∧ rhChan x.rc.hdr = BitVec.ofNat 6 ch ∧ rhFmt x.rc.hdr = cFmt e ∧ rhSkip x.rc.hdr = skip ∧
        rhKind x.rc.hdr = (if set.getLsbD 0 then rhKind v else 0) ∧ rhWave x.rc.hdr = (if set.getLsbD 1 then rhWave v else s.cur.wave) ∧
        rhCol x.rc.hdr = (if set.getLsbD 2 then rhCol v else s.cur.col) ∧ rhRtag x.rc.hdr = (if set.getLsbD 3 then rhRtag v else s.cur.rtag) ∧
        rhPoison x.rc.hdr = (if set.getLsbD 4 then rhPoison v else false)
    let quiet := fun (t : State) => GoesOn s t ∧ t = { s with ctxs := t.ctxs, tiles := t.tiles, transit := t.transit } ∧
      (∀ k, k ≠ s.focus → t.ctx k = s.ctx k) ∧ (∀ k, k ≠ T → t.tile k = s.tile k) ∧
      t.tile T = { s.tile T with pool := (t.tile T).pool, skips := (t.tile T).skips }
    let rest := (s.tile T).pool.filter (fun o => !(o.aid == s.cur.aid && o.ch == ch))
    (s.dstOk ch = false →
      (∀ i, i = .emit p c ∨ i = .drop p c ∨ i = .skipe p c ∨ (∃ a fm, i = .hdr p c a fm ∧ Ready s p [a] []) ∨ (∃ a, i = .xsend p c a ∧ Ready s p [a] []) →
        Traps s (exec i s) Cause.chan)) ∧
    (s.srcOk ch = false → ∀ d, Traps s (exec (.pres p d c) s) Cause.chan ∧ Traps s (exec (.pops p d c) s) Cause.chan) ∧
    (s.dstOk ch = true →
      (s.openOn ch = none → OnlyAdvances s (exec (.emit p c) s)) ∧
      (∀ o, s.openOn ch = some o → o.beats.length ≤ 64 → (∀ k, (s.destOf s.curRegion ch k).isSome = true) →
        let bs := if o.beats = [] then [0] else o.beats
        ∃ t, exec (.emit p c) s = .next t ∧ quiet t ∧ (t.tile T).pool = rest ∧
          (cSkipz e = false → (t.tile T).skips = (s.tile T).skips ∧ sent s t bs o.hdrSet o.hdrVal 0) ∧
          (cSkipz e = true → t.transit = s.transit ∨ ∃ k, sent s t bs o.hdrSet o.hdrVal k)) ∧
      (∃ t, exec (.drop p c) s = .next t ∧ quiet t ∧ (t.tile T).pool = rest ∧ (t.tile T).skips = (s.tile T).skips ∧ t.transit = s.transit) ∧
      ((s.openOn ch).isSome = true → Traps s (exec (.skipe p c) s) Cause.chan) ∧
      (s.openOn ch = none → (s.destOf s.curRegion ch s.cur.col).isSome = true →
        let zeros := List.replicate (cBeats e) (0 : Vec)
        (cSkipz e = false → ∃ t, exec (.skipe p c) s = .next t ∧ quiet t ∧ t.tile T = s.tile T ∧ sent s t zeros 0 0 0) ∧
        (cSkipz e = true →
          let k0 := lget {} (s.tile T).skips (s.skipKey ch)
          let k := if s.cur.wave = k0.cwave then k0 else { skc := 0, nrec := 0, cwave := s.cur.wave }
          let after := fun (t : State) (n m : Nat) => (t.tile T).pool = (s.tile T).pool ∧
            lget {} (t.tile T).skips (s.skipKey ch) = { skc := n, nrec := m, cwave := s.cur.wave } ∧
            ∀ j, j ≠ s.skipKey ch → lget {} (t.tile T).skips j = lget {} (s.tile T).skips j
          let counted := cFmt e ≠ 7 ∧ k.nrec + 1 ≠ cRpw e ∧ k.skc < 255
          let nrec := if k.nrec + 1 = cRpw e then 0 else (k.nrec + 1) % 65536
          (counted → ∃ t, exec (.skipe p c) s = .next t ∧ quiet t ∧ t.transit = s.transit ∧ after t (k.skc + 1) nrec) ∧
          (¬ counted → ∃ t, exec (.skipe p c) s = .next t ∧ quiet t ∧ after t 0 nrec ∧ sent s t zeros 0 0 (BitVec.ofNat 8 k.skc)))) ∧
      (∀ (a : SReg) (fm : BitVec 5), Ready s p [a] [] →
        let v := s.rdS a
        let old := (s.openOn ch).getD { aid := s.cur.aid, ch := ch }
        (fm.getLsbD 2 = true → s.priv = false → (fm.getLsbD 0 = true → rhKind v ≠ 3) → fm.getLsbD 1 = false → Traps s (exec (.hdr p c a fm) s) Cause.priv) ∧
        (s.hdrBad v fm = none → ∃ (t : State) (o : OpenRec), exec (.hdr p c a fm) s = .next t ∧ quiet t ∧ t.transit = s.transit ∧ t.openOn ch = some o ∧
          o.beats = old.beats ∧ o.scales = old.scales ∧ o.hdrSet = old.hdrSet ||| fm ∧
          rhKind o.hdrVal = (if fm.getLsbD 0 then rhKind v else rhKind old.hdrVal) ∧
          rhWave o.hdrVal = (if fm.getLsbD 1 then rhWave v else rhWave old.hdrVal) ∧ rhCol o.hdrVal = (if fm.getLsbD 2 then rhCol v else rhCol old.hdrVal) ∧
          rhRtag o.hdrVal = (if fm.getLsbD 3 then rhRtag v else rhRtag old.hdrVal) ∧
          rhPoison o.hdrVal = (if fm.getLsbD 4 then rhPoison v else rhPoison old.hdrVal))) ∧
      (∀ a : SReg, Ready s p [a] [] →
        let v := s.rdS a
        let peer := s.peerAt s.curColour (v.extractLsb' 0 4).toNat
        (s.exitOf ch = false → Traps s (exec (.xsend p c a) s) Cause.chan) ∧
        (s.exitOf ch = true → (v.extractLsb' 4 60 ≠ 0 ∨ peer = none) → Traps s (exec (.xsend p c a) s) Cause.perm) ∧
        (s.exitOf ch = true → v.extractLsb' 4 60 = 0 → peer ≠ none → s.openOn ch = none → OnlyAdvances s (exec (.xsend p c a) s)) ∧
        (∀ o, s.exitOf ch = true → v.extractLsb' 4 60 = 0 → peer ≠ none → s.openOn ch = some o → o.beats.length ≤ 64 →
          (∀ k, (s.destOf s.curRegion ch k).isSome = true) →
          let bs := if o.beats = [] then [0] else o.beats
          let there := fun (t : State) => (t.transit.getLast?.bind (·.peer)) = some (v.extractLsb' 0 4).toNat
          ∃ t, exec (.xsend p c a) s = .next t ∧ quiet t ∧ (t.tile T).pool = rest ∧
            (cSkipz e = false → sent s t bs o.hdrSet o.hdrVal 0 ∧ there t) ∧
            (cSkipz e = true → t.transit = s.transit ∨ ∃ k, sent s t bs o.hdrSet o.hdrVal k ∧ there t)))) ∧
    (s.srcOk ch = true → ∀ d : SReg,
      let h := lget 0 s.curFrame.hdrs ch
      let cu := s.cursor ch
      WritesS s (exec (.pres p d c) s) d (BitVec.ofNat 64 (s.curFrame.present.toNat + cu * 2 ^ 32 + if s.curFrame.present.getLsbD cu = true then
        (rhBeats h - 1) * 2 ^ 16 + (rhKind h).toNat * 2 ^ 22 + (rhSkip h).toNat * 2 ^ 24 else 0)) ∧
      (s.curFrame.present.getLsbD cu = false → Parks s (exec (.pops p d c) s) 5 (.slotOf ch) s.cur.ip) ∧
      (s.curFrame.present.getLsbD cu = true →
        let n := cBase e + rhBeats h - cu
        ∃ t, exec (.pops p d c) s = .next t ∧ KeepsRegs s t [d] [] [] [] ∧ StaysOn s t ∧ NextInstr s t ∧
          t.rdS d = (if d = 0 then 0 else BitVec.ofNat 64 n) ∧ t = { s with ctxs := t.ctxs, frames := t.frames } ∧
          (∀ k, k ≠ s.curFrameKey → t.frame k = s.frame k) ∧ (∀ k, k ≠ s.focus → t.ctx k = s.ctx k) ∧
          t.frame s.curFrameKey = { s.curFrame with present := (t.frame s.curFrameKey).present, cursors := (t.frame s.curFrameKey).cursors } ∧
          (∀ i, (t.frame s.curFrameKey).present.getLsbD i = (s.curFrame.present.getLsbD i && !(decide (cu ≤ i) && decide (i < cu + n)))) ∧
          lget 0 (t.frame s.curFrameKey).cursors ch = cBase e))

/-- spec/17 R338, R343 to R346, spec/07 R145, R151, spec/27 R449, spec/08 R162: TTENQ enqueues a task at the named core's engine; one to another core
is held while its request goes there, and the engine answers with the block's number. BOARD arms a boarding, UNBRD and RSTAT free or read one, RHOLD
asks for a hold; a stale handle gives 7 or nothing. Each names its fault, and changes nothing else. spec/17 R347 to R351, spec/21 R422: the privileged
queue instructions. PURGE stops the running activations that bear a colour and request tag and is held until their loads are answered; then the
records, frames, tasks, copies, boardings, waiting accesses, messages and accumulators that bear them are gone, those of others stay, launches that
bear them admit nothing further, and the items of its report are counted; SNAP captures the frozen partition; FREEZE and THAW set and clear a colour's
or the partition's freeze; QFLUSH empties a queue and counts what it removed, and is held until the completion records of flushed copies have been
sent. A bad selector traps CFG. What PURGE counts, and freezes and boardings in corners, follow log entries 30, 34, 36, 58; that TTENQ reads the task
table of the engine's core and takes the lowest free block (R338 says a free block) is log entry 65. How a request rides the fabric, one message for
each home, is the model's choice (log entry 78). -/
def Obligations.QueueInstructions : Prop :=
  (∀ (s : State) (p : Pred) (d a b : SReg), Ready s p [a, b] [] →
     let v := s.rdS a
     let gives := fun (o : Outcome) (x : Word) (r : State → Prop) => ∃ t, o = .next t ∧ KeepsRegs s t [d] [] [] [] ∧ StaysOn s t ∧ NextInstr s t ∧
       t.rdS d = (if d = 0 then 0 else x) ∧ KeepsMem s t ∧ (∀ k, k ≠ s.focus → t.ctx k = s.ctx k) ∧ r t
     (∀ (rcore : BitVec 4) (src : Bool),
       let o := exec (.ttenq p d a rcore src) s
       ((s.region s.curRegion).coreAt rcore.toNat = none → Traps s o Cause.cfg) ∧
       (∀ core, (s.region s.curRegion).coreAt rcore.toNat = some core →
         let tab := s.core core
         let raw := if src then BitVec.ofNat 512 (s.tread s.curTile v.toNat 64) else lget 0 tab.tasks (v.extractLsb' 0 10).toNat
         let read := if src then PanelOk s v.toNat 64 else v.extractLsb' 10 54 = 0 ∧ (v.extractLsb' 0 10).toNat < tab.nTasks
         (src = false → (v.extractLsb' 10 54 ≠ 0 ∨ tab.nTasks ≤ (v.extractLsb' 0 10).toNat) → Traps s o Cause.cfg) ∧
         (read → taskOk tab.nTasks raw = false → Traps s o Cause.cfg) ∧
         (read → taskOk tab.nTasks raw = true → s.otoCount s.cur.aid < 15 →
           s.taskNamed (s.regionAt core) s.cur.rtag (v.extractLsb' 0 10).toNat = none →
           ∀ n, firstFree (s.core core).tcbs 512 = some n →
           (core ≠ s.curCore → NotAsked s → Asks s o [State.coreNode core]) ∧
           (core = s.curCore ∨ (∃ x, HasCome s x) → gives o (BitVec.ofNat 64 n) (fun t =>
             t.tcb core n = { raw := raw, idx := if src then none else some (v.extractLsb' 0 10).toNat, st := if tPreds raw = 0 then .waitin else .waitpred,
                              cnt := tPreds raw, col := s.cur.col, wave := s.cur.wave, rtag := s.cur.rtag, aid := s.cur.aid, tile := s.curTile,
                              slot := s.cur.opsl, readyAt := s.clkOf core } ∧
             (∀ j, j ≠ n → t.tcb core j = s.tcb core j) ∧ (∀ c, c ≠ core → t.core c = s.core c) ∧ OnFabric { s with ctxs := t.ctxs, cores := t.cores } t ∧
             (core ≠ s.curCore → Stands t s.tripHere.who s.tripHere.src true [State.coreNode core]) ∧
             (core = s.curCore → NotAsked s → t = { s with ctxs := t.ctxs, cores := t.cores })))))) ∧
     (let rc := (v.extractLsb' 36 4).toNat
      let o := exec (.board p d a) s
      (∀ c, s.boardBad v = some c → Traps s o c) ∧
      (∀ core, s.boardBad v = none → (s.region s.curRegion).coreAt rc = some core →
        (firstFree (s.core core).boards 16 = none → Parks s o 8 (.boarding core) s.cur.ip) ∧
        (∀ n, firstFree (s.core core).boards 16 = some n →
          let gen := lget 0xFF (s.core core).boardGen n + 1
          gives o (BitVec.ofNat 64 (n + rc * 16 + gen.toNat * 256)) (fun t =>
            (∃ x, lget? (t.core core).boards n = some x ∧ x.word = v ∧ x.region = s.curRegion ∧ x.col = s.cur.col ∧ x.wave = s.cur.wave ∧
              x.rtag = s.cur.rtag ∧ x.st = .armed ∧ x.slice = (v.extractLsb' 19 8).toNat) ∧
            (∀ j, j ≠ n → lget? (t.core core).boards j = lget? (s.core core).boards j) ∧ (∀ c, c ≠ core → t.core c = s.core c))))) ∧
     (s.boardAt v = none → WritesS s (exec (.unbrd p d a) s) d 7 ∧ WritesS s (exec (.rstat p d a) s) d 7 ∧ OnlyAdvances s (exec (.rhold p a b) s)) ∧
     (∀ core n x, s.boardAt v = some (core, n, x) →
       (x.col ≠ s.cur.col → Traps s (exec (.unbrd p d a) s) Cause.perm ∧ Traps s (exec (.rstat p d a) s) Cause.perm ∧
         Traps s (exec (.rhold p a b) s) Cause.perm) ∧
       (x.col = s.cur.col →
         let code : Nat := match x.st with | .armed => 0 | .active => 1 | .waitlap => 2 | .done => 3 | .faulted => 4
         let ended := x.st = .done ∨ x.st = .faulted
         let freed := fun (t : State) => lget? (t.core core).boards n = none ∧ (∀ j, j ≠ n → lget? (t.core core).boards j = lget? (s.core core).boards j) ∧
           (∀ c, c ≠ core → t.core c = s.core c) ∧ ∀ w ∈ t.ring.want, w.1 ≠ core * 16 + n
         gives (exec (.unbrd p d a) s) (BitVec.ofNat 64 code) freed ∧
         gives (exec (.rstat p d a) s) (BitVec.ofNat 64 (code + (if x.st = .faulted then x.cause.toNat else 0) * 2 ^ 8 + x.missw % 2 ^ 16 * 2 ^ 16 +
           x.mlaps % 8 * 2 ^ 32 + x.slice % 256 * 2 ^ 40 + x.kblk % 2 ^ 16 * 2 ^ 48)) (fun t => (ended → freed t) ∧ (¬ ended → t.cores = s.cores)) ∧
         (let n' := ((s.rdS b).extractLsb' 0 16).toNat
          let o := exec (.rhold p a b) s
          (n' = 0 ∨ (x.st ≠ .active ∧ x.st ≠ .waitlap) → OnlyAdvances s o) ∧
          (n' ≠ 0 → x.st = .active ∨ x.st = .waitlap → ∃ t, o = .next t ∧ GoesOn s t ∧
            t = { s with ctxs := t.ctxs, ring := { s.ring with want := s.ring.want ++ [(core * 16 + n, n')] } }))))) ∧
  (∀ (s : State) (p : Pred) (d a b : SReg), Ready s p [a, b] [] → s.priv = true →
     let va := s.rdS a
     let vb := s.rdS b
     let P := s.curPart
     (let bad := va.extractLsb' 16 48 ≠ 0 ∨ vb.extractLsb' 5 3 ≠ 0 ∨ vb.extractLsb' 16 48 ≠ 0 ∨ vb.extractLsb' 8 8 = 0
      (bad → Traps s (exec (.purge p d a b) s) Cause.cfg) ∧
      let R := s.curRegion
      let g : State.Tag := { r := R, p := P, col := vb.extractLsb' 0 5, rtag := va.extractLsb' 0 16, cause := vb.extractLsb' 8 8, keep := s.cur.aid }
      let runs := State.runsOfTag g s
      let u := State.purgeTag g s
      let bears := fun (col : BitVec 5) (rtag : BitVec 16) => col == g.col && rtag == g.rtag
      let spared := fun (aid : Nat) => s.cur.aid ≠ 0 ∧ aid = s.cur.aid
      let away := fun (x : Transit) => bears (rhCol x.rc.hdr) (rhRtag x.rc.hdr) = true ∧ match x.dst with
        | .slot T _ => (s.region R).cores.contains (T / 32) = true
        | .op r _ _ => r = R
        | .waveCtl r => r = R
        | .reconf r => r = R
      let mine := fun (k : Nat) => k ∈ s.framesOf R ∧ (s.frame k).alloc = true ∧ bears (s.frame k).col (s.frame k).rtag = true ∧ ¬ spared (s.frame k).aid
      (¬ bad → runs.any (fun k => s.drains (s.ctx k).aid) = true → ∃ t, exec (.purge p d a b) s = .next t ∧ t.cur.held = true ∧ t.cur.ip = s.cur.ip ∧
        KeepsRegs s t [] [] [] [] ∧ t = { s with ctxs := t.ctxs } ∧ (∀ k ∈ runs, (t.ctx k).stop = some g.cause) ∧
        ∀ k, k ∉ runs → k ≠ s.focus → t.ctx k = s.ctx k) ∧
      (¬ bad → runs.any (fun k => s.drains (s.ctx k).aid) = false →
        exec (.purge p d a b) s = .next (u.wrS d (((u.part P).rpt.head - (s.part P).rpt.head).setWidth 64)).advance ∧
        (∀ x ∈ u.transit, x ∈ s.transit ∧ ¬ away x) ∧ (∀ x ∈ s.transit, ¬ away x → x.ride = .none → x ∈ u.transit) ∧
        (u.colour R g.col.toNat).spill = (s.colour R g.col.toNat).spill.filter (fun x => !bears (rhCol x.tr.rc.hdr) (rhRtag x.tr.rc.hdr)) ∧
        (∀ c ∈ (s.region R).cores,
          (u.core c).tcbs = (s.core c).tcbs.filter (fun x => !bears x.2.col x.2.rtag) ∧
          (u.core c).copies = (s.core c).copies.map (fun q => (q.1, q.2.filter (fun x => !bears x.col x.rtag))) ∧
          (∀ q ∈ (s.core c).copies, ∀ x ∈ q.2, bears x.col x.rtag = true → ∀ T k, x.token = some (T, k) → u.tokenOf T k = 3) ∧
          (∀ x ∈ (u.core c).boards, x ∈ (s.core c).boards ∧ bears x.2.col x.2.rtag = false) ∧
          ∀ x ∈ (s.core c).boards, bears x.2.col x.2.rtag = false → x.2.st ≠ .done → x.2.st ≠ .faulted → x ∈ (u.core c).boards) ∧
        (∀ k, mine k → (s.frame k).cont ≠ .running ∨ s.drains (s.frame k).aid = false →
          u.frame k = { gen := (s.frame k).gen } ∧ ∀ c ∈ s.runsOn k, u.ctx c = {}) ∧
        (∀ k, ¬ mine k → (s.frame k).col ≠ g.col → (s.frame k).cont ≠ .parked → u.frame k = s.frame k) ∧
        (∀ x ∈ u.accesses, x ∈ s.accesses ∧ ¬ (x.region = R ∧ bears x.col x.rtag = true ∧ ¬ spared x.aid ∧
          (x.waiting = true ∨ (x.seq ≠ 0 ∧ x.freed = false) ∨ x.kind = .sync))) ∧
        (∀ n, ∀ m ∈ (u.fab n).msgs, ¬ (m.region = some R ∧ bears m.col m.rtag = true ∧ ¬ spared m.aid)) ∧
        (∀ l ∈ (u.region R).launches, bears l.col l.rtag = true → l.admits = l.admitted ∧ l.cause = g.cause) ∧
        ∀ T ∈ s.usedTiles R, ∀ n, ¬ ((u.accOf T n).valid = true ∧ bears (u.accOf T n).col (u.accOf T n).rtag = true))) ∧
     (kSys s.curColour = false → exec (.snap p a b) s = .next (s.takeTrap (s.faultOf Cause.priv))) ∧
     (kSys s.curColour = true →
       (va.extractLsb' 8 56 ≠ 0 ∨ (s.part P).wholeFrozen = false ∨ (s.part P).snap.isSome = true → Traps s (exec (.snap p a b) s) Cause.cfg) ∧
       (∀ e, va.extractLsb' 8 56 = 0 → (s.part P).wholeFrozen = true → (s.part P).snap = none →
         s.check { fe := true, write := true, bytes := 4, elems := [(0, vb.toNat)] } = .ok [e] →
         ∃ t, exec (.snap p a b) s = .next t ∧ GoesOn s t ∧ t = { s with ctxs := t.ctxs, parts := t.parts } ∧ (∀ q, q ≠ P → t.part q = s.part q) ∧
           (t.part P).snap = some (va.extractLsb' 0 8, e.pa) ∧ (t.part P).snapshot = s.mem.filter (fun c => s.ownerOf c.1 == P) ∧
           (t.part P).snapFe = s.fe.filter (fun w => s.ownerOf (4 * w.1) == P) ∧
           (t.part P).wholeFrozen = true)) ∧
     (let whole := va.getLsbD 0
      let c := (va.extractLsb' 1 5).toNat
      let good := va.extractLsb' 6 58 = 0 ∧ (if whole then kSys s.curColour = true else kArmed (lget 0 (s.region s.curRegion).colours c) = true)
      let sets := fun (t : State) (on : Bool) => t = { s with ctxs := t.ctxs, parts := t.parts, regions := t.regions, cores := t.cores } ∧
        (if whole then (t.part P).wholeFrozen = on else (t.colour s.curRegion c).frozen = on) ∧
        (∀ q, q ≠ P → t.part q = s.part q) ∧ (∀ r, r ≠ s.curRegion → t.region r = s.region r) ∧
        (∀ k, k ≠ c → t.colour s.curRegion k = s.colour s.curRegion k)
      (va.extractLsb' 6 58 ≠ 0 → Traps s (exec (.freeze p a) s) Cause.cfg ∧ Traps s (exec (.thaw p a) s) Cause.cfg) ∧
      (good → s.stillRuns whole c = false → ∃ t, exec (.freeze p a) s = .next t ∧ GoesOn s t ∧ sets t true) ∧
      (good → s.stillRuns whole c = true → ∃ t, exec (.freeze p a) s = .next t ∧ t.cur.held = true ∧ t.cur.ip = s.cur.ip ∧ sets t true) ∧
      (good → whole = true → (s.part P).snap.isSome = true → Holds s (exec (.thaw p a) s)) ∧
      (good → (whole = false ∨ (s.part P).snap = none) → ∃ t, exec (.thaw p a) s = .next t ∧ GoesOn s t ∧ sets t false)) ∧
     (let kind := (va.extractLsb' 0 2).toNat
      let ch := (va.extractLsb' 6 1).toNat * 8 + (va.extractLsb' 7 3).toNat
      let named := fun (col : BitVec 5) (rtag : BitVec 16) => va.getLsbD 10 = false ∨ (col = va.extractLsb' 32 5 ∧ rtag = va.extractLsb' 16 16)
      let o := exec (.qflush p d a) s
      (va.extractLsb' 11 5 ≠ 0 ∨ va.extractLsb' 37 27 ≠ 0 ∨ kind = 3 ∨ (s.region s.curRegion).coreAt (va.extractLsb' 2 4).toNat = none → Traps s o Cause.cfg) ∧
      (∀ core, va.extractLsb' 11 5 = 0 → va.extractLsb' 37 27 = 0 → (s.region s.curRegion).coreAt (va.extractLsb' 2 4).toNat = some core → kind ≠ 3 →
        (∀ n, s.cur.kept = some n → (s.flushOwes core va.toNat = true → Holds s o) ∧
          (s.flushOwes core va.toNat = false → WritesS s o d (BitVec.ofNat 64 n))) ∧
        (s.cur.kept = none → ∃ t n, o = .next t ∧ StaysOn s t ∧ KeepsMem s t ∧
          (t.flushOwes core va.toNat = true → KeepsRegs s t [] [] [] [] ∧ t.cur.held = true ∧ t.cur.ip = s.cur.ip ∧ t.cur.kept = some n) ∧
          (t.flushOwes core va.toNat = false → KeepsRegs s t [d] [] [] [] ∧ NextInstr s t ∧ t.rdS d = (if d = 0 then 0 else BitVec.ofNat 64 n)) ∧
          (kind = 0 → (∀ x ∈ t.copies core ch, ¬ named x.col x.rtag) ∧ (∀ x ∈ s.copies core ch, named x.col x.rtag → ∀ T k, x.token = some (T, k) →
            t.tokenOf T k = 3) ∧ n = ((s.copies core ch).filter (fun x => State.flushMatch va.toNat x.col x.rtag)).length) ∧
          (kind = 1 → (∀ x ∈ (t.core core).tcbs, x.2.st = .waitpred ∨ x.2.st = .waitin ∨ x.2.st = .ready →
              tClass x.2.raw = (va.extractLsb' 7 2).toNat → ¬ named x.2.col x.2.rtag) ∧
            n = ((s.core core).tcbs.filter (fun x => (x.2.st = .waitpred || x.2.st = .waitin || x.2.st = .ready) &&
              tClass x.2.raw == (va.extractLsb' 7 2).toNat && State.flushMatch va.toNat x.2.col x.2.rtag)).length) ∧
          (kind = 2 → (∀ x ∈ (t.core core).boards, ¬ named x.2.col x.2.rtag) ∧
            n = ((s.core core).boards.filter (fun x => State.flushMatch va.toNat x.2.col x.2.rtag)).length)))))

/-! Sequences and counters. -/

/-- spec/20 R397 to R407, spec/18 R365, R366, spec/14 R290, R292, spec/08 R162: the sequence instructions. A bad handle traps CFG; the instruction is
held while its request goes to the descriptor's home, and is performed once it has come, when the answers leave. Memory of another partition, or a
page that is RO where it writes, traps PERM, another owner PERM; a fork's copy holds; tables that stage 2 does not reach trap PAGE2, and so does a
taken segment without a guest physical address (the model's choice, log entry 13). Each then gives its result and changes the descriptor as stated,
after the A and D marks of what it uses. Segments are taken in the order of the free list (the model's choice, log entry 35) and are zero. Bytes that
the statement does not name are as they were. Results that lie in the tables are stated for tables that do not lie in one another or in the page
tables. How a request rides the fabric, one message for each home, is the model's choice (log entry 78). -/
def Obligations.SequenceInstructions : Prop :=
  ∀ (s : State) (p : Pred) (d a b c : SReg) (sc : SC), Ready s p [a, b, c] [] →
    let h := s.rdS a
    let x := s.rdS b
    let n := x.toNat
    let P := s.curPart
    let vm := s.curVm.1
    let q := s.seqAddr P (h.extractLsb' 0 32).toNat
    let beyond := h.extractLsb' 32 32 ≠ 0 ∨ (s.part P).seqCount ≤ (h.extractLsb' 0 32).toNat
    let foreign := s.ownerOf (s.forward q) ≠ P
    let bad := ¬ foreign ∧ s.dV q = false
    let good := ¬ beyond ∧ ¬ foreign ∧ s.dV q = true ∧ s.dOwner q = s.cur.col.toNat ∧ ∀ k ∈ s.forks, k.handle ≠ q
    let homes := fun (e : Nat) => s.homesOf [{ pa := e, n := 64 }]
    let goesOn := fun (e : Nat) => (NotAsked s ∧ homes e = []) ∨ ∃ y, HasCome s y
    let onTables := fun (r : Outcome → Prop) => (∀ f, r (exec (.sqrsv p d a b f) s)) ∧ r (exec (.sqcmt p a b sc) s) ∧ r (exec (.sqfork p d a b c) s) ∧
      r (exec (.sqld p d a b c sc) s) ∧ r (exec (.sqvoid p a b sc) s)
    let all := fun (r : Outcome → Prop) => onTables r ∧ r (exec (.sqadr p d a b) s) ∧ r (exec (.sqlen p d a sc) s) ∧ r (exec (.sqwait p a b sc) s) ∧
      r (exec (.sqref p d a) s) ∧ r (exec (.sqrel p d a) s)
    -- the answers of the homes, where there are any
    let answers := fun (e : Nat) (u : State) => ((∃ y, HasCome s y) → Stands u s.tripHere.who s.tripHere.src true (homes e)) ∧
      (NotAsked s → u.trips = s.trips ∧ u.fabric = s.fabric ∧ u.flights = s.flights)
    let trapsAt := fun (e : Nat) (o : Outcome) (k : BitVec 8) => ∃ u, OnFabric s u ∧ answers e u ∧ Traps u o k
    let traps := trapsAt q
    -- the machine once the uses have been made: reads at homes, and marks in page tables
    let used := fun (u v : State) => v = { u with mem := v.mem, uce := v.uce, lines := v.lines, reveals := v.reveals, pages := v.pages, migs := v.migs } ∧
      (∀ y, v.forward y = u.forward y) ∧ ∀ y i, i < 6 → (mget v.mem y).getLsbD i = (mget u.mem y).getLsbD i
    let s1 := s.seqTouch s.seqBy [{ pa := q, n := 64 }]
    let tab := fun (segt void resv : Bool) => s1.tableUses vm q segt void resv
    let after := fun (segt void resv : Bool) => s1.seqTouch s1.seqBy (tab segt void resv)
    let ends := fun (v : State) (r : State → Prop) => ∃ w, OnFabric v w ∧ answers q w ∧ r w
    let gives := fun (e : Nat) (o : Outcome) (v : Word) (r : State → Prop) => ∃ u t, o = .next t ∧ Woken u t ∧ answers e u ∧ KeepsRegs s u [d] [] [] [] ∧
      StaysOn s u ∧ NextInstr s u ∧ u.rdS d = (if d = 0 then 0 else v) ∧ (∀ k, k ≠ s.focus → u.ctx k = s.ctx k) ∧ r u
    let goes := fun (o : Outcome) (r : State → Prop) => ∃ u t, o = .next t ∧ Woken u t ∧ answers q u ∧ GoesOn s u ∧ (∀ k, k ≠ s.focus → u.ctx k = s.ctx k) ∧ r u
    let onlyMem := fun (u : State) => OnFabric { s with ctxs := u.ctxs, mem := u.mem, uce := u.uce, lines := u.lines, reveals := u.reveals,
                                                        pages := u.pages, migs := u.migs } u
    let apart := fun (i j : Nat × Nat) => i.1 + i.2 ≤ j.1 ∨ j.1 + j.2 ≤ i.1
    let inn := fun (y : Nat) (i : Nat × Nat) => i.1 ≤ y ∧ y < i.1 + i.2
    let here := ∀ y, s.forward y = y
    let at_ := fun (z : State) (g : Nat) => (z.gpaPa vm g).getD 0
    let tables := fun (z : State) => [(q, 64), (at_ z (z.dResv q), 0x400), (at_ z (z.dSegt q), 0x2000), (at_ z (z.dSegt q + 0x2400), 0x80)]
    let touched := fun (z : State) (y : Nat) => (∃ i ∈ tables z, inn y i) ∨ ∃ k seg, k < 1024 ∧ z.segPa vm q k = some seg ∧ inn y (z.poolEntry P seg, 16)
    -- stage 2 leads where it led, whatever stands in some bytes
    let steady := fun (z : State) (w : Nat → Prop) => ∀ t : State, t.vmids = z.vmids → (∀ y, t.forward y = y) →
      (∀ y, ¬ w y → mget t.mem y = mget z.mem y) → ∀ g, t.gpaPa vm g = z.gpaPa vm g ∧ t.gpaOf vm g = z.gpaOf vm g
    let clear := fun (z : State) (w : Nat → Prop) => here ∧ (tables z).Pairwise apart ∧
      (∀ k seg, k < 1024 → z.segPa vm q k = some seg → ∀ i ∈ tables z, apart (z.poolEntry P seg, 16) i) ∧
      (∀ y, y < 0x400 → z.gpaPa vm (z.dResv q + y) = some (at_ z (z.dResv q) + y)) ∧
      (∀ y, y < 0x2000 → z.gpaPa vm (z.dSegt q + y) = some (at_ z (z.dSegt q) + y)) ∧
      (∀ y, y < 0x80 → z.gpaPa vm (z.dSegt q + 0x2400 + y) = some (at_ z (z.dSegt q + 0x2400) + y)) ∧ steady z (fun y => touched z y ∨ w y)
    -- the handle, the request, and what refuses
    (beyond → NotAsked s → all (fun o => Traps s o Cause.cfg)) ∧
    (¬ beyond → NotAsked s → homes q ≠ [] → all (fun o => Asks s o (homes q))) ∧
    (∀ y, s.tripOfKey s.tripHere.who = some y → y.back = true ∨ s.tripDone y = false → all (fun o => Holds s o)) ∧
    (¬ beyond → goesOn q → (foreign → all (fun o => traps o Cause.perm)) ∧ (bad → all (fun o => traps o Cause.cfg)) ∧
      (¬ foreign → s.dV q = true → s.dOwner q ≠ s.cur.col.toNat → all (fun o => traps o Cause.perm)) ∧
      (¬ foreign → s.dV q = true → s.dOwner q = s.cur.col.toNat → (∃ k ∈ s.forks, k.handle = q) → all (fun o => Holds s o))) ∧
    (good → goesOn q → s.seqReach vm q = false → onTables (fun o => traps o Cause.page2)) ∧
    (good → goesOn q → s.seqReach vm q = true →
      let refused := fun (segt void resv : Bool) => s1.seqBad P (tab segt void resv) = true
      let z := after false false false
      (∀ e f g, used s (after e f g)) ∧
      (refused true false true → ∀ f, traps (exec (.sqrsv p d a b f) s) Cause.perm) ∧ (refused false false true → traps (exec (.sqcmt p a b sc) s) Cause.perm) ∧
      (refused false true true → traps (exec (.sqvoid p a b sc) s) Cause.perm) ∧
      (refused false false false → traps (exec (.sqld p d a b c sc) s) Cause.perm ∧ traps (exec (.sqfork p d a b c) s) Cause.perm) ∧
      -- SQRSV
      (¬ refused true false true →
        let z := after true false true
        let out := fun f => exec (.sqrsv p d a b f) s
        let rl := z.dRl q
        let miss := z.missingSegs vm q rl n
        let free := (z.part P).poolFree
        let fits := n ≠ 0 ∧ rl + n ≤ z.dCap q
        (∀ f, ¬ fits → traps (out f) Cause.seqrange) ∧
        (fits → 64 ≤ z.dNres q → traps (out true) Cause.seqfull ∧ ends z (fun w => Parks w (out false) 4 (.reserve q (z.dNres q)) s.cur.ip)) ∧
        (∀ f, fits → z.dNres q < 64 → free.length < miss.length → traps (out f) Cause.seqfull) ∧
        (∀ f, fits → z.dNres q < 64 → miss.length ≤ free.length → z.namesFree miss.length = false → traps (out f) Cause.page2) ∧
        (∀ f r0, fits → z.dNres q < 64 → miss.length ≤ free.length → z.namesFree miss.length = true → r0 < 64 → z.resCount vm q r0 = 0 →
          let segs := free.take miss.length
          let taken := fun y => ∃ seg ∈ segs, inn y (seg, 0x10000) ∨ inn y (z.poolEntry P seg, 16)
          let blocks := segs.flatMap (fun seg => [(seg, 0x10000), (z.poolEntry P seg, 16)])
          clear z taken → blocks.Pairwise apart → (∀ i ∈ blocks, ∀ y, inn y i → ¬ touched z y) →
          (∀ seg ∈ segs, ∃ g, z.gpaOf vm seg = some g ∧ g % 0x10000 = 0 ∧ g < 2 ^ 52 ∧ z.gpaPa vm g = some seg) →
          gives q (out f) (BitVec.ofNat 64 rl) (fun u =>
            OnFabric { s with ctxs := u.ctxs, mem := u.mem, uce := u.uce, lines := u.lines, reveals := u.reveals, pages := u.pages, migs := u.migs,
                              fe := u.fe, parts := u.parts } u ∧ (miss = [] → u.fe = s.fe ∧ u.parts = s.parts) ∧
            (u.part P).poolFree = free.drop miss.length ∧ u.dRl q = rl + n ∧ u.dNres q = z.dNres q + 1 ∧ u.dCl q = z.dCl q ∧
            (∀ y, ¬ touched z y → ¬ taken y → mget u.mem y = mget z.mem y) ∧
            (∀ (i k seg : Nat), miss[i]? = some k → segs[i]? = some seg → u.segPa vm q k = some seg ∧ u.rmem (z.poolEntry P seg) 4 = 1 ∧
              ∀ y, inn y (seg, 0x10000) → mget u.mem y = 0) ∧
            ∃ r, r < 64 ∧ z.resCount vm q r = 0 ∧ u.resCount vm q r = n ∧ u.resBase vm q r = rl ∧ u.resReady vm q r = false ∧
              u.resRtag vm q r = s.cur.rtag.toNat ∧
              ∀ j, j < 64 → j ≠ r → u.resCount vm q j = z.resCount vm q j ∧ u.resBase vm q j = z.resBase vm q j))) ∧
      -- SQCMT and SQVOID
      (s.pendingOf s.cur.aid ≠ [] → (¬ refused false false true → Holds s (exec (.sqcmt p a b sc) s)) ∧
        (¬ refused false true true → Holds s (exec (.sqvoid p a b sc) s))) ∧
      (∀ void, s.pendingOf s.cur.aid = [] → ¬ refused false void true →
        let z := after false void true
        let o := if void then exec (.sqvoid p a b sc) s else exec (.sqcmt p a b sc) s
        let opens := fun (v : State) (r : Nat) (w : Nat → Prop) (e : State → Prop) =>
          (v.dCl q ≠ n → (∀ j, j < 64 → v.resCount vm q j ≠ 0 → v.resReady vm q j = true → v.resBase vm q j ≠ v.dCl q) →
            goes o (fun u => u.dCl q = v.dCl q ∧ u.resReady vm q r = true ∧ u.resCount vm q r = v.resCount vm q r ∧ u.dNres q = v.dNres q ∧ e u ∧
              ∀ y, ¬ touched v y → ¬ w y → mget u.mem y = mget v.mem y)) ∧
          (v.dCl q = n → 0 < v.dNres q → v.dCl q + v.resCount vm q r < 2 ^ 64 →
            (∀ j, j < 64 → j ≠ r → v.resCount vm q j = 0 ∨ v.resBase vm q j ≠ n + v.resCount vm q r) →
            (∀ j, j < 64 → j ≠ r → v.resCount vm q j = 0 ∨ v.resBase vm q j ≠ n) →
            goes o (fun u => u.dCl q = n + v.resCount vm q r ∧ u.resCount vm q r = 0 ∧ u.dNres q = v.dNres q - 1 ∧ e u ∧
              ∀ y, ¬ touched v y → ¬ w y → mget u.mem y = mget v.mem y))
        ((z.resAt vm q n = none ∨ ∃ r, z.resAt vm q n = some r ∧ z.resReady vm q r = true) → traps o Cause.seqrange) ∧
        (∀ r, z.resAt vm q n = some r → z.resReady vm q r = false →
          (void = false → clear z (fun _ => False) → opens z r (fun _ => False) (fun _ => True)) ∧
          (void = true →
            let uses := z.voidUses vm q r
            let v := z.seqTouch z.seqBy uses
            (z.seqBad P uses = true → traps o Cause.perm) ∧
            (z.seqBad P uses = false → used z v ∧
              let es := v.dEs q
              let lo := v.resBase vm q r
              let k := v.resCount vm q r
              let map := (at_ v (v.dVoid q), 0xDB80)
              let elem := fun y => ∃ off, lo * es ≤ off ∧ off < (lo + k) * es ∧ v.seqPa vm q off = some y
              let written := fun y => elem y ∨ inn y map
              (v.resAt vm q n = some r → v.resReady vm q r = false → clear v written → (lo + k + 7) / 8 ≤ 0xDB80 → (lo + k) * es ≤ 2 ^ 26 →
               (∀ y, y < 0xDB80 → v.gpaPa vm (v.dVoid q + y) = some (map.1 + y)) →
               (∀ y, written y → ¬ touched v y) → (∀ y, elem y → ¬ inn y map) →
                opens v r written (fun u => (∀ y, elem y → mget u.mem y = 0xFF) ∧
                  ∀ i, i < k → (mget u.mem (map.1 + (lo + i) / 8)).getLsbD ((lo + i) % 8) = true)))))) ∧
      -- SQLD
      (¬ refused false false false →
       let o := (s.rdS c).toNat
       let g := min (z.dEs q) 8
       let out := exec (.sqld p d a b c sc) s
       (z.dCl q ≤ n → traps out Cause.seqrange) ∧
       (n < z.dCl q → (o % g ≠ 0 ∨ z.dEs q < o + g) → traps out Cause.align) ∧
       (n < z.dCl q → o % g = 0 → o + g ≤ z.dEs q →
         (z.seqPa vm q (n * z.dEs q + o) = none → traps out Cause.page) ∧
         (∀ pa, z.seqPa vm q (n * z.dEs q + o) = some pa → z.ownerOf (z.forward pa) ≠ P → traps out Cause.perm) ∧
         (∀ pa, z.seqPa vm q (n * z.dEs q + o) = some pa → z.ownerOf (z.forward pa) = P →
           ∃ v, used z v ∧ (v.hasUce (z.forward pa) g = false →
             gives q out (BitVec.ofNat 64 (mread v.mem (z.forward pa) g)) (fun u => onlyMem u ∧ u.mem = v.mem))))) ∧
      -- SQFORK
      (¬ refused false false false →
       let out := exec (.sqfork p d a b c) s
       let nb := n * z.dEs q
       let whole := nb % 0x10000 = 0
       let place := z.newSeqPlace (s.rdS c).toNat (if nb % 0x10000 = 0 then 0 else 1)
       (z.dCl q < n → traps out Cause.seqrange) ∧
       (n ≤ z.dCl q → ¬ whole → 15 ≤ s.otoCount s.cur.aid → s.halting = false → Holds s out) ∧
       (n ≤ z.dCl q → whole ∨ s.otoCount s.cur.aid < 15 →
         (∀ e, place = .error e → traps out e) ∧
         (∀ p2 k, place = .ok (p2, k) → (z.seqBad P (z.forkUses q n k) = true → traps out Cause.perm) ∧
           (z.seqBad P (z.forkUses q n k) = false → gives q out (BitVec.ofNat 64 k) (fun u => (whole → u.forks = s.forks) ∧
             (¬ whole → ∃ f, u.forks = s.forks ++ [f] ∧ f.aid = s.cur.aid ∧ f.handle = s.seqAddr P k ∧ f.bytes = nb % 0x10000))))))) ∧
    -- what needs the descriptor alone
    (good → goesOn q →
      s1 = { s with lines := s1.lines, reveals := s1.reveals, pages := s1.pages } ∧
      (s.dRl q ≤ n → traps (exec (.sqadr p d a b) s) Cause.seqrange) ∧
      (n < s.dRl q → ends s1 (fun w => WritesS w (exec (.sqadr p d a b) s) d (BitVec.ofNat 64 (s.dSva q + n * s.dEs q)))) ∧
      ends s1 (fun w => WritesS w (exec (.sqlen p d a sc) s) d (BitVec.ofNat 64 (s.dCl q))) ∧
      (n ≤ s.dCl q → ends s1 (fun w => OnlyAdvances w (exec (.sqwait p a b sc) s))) ∧
      (s.dCl q < n → s.seqWaitUsed (State.seqUnit q) < 256 → ends s1 (fun w => Parks w (exec (.sqwait p a b sc) s) 4 (.seqLen q n) s.cur.ip)) ∧
      (s.dCl q < n → 256 ≤ s.seqWaitUsed (State.seqUnit q) →
        ends s1 (fun w => Parks w (exec (.sqwait p a b sc) s) 4 (.seqRetry q n (s.clkOf s.curCore + 1024)) s.cur.ip)) ∧
      (s.dRefcnt q = 2 ^ 32 - 1 → traps (exec (.sqref p d a) s) Cause.cfg) ∧
      (s.dRefcnt q ≠ 2 ^ 32 - 1 → gives q (exec (.sqref p d a) s) (BitVec.ofNat 64 (s.dRefcnt q + 1)) (fun u => onlyMem u ∧
        Stored s.mem u.mem (s.forward (q + 4)) 4 (s.dRefcnt q + 1))) ∧
      (1 < s.dRefcnt q → gives q (exec (.sqrel p d a) s) (BitVec.ofNat 64 (s.dRefcnt q - 1)) (fun u => onlyMem u ∧
        Stored s.mem u.mem (s.forward (q + 4)) 4 (s.dRefcnt q - 1))) ∧
      (s.dRefcnt q ≤ 1 → s.dNres q ≠ 0 → traps (exec (.sqrel p d a) s) Cause.cfg) ∧
      (s.dRefcnt q ≤ 1 → s.dNres q = 0 → s.seqReach vm q = false → traps (exec (.sqrel p d a) s) Cause.page2) ∧
      (s.dRefcnt q ≤ 1 → s.dNres q = 0 → s.seqReach vm q = true → (s.level2Refused (s.dSva q) = true ∨ s1.seqBad P (tab true false false) = true) →
        traps (exec (.sqrel p d a) s) Cause.perm) ∧
      (s.dRefcnt q ≤ 1 → s.dNres q = 0 → s.seqReach vm q = true → s.level2Refused (s.dSva q) = false → s1.seqBad P (tab true false false) = false →
        gives q (exec (.sqrel p d a) s) 0 (fun u => u.dV q = false) ∧
        -- the last reference to a sequence without segments
        (let z := after true false false
         let v := z.level2Touch z.seqBy (z.dSva q)
         ∀ p2 m, z.segIdx vm q = [] → here → z.level2Pa (z.dSva q) = .ok p2 → z.gpaPa vm (v.dSegt q) = some m →
           apart (q, 64) (p2, 8) → apart (q, 64) (m, 0x10000) → apart (p2, 8) (m, 0x10000) →
           (∀ t : State, t.vmids = s.vmids → (∀ y, t.forward y = y) → (∀ y, ¬ inn y (p2, 8) → mget t.mem y = mget v.mem y) →
             t.gpaPa vm (v.dSegt q) = some m) →
           used z v ∧ gives q (exec (.sqrel p d a) s) 0 (fun u => (u.part P).poolFree = (s.part P).poolFree ++ [m] ∧
             (∀ y, inn y (m, 0x10000) ∨ inn y (p2, 8) → mget u.mem y = 0) ∧ mget u.mem q = mget v.mem q &&& 0xFE ∧
             ∀ y, y ≠ q → ¬ inn y (m, 0x10000) → ¬ inn y (p2, 8) → mget u.mem y = mget v.mem y)))) ∧
    -- SQNEW
    ((h.toNat = 0 ∨ 12 < h.toNat) → Traps s (exec (.sqnew p d a b) s) Cause.cfg) ∧
    (0 < h.toNat → h.toNat ≤ 12 →
      (n % 0x4000000 ≠ 0 → Traps s (exec (.sqnew p d a b) s) Cause.align) ∧
      (∀ e, s.newSeqPlace n 0 = .error e → Traps s (exec (.sqnew p d a b) s) e) ∧
      (∀ p2 k, s.newSeqPlace n 0 = .ok (p2, k) →
        let e := s.seqAddr P k
        (NotAsked s → homes e ≠ [] → Asks s (exec (.sqnew p d a b) s) (homes e)) ∧
        (goesOn e → (s.ownerOf (s.forward e) ≠ P ∨ s.hwBad e 64 = true) → trapsAt e (exec (.sqnew p d a b) s) Cause.perm) ∧
        (∀ seg m rest, goesOn e → s.ownerOf (s.forward e) = P → s.hwBad e 64 = false →
          let z := s.level2Touch s.seqBy n
          let z1 := (z.takeSeg P).2
          (s.part P).poolFree = seg :: rest → z1.gpaOf vm seg = some m → m < 2 ^ 52 → here →
          apart (e, 64) (p2, 8) → apart (e, 64) (seg, 0x10000) → apart (p2, 8) (seg, 0x10000) →
          used s z ∧ gives e (exec (.sqnew p d a b) s) (BitVec.ofNat 64 k) (fun u => u.dV e = true ∧ u.dLoges e = h.toNat ∧
            u.dOwner e = s.cur.col.toNat ∧ u.dRefcnt e = 1 ∧ u.dNres e = 0 ∧ u.dCl e = 0 ∧ u.dRl e = 0 ∧ u.dSva e = n ∧ u.dSegt e = m ∧
            u.dVoid e = m + 0x2480 ∧ u.dResv e = m + 0x2000 ∧ mread u.mem p2 8 = m + 1 ∧ (u.part P).poolFree = rest ∧
            (∀ y, inn y (seg, 0x10000) → mget u.mem y = 0) ∧
            (∀ y, ¬ inn y (e, 64) → ¬ inn y (p2, 8) → ¬ inn y (seg, 0x10000) → mget u.mem y = mget z.mem y) ∧
            OnFabric { s with ctxs := u.ctxs, mem := u.mem, parts := u.parts, uce := u.uce, fe := u.fe, lines := u.lines, reveals := u.reveals,
                              pages := u.pages, migs := u.migs } u))))

/-- spec/20 R409 to R412, spec/19 R380, R383, R385: the counter instructions: what each selector reads, who may read it, and the counts that QSET and
CNTSET set. A bad selector traps CFG. -/
def Obligations.CounterInstructions : Prop :=
  ∀ (s : State) (p : Pred) (d a b : SReg), Ready s p [a, b] [] →
    let v := s.rdS a
    let x := (s.rdS b).toNat
    let r := s.curRegion
    let T := s.tile s.curTile
    let kind := (v.extractLsb' 0 4).toNat
    let idx := (v.extractLsb' 8 6).toNat
    let c := (v.extractLsb' 16 5).toNat
    let form := v.extractLsb' 4 4 = 0 ∧ v.extractLsb' 14 2 = 0 ∧ v.extractLsb' 21 43 = 0
    let rd := exec (.cntrd p d a) s
    (¬ form ∨ 8 ≤ kind ∨ (c ≠ 0 ∧ kind ≠ 3 ∧ kind ≠ 4 ∧ kind ≠ 5) ∨ (idx ≠ 0 ∧ kind ≠ 2 ∧ kind ≠ 7) ∨ (kind = 7 ∧ 32 ≤ idx) →
      Traps s rd Cause.cfg ∧ (s.priv = true → Traps s (exec (.cntset p a b) s) Cause.cfg)) ∧
    (s.priv = true → form → ((kind ≠ 2 ∧ kind ≠ 5 ∧ kind ≠ 6) ∨ (kind = 6 ∧ 0xFFFFFFFF < x) ∨ (kind ≠ 6 ∧ 0xFFFF < x)) →
      Traps s (exec (.cntset p a b) s) Cause.cfg) ∧
    (form → idx = 0 → c = 0 →
      (kind = 0 → WritesS s rd d (BitVec.ofNat 64 (s.oldCount s.cur.aid % 64 + s.ostCount s.cur.aid % 64 * 2 ^ 8 + s.otoCount s.cur.aid % 16 * 2 ^ 16))) ∧
      (kind = 1 → ∃ z, WritesS s rd d z ∧ ∀ t, t < 8 → z.extractLsb' (2 * t) 2 = s.tokenOf s.curTile t) ∧
      (kind = 6 → WritesS s rd d (BitVec.ofNat 64 (s.region r).linklate) ∧
        (s.priv = true → x ≤ 0xFFFFFFFF → ∃ t, exec (.cntset p a b) s = .next t ∧ GoesOn s t ∧ (t.region r).linklate = x ∧
          t = { s with ctxs := t.ctxs, regions := t.regions } ∧ ∀ j, j ≠ r → t.region j = s.region j))) ∧
    (form → c = 0 → kind = 2 → WritesS s rd d (BitVec.ofNat 64 (lget 0 T.cherr idx)) ∧
      (s.priv = true → x ≤ 0xFFFF → ∃ t, exec (.cntset p a b) s = .next t ∧ GoesOn s t ∧ OnlyTile s t { T with cherr := lset T.cherr idx x })) ∧
    (form → idx = 0 → (c = s.cur.col.toNat ∨ s.priv = true) →
      (kind = 3 → WritesS s rd d (BitVec.ofNat 64 (s.colour r c).livea)) ∧ (kind = 4 → WritesS s rd d (BitVec.ofNat 64 (s.colour r c).q)) ∧
      (kind = 5 → WritesS s rd d (BitVec.ofNat 64 (s.colour r c).stalew))) ∧
    (form → idx = 0 → c ≠ s.cur.col.toNat → s.priv = false → 3 ≤ kind → kind ≤ 5 → Traps s rd Cause.perm) ∧
    (form → c = 0 → kind = 7 → idx < 32 → WritesS s rd d (BitVec.ofNat 64 ((s.barrier s.curCore idx).exp + (s.barrier s.curCore idx).arr * 2 ^ 16 +
      (s.barrier s.curCore idx).phase.toNat * 2 ^ 32))) ∧
    (s.priv = true → form → idx = 0 → kind = 5 → x ≤ 0xFFFF → ∃ t, exec (.cntset p a b) s = .next t ∧ GoesOn s t ∧ (t.colour r c).stalew = x ∧
      t = { s with ctxs := t.ctxs, regions := t.regions } ∧ ∀ j, j ≠ c → t.colour r j = s.colour r j) ∧
    (let w := v.toNat
     (32 ≤ w → Traps s (exec (.owcrd p d a) s) Cause.cfg) ∧
     (w < 32 → w ≠ s.cur.col.toNat → s.priv = false → Traps s (exec (.owcrd p d a) s) Cause.perm) ∧
     (w < 32 → w = s.cur.col.toNat ∨ s.priv = true → WritesS s (exec (.owcrd p d a) s) d (BitVec.ofNat 64 ((s.colour r w).owc.toNat +
       (s.colour r w).nxw.toNat * 2 ^ 16 + (lget 0 T.owc w).toNat * 2 ^ 32))) ∧
     (s.priv = true → (32 ≤ w ∨ kArmed (lget 0 (s.region r).colours w) = false ∨ x = 0 ∨ 16384 < x * s.ws r) → Traps s (exec (.qset p a b) s) Cause.cfg) ∧
     (s.priv = true → w < 32 → kArmed (lget 0 (s.region r).colours w) = true → x ≠ 0 → x * s.ws r ≤ 16384 →
       ∃ t, exec (.qset p a b) s = .next t ∧ GoesOn s t ∧ t.colour r w = { s.colour r w with q := x } ∧
         t = { s with ctxs := t.ctxs, regions := t.regions } ∧ ∀ j, j ≠ w → t.colour r j = s.colour r j))

/-! Configuration. -/

/-- spec/18 R369 to R377, spec/09 R203, spec/19 R383, spec/08 R162: the configuration instructions, privileged, held while an access of the activation
is outstanding. CFGLD, DICTLD and CBLD are held while their request goes to the homes of what they read, and are performed once it has come. CFGLD
loads a well formed image whole, answers a status, or traps PERM where a stack SRAM area of the image is another partition's; CFGARM arms what passes
every check or answers the first that fails; CFGDIS disarms; DICTLD and CBLD load entries and answer the size; TLBINV drops the translations that it
names, and only those. The status of a load with several faults follows log entry 40. How a request rides the fabric, one message for each home, is
the model's choice (log entry 78). -/
def Obligations.ConfigurationInstructions : Prop :=
  ∀ (s : State) (p : Pred) (d a b : SReg), Ready s p [a, b] [] → s.priv = true →
    let va := s.rdS a
    let vb := s.rdS b
    let g := va.toNat
    let first := (vb.extractLsb' 9 10).toNat
    let many := (vb.extractLsb' 19 11).toNat
    let first4 := (vb.extractLsb' 0 8).toNat
    let many4 := (vb.extractLsb' 8 9).toNat
    let die := (vb.extractLsb' 16 2).toNat
    let cores := ((List.range 16).filter (fun c => vb.getLsbD c)).map (fun c => die * 16 + c)
    let form := vb.extractLsb' 18 14 = 0 ∧ vb.extractLsb' 48 16 = 0
    let mine := ∀ c ∈ cores, s.partOf c = s.curPart
    let image := s.imagePieces g
    let words := s.curPieces g (8 * many)
    let book := s.curPieces g (4 * many4)
    let goesOn := fun (ps : List Piece) => (NotAsked s ∧ s.homesOf ps = []) ∨ ∃ y, HasCome s y
    let answers := fun (ps : List Piece) (t : State) => ((∃ y, HasCome s y) → Stands t s.tripHere.who s.tripHere.src true (s.homesOf ps)) ∧
      (NotAsked s → t.trips = s.trips ∧ t.fabric = s.fabric ∧ t.flights = s.flights ∧ t.nextId = s.nextId)
    let traps := fun (ps : List Piece) (o : Outcome) (k : BitVec 8) => ∃ u, OnFabric s u ∧ answers ps u ∧ Traps u o k
    let asks := fun (ps : List Piece) (o : Outcome) => NotAsked s → s.homesOf ps ≠ [] → Asks s o (s.homesOf ps)
    let status := fun (t : State) (code c item : Nat) => KeepsRegs s t [d] [] [] [] ∧ StaysOn s t ∧ NextInstr s t ∧
      t.rdS d = (if d = 0 then 0 else BitVec.ofNat 64 (code + c * 2 ^ 8 + item * 2 ^ 16))
    (s.pendingOf s.cur.aid ≠ [] → ∀ i, i = .cfgld p d a b ∨ i = .cfgarm p d a ∨ i = .cfgdis p d a ∨ i = .dictld p d a b ∨ i = .cbld p d a b ∨ i = .tlbinv p a b →
      Holds s (exec i s)) ∧
    (s.pendingOf s.cur.aid = [] →
      (let o := exec (.cfgld p d a b) s
       let ends := fun (r : State → Prop) => ∃ t, o = .next t ∧ answers image t ∧ r t
       (¬ form → Traps s o Cause.cfg) ∧ (form → ¬ mine → Traps s o Cause.perm) ∧ (form → mine → g % 64 ≠ 0 → Traps s o Cause.align) ∧
       (form → mine → g % 64 = 0 → asks image o) ∧
       (∀ hd s0, form → mine → g % 64 = 0 → goesOn image → s.readPieces g 1 0 0 s = .ok (hd, s0) →
         (headerOk hd = false → ends (fun t => status t 0x0A 0 0 ∧ OnFabric { s0 with ctxs := t.ctxs } t)) ∧
         (∀ img s1, headerOk hd = true → s0.readPieces g ((imgAt hd 4 4 + 63) / 64) 0 0 s0 = .ok (img, s1) →
           (∀ k, badSection img = some k → ends (fun t => status t 0x0A 0 k ∧ OnFabric { s1 with ctxs := t.ctxs } t)) ∧
           (badSection img = none → s1.imageBad img die = true → traps image o Cause.perm) ∧
           (badSection img = none → s1.imageBad img die = false → (∃ c ∈ cores, (s.core c).region.isSome = true) →
             ends (fun t => status t 0x0B 0 0 ∧ t.regions = s1.regions)) ∧
           (badSection img = none → s1.imageBad img die = false → (∀ c ∈ cores, (s.core c).region = none) → cores.length ≠ imgAt img 2 1 →
             ends (fun t => status t 0x0E 0 0 ∧ t.regions = s1.regions)) ∧
           (badSection img = none → s1.imageBad img die = false → (∀ c ∈ cores, (s.core c).region = none) → cores.length = imgAt img 2 1 → cores ≠ [] →
             let u := s1.loadImage img cores (vb.extractLsb' 32 16).toNat die
             let r := cores.headD 0
             (∃ w, OnFabric u w ∧ answers image w ∧ o = .next (w.wrS d 0).advance) ∧ (u.region r).st = 1 ∧ (u.region r).cores = cores ∧ (u.region r).graph = vb.extractLsb' 32 16 ∧
               ∀ c ∈ cores, (u.core c).region = some r)))) ∧
      (let r := (va.extractLsb' 16 2).toNat * 16 + (va.extractLsb' 0 4).toNat
       let one := va.getLsbD 9
       let c := (va.extractLsb' 4 5).toNat
       (let o := exec (.cfgarm p d a) s
        let form := va.extractLsb' 10 6 = 0 ∧ va.extractLsb' 18 46 = 0
        (¬ form → Traps s o Cause.cfg) ∧ (form → s.partOf r ≠ s.curPart → Traps s o Cause.perm) ∧
        (form → s.partOf r = s.curPart →
          (s.armSet r one c = none → ∃ t, o = .next t ∧ status t 0x0C 0 0 ∧ t = { s with ctxs := t.ctxs }) ∧
          (∀ cols, s.armSet r one c = some cols →
            (∀ code k i, s.armBad r cols = some (code, k, i) → ∃ t, o = .next t ∧ status t code k i ∧ t = { s with ctxs := t.ctxs }) ∧
            (s.armBad r cols = none → ∃ t, o = .next t ∧ KeepsRegs s t [d] [] [] [] ∧ NextInstr s t ∧ t.rdS d = 0 ∧ KeepsMem s t ∧
              (∀ k ∈ cols, kArmed (lget 0 (t.region r).colours k) = true) ∧ (∀ k, k ∉ cols → lget 0 (t.region r).colours k = lget 0 (s.region r).colours k) ∧
              (∀ k ∈ cols, (t.colour r k).nxw = 0 ∧ (t.colour r k).owc = 0 ∧ (t.colour r k).livea = 0 ∧ (t.colour r k).q = (s.colour r k).q) ∧
              (one = false → (t.region r).st = 2 ∧ (t.region r).linklate = 0) ∧ (one = true → (t.region r).st = (s.region r).st))))) ∧
       (let o := exec (.cfgdis p d a) s
        let un := va.getLsbD 10
        let cols := if one then [c] else (List.range 32).filter (fun k => kArmed (lget 0 (s.region r).colours k))
        let form := va.extractLsb' 11 5 = 0 ∧ va.extractLsb' 18 46 = 0
        let wrong := if one then (s.region r).st ≠ 2 ∨ kArmed (lget 0 (s.region r).colours c) = false
          else (s.region r).st = 0 ∨ ((s.region r).st = 1 ∧ un = false)
        (¬ form → Traps s o Cause.cfg) ∧ (form → s.partOf r ≠ s.curPart → Traps s o Cause.perm) ∧
        (form → s.partOf r = s.curPart → wrong → ∃ t, o = .next t ∧ status t 0x0C 0 0 ∧ t = { s with ctxs := t.ctxs }) ∧
        (form → s.partOf r = s.curPart → ¬ wrong → (∃ k ∈ cols, s.colourLive r k = true) →
          ∃ t, o = .next t ∧ status t 0x0B 0 0 ∧ t = { s with ctxs := t.ctxs }) ∧
        (form → s.partOf r = s.curPart → ¬ wrong → (∀ k ∈ cols, s.colourLive r k = false) →
          ∃ t, o = .next t ∧ KeepsRegs s t [d] [] [] [] ∧ NextInstr s t ∧ t.rdS d = 0 ∧ KeepsMem s t ∧
            (∀ k ∈ cols, kArmed (lget 0 (t.region r).colours k) = false) ∧
            (one = false → un = true → t.region r = {} ∧ ∀ k ∈ (s.region r).cores, (t.core k).region = none) ∧
            (one = false → un = false → (t.region r).st = 1) ∧ (one = true → (t.region r).st = (s.region r).st)))) ∧
      (let o := exec (.dictld p d a b) s
       let n := many
       ((s.region s.curRegion).coreAt (vb.extractLsb' 5 4).toNat = none → Traps s o Cause.cfg) ∧
       (∀ core, (s.region s.curRegion).coreAt (vb.extractLsb' 5 4).toNat = some core →
         (vb.extractLsb' 30 34 ≠ 0 ∨ n = 0 ∨ 1024 < first + n → Traps s o Cause.cfg) ∧
         (vb.extractLsb' 30 34 = 0 → n ≠ 0 → first + n ≤ 1024 →
           (g % 8 ≠ 0 → Traps s o Cause.align) ∧
           (g % 8 = 0 → asks words o) ∧
           (∀ ws s1, g % 8 = 0 → goesOn words → s.readWords g 8 n 0 [] s = .ok (ws, s1) → ws.length = n ∧
             ((∃ w ∈ ws, w / 2 ^ 62 % 4 = 0) → traps words o Cause.cfg) ∧
             ((∀ w ∈ ws, w / 2 ^ 62 % 4 ≠ 0) →
               let T := core * 32 + (vb.extractLsb' 0 5).toNat
               let size := max (s.tile T).dictSize (first + n)
               ∃ t, o = .next t ∧ answers words t ∧ KeepsRegs s t [d] [] [] [] ∧ StaysOn s t ∧ NextInstr s t ∧
                 t.rdS d = (if d = 0 then 0 else BitVec.ofNat 64 size) ∧
                 (t.tile T).dictSize = size ∧ (∀ i, i < n → lget 0 (t.tile T).dict (first + i) = BitVec.ofNat 64 (ws.getD i 0)) ∧
                 (∀ i, i < first ∨ first + n ≤ i → lget 0 (t.tile T).dict i = lget 0 (s.tile T).dict i) ∧
                 t.tile T = { s.tile T with dict := (t.tile T).dict, dictSize := size } ∧ ∀ j, j ≠ T → t.tile j = s.tile j))))) ∧
      (let o := exec (.cbld p d a b) s
       let first := first4
       let n := many4
       (vb.extractLsb' 17 47 ≠ 0 ∨ n = 0 ∨ 256 < first + n → Traps s o Cause.cfg) ∧
       (vb.extractLsb' 17 47 = 0 → n ≠ 0 → first + n ≤ 256 →
         (g % 4 ≠ 0 → Traps s o Cause.align) ∧
         (g % 4 = 0 → asks book o) ∧
         (∀ ws s1, g % 4 = 0 → goesOn book → s.readWords g 4 n 0 [] s = .ok (ws, s1) → let r := s.curRegion
           ∃ t, o = .next t ∧ answers book t ∧ KeepsRegs s t [d] [] [] [] ∧ StaysOn s t ∧ NextInstr s t ∧
             t.rdS d = (if d = 0 then 0 else BitVec.ofNat 64 n) ∧
             (∀ i, i < n → lget 0 (t.region r).codebook (first + i) = BitVec.ofNat 32 (ws.getD i 0)) ∧
             (∀ i, i < first ∨ first + n ≤ i → lget 0 (t.region r).codebook i = lget 0 (s.region r).codebook i) ∧
             t.region r = { s.region r with codebook := (t.region r).codebook } ∧ ∀ j, j ≠ r → t.region j = s.region j))) ∧
      (let o := exec (.tlbinv p a b) s
       let kind := (va.extractLsb' 0 3).toNat
       let vm := (va.extractLsb' 8 8).toNat
       let asid := (va.extractLsb' 16 8).toNat
       let form := va.extractLsb' 3 5 = 0 ∧ va.extractLsb' 24 40 = 0 ∧ kind < 5 ∧ (kind = 2 ∨ kind = 3 ∨ vb = 0)
       let valid := (lget 0 s.vmids vm).getLsbD 0 = true ∧ ((lget 0 s.vmids vm).extractLsb' 1 4).toNat = s.curPart
       let named := fun (e : TlbEntry) => (kind = 0 ∧ e.vmid = vm) ∨ (kind = 1 ∧ e.vmid = vm ∧ e.asid = asid) ∨
         (kind = 2 ∧ e.vmid = vm ∧ e.asid = asid ∧ e.gva ≤ vb.toNat ∧ vb.toNat < e.gva + e.size) ∨
         (kind = 3 ∧ e.vmid = vm ∧ e.gpa / e.size2 = vb.toNat / e.size2) ∨
         (kind = 4 ∧ ((lget 0 s.vmids e.vmid).extractLsb' 1 4).toNat = s.curPart)
       (¬ form → Traps s o Cause.cfg) ∧ (form → kind ≠ 4 → ¬ valid → Traps s o Cause.perm) ∧
       (form → (kind = 4 ∨ valid) → ∃ t, o = .next t ∧ GoesOn s t ∧ t = { s with ctxs := t.ctxs, tiles := t.tiles, cores := t.cores } ∧
         (∀ k e, e ∈ (t.tile k).tlb ↔ e ∈ (s.tile k).tlb ∧ ¬ named e) ∧ (∀ k e, e ∈ (t.core k).tlb ↔ e ∈ (s.core k).tlb ∧ ¬ named e) ∧
         (∀ k, t.tile k = { s.tile k with tlb := (t.tile k).tlb }) ∧ ∀ k, t.core k = { s.core k with tlb := (t.core k).tlb })))

/-! Firmware registers. -/

/-- spec/07 R143, R154, spec/08 R166, R169, spec/06 R121, R124, R135, spec/14 R295, spec/17 R350, spec/18 R365 to R367, spec/19 R389, spec/21 R422,
R423, R425, R429, R430, spec/22 R435, R439: the writes of registers that firmware and the hypervisor make: what each changes, which values are ignored
or clamped, and that nothing else changes. spec/07 R154, spec/08 R177, spec/19 R379, spec/22 R435: a read of a counter of the ring, of the fabric or
of the ports answers its count and leaves it zero; no other counter changes. Which registers have no row of their own, and their forms, follow log
entries 4, 54. -/
def Obligations.FirmwareRegisters : Prop :=
  (∀ s : State,
     (∀ (e : Nat) (v : BitVec 512), e < 8 → ∃ t, exec (.ringImageEntryWrite e v) s = .next t ∧ t = { s with ring := { s.ring with pending := t.ring.pending } } ∧
       lget? t.ring.pending e = some v ∧ ∀ k, k ≠ e → lget? t.ring.pending k = lget? s.ring.pending k) ∧
     (∀ v : BitVec 5,
       let n := v.toNat
       let paceOk := n ≠ 0 ∧ n ≤ 16 ∧ s.ring.minPace ≤ n
       let minOk := n ≠ 0 ∧ n ≤ 16 ∧ n ≤ s.ring.pace
       (paceOk → exec (.ringPaceWrite v) s = .next { s with ring := { s.ring with pace := n } }) ∧ (¬ paceOk → exec (.ringPaceWrite v) s = .next s) ∧
       (minOk → exec (.ringPaceMinWrite v) s = .next { s with ring := { s.ring with minPace := n } }) ∧ (¬ minOk → exec (.ringPaceMinWrite v) s = .next s)) ∧
     (∀ v : BitVec 3, exec (.ringLeadWrite v) s = .next (if v.toNat = 0 then s else { s with ring := { s.ring with lead := v.toNat } })) ∧
     (∀ (d n : Nat) (v : BitVec 32), n < 8 →
       let o := s.coderate d n
       ∃ t, exec (.coderateWrite d n v) s = .next t ∧
         let w := t.coderate d n
         w.extractLsb' 16 16 = (if v.extractLsb' 16 16 = 0 then o.extractLsb' 16 16 else v.extractLsb' 16 16) ∧
         w.extractLsb' 8 8 = (if 1 ≤ (v.extractLsb' 8 8).toNat ∧ (v.extractLsb' 8 8).toNat ≤ 56 then v.extractLsb' 8 8 else o.extractLsb' 8 8) ∧
         w.extractLsb' 4 4 = 0 ∧
         w.extractLsb' 0 4 = (if 1 ≤ (v.extractLsb' 0 4).toNat ∧ (v.extractLsb' 0 4).toNat ≤ 8 then v.extractLsb' 0 4 else o.extractLsb' 0 4) ∧
         (∀ m, m ≠ n → t.coderate d m = s.coderate d m) ∧ t.fab d = { s.fab d with coderate := (t.fab d).coderate } ∧
         (∀ k, k ≠ d → t.fab k = s.fab k) ∧ t = { s with fabric := t.fabric }) ∧
     (∀ v : BitVec 8,
       let n := min v.toNat 105
       exec (.throtThWrite v) s = .next { s with hub := { s.hub with throtTh := n, placeTh := min s.hub.placeTh n } } ∧
       exec (.placeThWrite v) s = .next { s with hub := { s.hub with placeTh := min v.toNat s.hub.throtTh } }) ∧
     (∀ v : BitVec 16, exec (.timingThWrite v) s = .next (if v.toNat = 0 then s else { s with hub := { s.hub with timingTh := v.toNat } })) ∧
     (∀ v : BitVec 32, exec (.wdogThWrite v) s = .next { s with hub := { s.hub with wdogTh := v.toNat } }) ∧
     (∀ (power : Bool) (v : BitVec 32), ∃ t, exec (.tileGatingWrite power v) s = .next t ∧ t = { s with hub := t.hub, tiles := t.tiles } ∧
       t.hub = (if power then { s.hub with tilePg := v.toNat } else { s.hub with tileCg := v.toNat }) ∧
       ∀ k, t.tile k = (if v.toNat = 0 ∧ (s.tile k).gate = .power then { s.tile k with gate := .powering 5400 }
         else if v.toNat = 0 ∧ power = false ∧ (s.tile k).gate = .clock then { s.tile k with gate := .waking 8 } else s.tile k)) ∧
     (∀ (port : Nat) (up : Bool), port < 12 → ∃ t, exec (.portLinkChange port up) s = .next t ∧ t = { s with hub := { s.hub with portup := t.hub.portup } } ∧
       ∀ i, i < 12 → t.hub.portup.getLsbD i = if i = port then up else s.hub.portup.getLsbD i) ∧
     (∀ (v : Nat) (x : BitVec 128), v < 256 → ∃ t, exec (.vmidTableWrite v x) s = .next t ∧ t = { s with vmids := t.vmids } ∧ lget 0 t.vmids v = x ∧
       ∀ k, k ≠ v → lget 0 t.vmids k = lget 0 s.vmids k) ∧
     (∀ (reg : FwReg) (v : Word), ∃ t, exec (.firmwareRegisterWrite reg v) s = .next t ∧
       t = { s with parts := t.parts, ring := t.ring, fabric := t.fabric, hub := t.hub } ∧
       let n := v.toNat
       let ofPart := fun (p : Nat) (x : Part) => t = { s with parts := t.parts } ∧ t.part p = x ∧ ∀ k, k ≠ p → t.part k = s.part k
       let ofFab := fun (d : Nat) (x : Fabric) => t = { s with fabric := t.fabric } ∧ t.fab d = x ∧ ∀ k, k ≠ d → t.fab k = s.fab k
       let area := fun (x : Ring16) (size : Nat) => if 2 ^ 12 ≤ size ∧ size ≤ 2 ^ 24 then { x with base := n, size := size } else x
       match reg with
       | .share p => ofPart p { s.part p with share := n % 256 }
       | .avoid p c => ofPart p { s.part p with avoid := (t.part p).avoid } ∧ (c ∈ (t.part p).avoid ↔ n ≠ 0) ∧
           ∀ k, k ≠ c → (k ∈ (t.part p).avoid ↔ k ∈ (s.part p).avoid)
       | .holdb e => if 8 ≤ e then t = s else t = { s with ring := { s.ring with holdb := t.ring.holdb } } ∧ lget 256 t.ring.holdb e = BitVec.ofNat 16 n ∧
           ∀ k, k ≠ e → lget 256 t.ring.holdb k = lget 256 s.ring.holdb k
       | .fabricMode d => ofFab d { s.fab d with lean := v.getLsbD 0 }
       | .spray d a b => ofFab d { s.fab d with spray := (t.fab d).spray } ∧ lget 0 (t.fab d).spray (a * 4096 + b) = v ∧
           ∀ k, k ≠ a * 4096 + b → lget 0 (t.fab d).spray k = lget 0 (s.fab d).spray k
       | .replTh => t = { s with hub := { s.hub with replTh := n } }
       | .rptArea p size => ofPart p { s.part p with rpt := area (s.part p).rpt size }
       | .rptTail p => ofPart p { s.part p with rpt := { (s.part p).rpt with tail := v.setWidth 32 } }
       | .logArea p size => ofPart p { s.part p with log := area (s.part p).log size }
       | .logTail p => ofPart p { s.part p with log := { (s.part p).log with tail := v.setWidth 32 } }
       | .seqTable p count => ofPart p { s.part p with seqBase := n, seqCount := count }
       | .seqPool p segs m => ofPart p { s.part p with poolBase := n, poolSegs := segs, poolMap := m, poolFree := (t.part p).poolFree } ∧
           ∀ a, a ∈ (t.part p).poolFree ↔ ∃ i, i < segs ∧ a = n + 0x10000 * i ∧ mread s.mem (s.forward (m + 16 * i)) 4 = 0
       | .saveArea p => ofPart p { s.part p with savePa := n }
       | .snapTarget p => ofPart p { s.part p with snapTarget := n }
       | .dumpBuf p size => ofPart p { s.part p with dumpBase := n, dumpSize := size })) ∧
  (∀ (s : State) (k : Nat),
     let clears := fun (o : Outcome) (old : State → Nat → BitVec 32) (only : State → Prop) =>
       ∃ t, o = .next t ∧ t.fwRead = (old s k).setWidth 64 ∧ old t k = 0 ∧ (∀ j, j ≠ k → old t j = old s j) ∧ only t
     let ring := fun (t : State) => t = { s with fwRead := t.fwRead, ring := { s.ring with corrt := t.ring.corrt, under := t.ring.under } }
     let fab := fun (x : Fabric → Fabric) (t : State) => t = { s with fwRead := t.fwRead, fabric := t.fabric } ∧ t.fab k = x (s.fab k) ∧
       ∀ j, j ≠ k → t.fab j = s.fab j
     clears (exec (.corrt k) s) (fun u => lget 0 u.ring.corrt) (fun t => ring t ∧ t.ring.under = s.ring.under) ∧
     clears (exec (.underrunRead k) s) (fun u => lget 0 u.ring.under) (fun t => ring t ∧ t.ring.corrt = s.ring.corrt) ∧
     clears (exec (.latedrop k) s) (fun u d => (u.fab d).latedrop) (fab (fun f => { f with latedrop := 0 })) ∧
     clears (exec (.fragerr k) s) (fun u d => (u.fab d).fragerr) (fab (fun f => { f with fragerr := 0 })) ∧
     clears (exec (.decfull k) s) (fun u d => (u.fab d).decfull) (fab (fun f => { f with decfull := 0 })) ∧
     clears (exec (.nacks k) s) (fun u d => (u.fab d).nacks) (fab (fun f => { f with nacks := 0 })) ∧
     clears (exec (.retxn k) s) (fun u d => (u.fab d).retxn) (fab (fun f => { f with retxn := 0 })) ∧
     clears (exec (.msglossRead k) s) (fun u d => (u.fab d).msgloss) (fab (fun f => { f with msgloss := 0 })) ∧
     clears (exec (.portdropRead k) s) (fun u => lget 0 u.hub.portdrop)
       (fun t => t = { s with fwRead := t.fwRead, hub := { s.hub with portdrop := t.hub.portdrop } }))

/-! Messages of the fabric. -/

/-- spec/08 R159, R160, R163 to R165, R167, R168, R171 to R175, spec/22 R437, R440: coded messages: fragments that leave their loop or link, cross the
hub die, wait at ports that heat has stopped, are refused, dropped late, collected and decoded; a whole message delivered and acknowledged once, at
the code of its source; decode timeouts, acknowledgements, retransmission and loss, of which who rides the message hears. A message of classes 5 to 7
is a peer's, and stands at its node (the model's choice, log entry 82); the logs told of a loss without a region are the model's choice (log entry
80). Which stripe is the last follows log entry 16; the statement rests on messages whose short stripe shows it. -/
def Obligations.FabricMessages : Prop :=
  ∀ (s : State) (d : Nat),
    let f := s.fab d
    let fab := fun (x : Fabric) => (Host.Outcome.next (s.setFab d x) : Outcome)
    let signals := fun (u : State) (src cls : Nat) (x : Sig) =>
      if 5 ≤ cls then u else u.setFab (src / 512) { u.fab (src / 512) with sigs := (u.fab (src / 512)).sigs ++ [x] }
    let heard := fun (x : Sig) => s.setFab d { f with sigs := f.sigs.erase x }
    (∀ (h : BitVec 128) (data : Vec) (crc : BitVec 32),
      let field := fun (lo len : Nat) => (h.extractLsb' lo len).toNat
      let src := field 44 12
      let dst := field 32 12
      let cls := field 124 3
      let id := field 0 32
      let index := field 116 8
      let k := field 108 8 + 1
      let stripe := field 84 12
      let bad := parity h.toNat 128 = true ∨ fragCrc h data ≠ crc ∨ field 96 2 ≠ 0 ∨ field 80 4 ≠ 0 ∨ field 56 3 ≠ 0 ∨ k + (field 105 3 + 1) ≤ index ∨
        State.isNode src = false ∨ State.isNode dst = false
      let mine := fun (e : DecEntry) => e.src == src && e.cls == cls && e.id == id && e.stripe == stripe
      let gone := ∃ r ∈ f.retired, r.1 = src ∧ r.2.1 = cls ∧ r.2.2.1 = id
      let o := exec (.fragmentArrival d h data crc) s
      (∀ n, s.flightTo d h data crc = some n → ∃ x, s.flights[n]? = some x ∧ x.hdr = h ∧ x.data = data ∧ x.crc = crc ∧
        d = (if x.at_ = dst / 512 ∨ x.at_ = 4 then dst / 512 else 4)) ∧
      (d = 4 → s.portsRun = false → (s.flightTo d h data crc = none ∨ (dst / 512 = 4 ∧ dst % 512 < 12)) → o = .next s) ∧
      (s.flightTo d h data crc = none → d = 4 → s.portsRun = true → s.hub.ready = false → ∃ t, o = .next t ∧ t = { s with hub := { s.hub with portdrop := t.hub.portdrop } } ∧
        ∀ p, lget 0 t.hub.portdrop p = lget 0 s.hub.portdrop p + (if p = s.hub.bootport then 1 else 0)) ∧
      (∀ own : Bool, own = (s.flightTo d h data crc).isSome → (d = 4 → own = false → s.hub.ready = true) →
        (d = 4 → own = false ∨ (dst / 512 = 4 ∧ dst % 512 < 12) → s.portsRun = true) →
        let path := ((s.flightTo d h data crc).bind (fun n => s.flights[n]?)).elim 0 Flight.path
        let base : State := { s with flights := (s.flightTo d h data crc).elim s.flights (dropAt s.flights) }
        let now := fun (x : Fabric) => (Host.Outcome.next (base.setFab d x) : Outcome)
        (bad → o = now { f with fragerr := f.fragerr + 1 }) ∧
        (¬ bad → dst / 512 ≠ d → d = 4 →
          o = .next { base with flights := base.flights ++ [{ hdr := h, data := data, crc := crc, at_ := 4, path := path }] }) ∧
        (¬ bad → dst / 512 ≠ d → d ≠ 4 → o = .next base) ∧
        (¬ bad → dst / 512 = d → own = true → d = 4 → dst % 512 < 12 → o = .next base) ∧
        (¬ bad → dst / 512 = d → ¬(own = true ∧ d = 4 ∧ dst % 512 < 12) →
          (gone → o = now { f with latedrop := f.latedrop + 1, acks := f.acks ++ [{ dst := dst, src := src, cls := cls, id := id, since := s.now }] }) ∧
          (¬ gone → f.entries.find? mine = none → 4096 ≤ f.entries.length → o = now { f with decfull := f.decfull + 1 }) ∧
          (∀ e : DecEntry, ¬ gone → (f.entries.find? mine = some e ∨ (f.entries.find? mine = none ∧ f.entries.length < 4096 ∧
              e = { src := src, dst := dst, cls := cls, id := id, stripe := stripe, k := k, m := field 105 3 + 1, last := field 99 6 + 1,
                    rtag := h.extractLsb' 64 16, col := h.extractLsb' 59 5, started := s.now,
                    decto := ((s.msgOf src cls id).map (·.dectoAt)).getD (s.decto d cls) })) →
            let fr := e.frags ++ [{ index := index, data := data }]
            ((∃ x ∈ e.frags, x.index = index) → o = .next base) ∧
            ((∀ x ∈ e.frags, x.index ≠ index) → fr.length < e.k →
              o = now { f with entries := f.entries.filter (fun x => !mine x) ++ [{ e with frags := fr }] }) ∧
            (∀ payload : List Vec, (∀ x ∈ e.frags, x.index ≠ index) → e.k ≤ fr.length → stripe = 0 →
              ((∃ m, s.msgOf src cls id = some m ∧ m.stripes.length = 1) ∨ (s.msgOf src cls id = none ∧ e.last < 64)) →
              (∀ x ∈ f.parts, ¬(x.src = src ∧ x.cls = cls ∧ x.id = id)) → payload.length = e.k →
              ((∀ i, i < e.k → ∃ x ∈ fr, x.index = i ∧ payload[i]? = some x.data ∧ ∀ y ∈ fr, y.index = i → y = x) ∨
                (e.k = 1 ∧ fr = [{ index := index, data := data }] ∧ payload = [data])) →
              let bytes := (payload.flatMap (fun v => toBytes 64 v.toNat)).take (64 * (e.k - 1) + e.last)
              o = .next ((base.setFab d { f with
                entries := f.entries.filter (fun x => !mine x),
                retired := f.retired ++ [(src, cls, id, s.now + 2 * e.decto)],
                acks := f.acks ++ [{ dst := e.dst, src := src, cls := cls, id := id, since := s.now }] }).deliver
                  { src := src, dst := e.dst, cls := cls, id := id, data := bytes })))))) ∧
    (∀ x : Deliv, x.dst / 512 = d →
      (5 ≤ x.cls ∨ s.msgOf x.src x.cls x.id = none → s.deliver x = s.setFab d { f with inbox := f.inbox ++ [x] }) ∧
      (∀ m, s.msgOf x.src x.cls x.id = some m →
        let sent := x.src / 512
        let u := s.deliver x
        u = { s with fabric := u.fabric, hub := { s.hub with reports := u.hub.reports, live := u.hub.live } } ∧
        u.fab sent = { s.fab sent with msgs := (u.fab sent).msgs } ∧ (∀ j, j ≠ sent → u.fab j = s.fab j) ∧
        (∀ (i : Nat) (y : Msg), (s.fab sent).msgs[i]? = some y → (u.fab sent).msgs[i]? = some (if y.num = m.num then { y with done := true } else y)) ∧
        ((∀ c l e, m.what ≠ .report c l e) → u.hub = s.hub))) ∧
    (∀ (k : Nat) (e : DecEntry), f.entries[k]? = some e →
      let o := exec (.decodeTimeout d k) s
      (s.now < e.started + e.decto → o = .next s) ∧
      (e.started + e.decto ≤ s.now → e.nacked = false →
        o = .next (signals (s.setFab d { f with nacks := f.nacks + 1, entries := setAt f.entries k { e with nacked := true, started := s.now } })
          e.src e.cls (.nack e.src e.cls e.id false))) ∧
      (e.started + e.decto ≤ s.now → e.nacked = true →
        ∃ l, o = .next (signals (s.setFab d { f with nacks := f.nacks + 1, entries := dropAt f.entries k, parts := l })
            e.src e.cls (.nack e.src e.cls e.id true)) ∧
          ∀ x, x ∈ l ↔ x ∈ f.parts ∧ ¬(x.src = e.src ∧ x.cls = e.cls ∧ x.id = e.id))) ∧
    (∀ (k : Nat) (e : Nat × Nat × Nat × Nat), f.retired[k]? = some e → exec (.retiredFilterExpiry d k) s =
      if e.2.2.2 ≤ s.now then fab { f with retired := dropAt f.retired k } else .next s) ∧
    (∀ dst src : Nat,
      let xs := f.acks.filter (fun a => a.dst = dst ∧ a.src = src)
      let due := 32 ≤ xs.length ∨ ∃ a ∈ xs, a.since + 2700 ≤ s.now
      (∀ a rest, xs = a :: rest → due → exec (.ackCoalesce d (dst, src)) s =
        .next (signals (s.setFab d { f with acks := f.acks.filter (fun a => ¬(a.dst = dst ∧ a.src = src)) }) src a.cls
          (.ack src (xs.map (fun a => (a.cls, a.id)))))) ∧
      (¬ due → exec (.ackCoalesce d (dst, src)) s = .next s)) ∧
    (∀ (src : Nat) (ids : List (Nat × Nat)), ∃ l, exec (.acknowledgement d (src, ids)) s =
        .next (s.setFab d { f with sigs := f.sigs.erase (.ack src ids), msgs := l }) ∧
      ∀ m, m ∈ l ↔ m ∈ f.msgs ∧ ¬(m.src = src ∧ (m.cls, m.id) ∈ ids)) ∧
    (∀ (k : Nat) (m : Msg), f.msgs[k]? = some m →
      let on := fun (x : Ride) => match x with
        | .on ns => ns.contains m.num
        | _ => false
      let loses := fun (u : State) (o : Outcome) (unknown : Bool) =>
        ∃ t, o = .next t ∧ t.fab d = { u.fab d with msgs := dropAt f.msgs k, msgloss := f.msgloss + 1 } ∧ (∀ j, j ≠ d → t.fab j = s.fab j) ∧
          t = { s with mem := t.mem, parts := t.parts, fabric := t.fabric, transit := t.transit, accesses := t.accesses, replies := t.replies,
                       uce := t.uce, migs := t.migs, lines := t.lines, pages := t.pages, reveals := t.reveals, purges := t.purges,
                       trips := t.trips } ∧
          (m.done = true → t.trips = s.trips ∧ t.accesses = s.accesses ∧ t.replies = s.replies) ∧
          (m.done = false → t.trips = s.trips.map (fun x => if x.nums.contains m.num then { x with lost := true } else x) ∧
            t.accesses.length = s.accesses.length ∧ t.replies.length = s.replies.length ∧
            (∀ (i : Nat) (a : Access), s.accesses[i]? = some a → t.accesses[i]? = some (if on a.ride then { a with ride := .lost } else a)) ∧
            (∀ (i : Nat) (a : Reply), s.replies[i]? = some a → t.replies[i]? = some (if on a.ride then { a with ride := .lost } else a))) ∧
          (let told := fun p => match m.region with
            | some r => p = s.partOf r
            | none => ∃ e ∈ s.ownCore, e.1 / 16 = d ∧ e.2 = p
           ∀ p, (told p → (t.part p).log.head = (s.part p).log.head + 1) ∧ (¬ told p → t.part p = s.part p)) ∧
          (let kept := if m.done then s.transit else s.transit.filter (fun x => !on x.ride)
           (∀ r, m.region = some r → (s.region r).trapv = true → ∃ x, t.transit = kept ++ [x] ∧ x.dst = .slot (s.trapTileOf r) 63 ∧
            (x.rc.beats.headD 0).extractLsb' 0 8 = Cause.msgloss ∧
            (x.rc.beats.headD 0).extractLsb' 384 64 = BitVec.ofNat 64 (m.id + (if unknown then 2 ^ 32 else 0))) ∧
           ((∀ r, m.region = some r → (s.region r).trapv = false) → t.transit = kept) ∧
           ((∀ r, m.region = some r → (s.region r).trapv = true) → t.purges = s.purges) ∧
           (∀ r, m.region = some r → (s.region r).trapv = false → t.purges = s.purges ++
             [{ region := r, part := s.partOf r, col := m.col, rtag := m.rtag, cause := Cause.msgloss }]))
      (∀ final, s.msgAt d m.src m.cls m.id = some k →
        let o := exec (.nack d (m.src, m.cls, m.id) final) s
        let u := heard (.nack m.src m.cls m.id final)
        (final = false → m.retx = false → ∃ t, o = .next t ∧
          t = { u.setFab d { u.fab d with retxn := f.retxn + 1, msgs := setAt f.msgs k { m with retx := true, sentAt := s.now } } with
                flights := t.flights } ∧
          ∃ l, t.flights = s.flights ++ l ∧ l.map (fun x => (x.hdr, x.data)) = m.frags true ∧
            ∀ x ∈ l, x.at_ = d ∧ x.crc = fragCrc x.hdr x.data ∧ x.hdr.getLsbD 98 = true) ∧
        (final = false → m.retx = true → o = .next u) ∧
        (final = true → loses u o false)) ∧
      (m.retx = true → m.sentAt + 2 * m.decto ≤ s.now → loses s (exec (.msgloss d k) s) true) ∧
      (m.retx = false ∨ s.now < m.sentAt + 2 * m.decto → exec (.msgloss d k) s = .next s))

/-! Heat, watchdog, pre-emption, reset of a tenant, die drop and bring-up. -/

/-- spec/06 R134, R136, spec/19 R389, spec/21 R413, R425, R426, spec/22 R440: a throttle sample moves the step and halts a core or the hub die at 110
degrees; a throttled core's partition takes debt; timing replays are counted and reported at the threshold; the watchdog reports a colour once its
count has reached WDOG_TH, with the number of its waiting items, and counts afresh. The time between two steps and the replay windows follow log
entries 48 to 50. -/
def Obligations.HeatAndWatchdogEvents : Prop :=
  ∀ s : State,
    let logged := fun (t : State) (p : Nat) => (t.part p).log.head = (s.part p).log.head + 1
    let writes := fun (u t : State) => t = { u with parts := t.parts, mem := t.mem, uce := t.uce, migs := t.migs, lines := t.lines, pages := t.pages,
                                                    reveals := t.reveals }
    (∀ c a b : Nat,
      let temp := max a b
      let x := s.core c
      let may := x.stepAt = 0 ∨ x.stepAt + 21600 ≤ s.now
      let n := if ¬ may then x.step else if s.hub.throtTh ≤ temp then max 4 (x.step - 1) else if temp + 3 < s.hub.throtTh then min 16 (x.step + 1) else x.step
      (c < 64 → ∃ t, exec (.throttleSample c a b) s = .next t ∧
        t.core c = { x with temp := temp, step := n, stepAt := (if n = x.step then x.stepAt else s.now), halted := decide (110 ≤ temp) } ∧
        (∀ k, k ≠ c → t.core k = s.core k) ∧ writes { s with cores := t.cores } t ∧
        (temp < 110 ∨ x.halted = true ∨ x.region = none → t = { s with cores := t.cores }) ∧
        (∀ r, 110 ≤ temp → x.halted = false → x.region = some r → s.partOf r < 16 → logged t (s.partOf r))) ∧
      (64 ≤ c → (temp < 110 → exec (.throttleSample c a b) s = .next { s with hub := { s.hub with halted := false } }) ∧
        (110 ≤ temp → s.hub.halted = true → exec (.throttleSample c a b) s = .next s) ∧
        (110 ≤ temp → s.hub.halted = false → ∃ t, exec (.throttleSample c a b) s = .next t ∧
          writes { s with hub := { s.hub with halted := true } } t ∧ ∀ p, p < 16 → logged t p))) ∧
    (∀ c : Nat,
      let x := s.core c
      let p := s.partOf c
      ((∀ e ∈ x.throttled, e.2 < 16) → exec (.debtAccrual c) s = .next s) ∧
      (∀ n v, x.throttled.find? (fun e => 16 ≤ e.2) = some (n, v) → ∃ t, exec (.debtAccrual c) s = .next t ∧ t = { s with cores := t.cores, parts := t.parts } ∧
        t.core c = { x with throttled := (t.core c).throttled } ∧ lget 0 (t.core c).throttled n = lget 0 x.throttled n - 16 ∧
        (∀ k, k ≠ n → lget 0 (t.core c).throttled k = lget 0 x.throttled k) ∧ (∀ k, k ≠ c → t.core k = s.core k) ∧
        (p < 16 → t.part p = { s.part p with debt := min (2 ^ 40 - 1) ((s.part p).debt + (16 - n)) }) ∧
        ∀ k, (k ≠ p ∨ 16 ≤ p) → t.part k = s.part k)) ∧
    (∀ k : Nat,
      let x := s.tile k
      let n := min 65535 (x.repwin + 1)
      ∃ t, exec (.timingReplay k) s = .next t ∧ writes { s with tiles := t.tiles } t ∧
        t.tile k = { x with replayn := x.replayn + 1, repwin := (if s.hub.timingTh ≤ n then 0 else n) } ∧ (∀ j, j ≠ k → t.tile j = s.tile j) ∧
        (n < s.hub.timingTh → t = { s with tiles := t.tiles }) ∧
        (∀ r, s.hub.timingTh ≤ n → (s.core (k / 32)).region = some r → s.partOf r < 16 → logged t (s.partOf r))) ∧
    (∀ d : Nat,
      let w := (s.cycOf d).toNat / 2 ^ 20
      (w = lget 0 s.hub.windows d → exec (.replayWindowEnd d) s = .next s) ∧
      (w ≠ lget 0 s.hub.windows d → ∃ t, exec (.replayWindowEnd d) s = .next t ∧ t = { s with tiles := t.tiles, hub := { s.hub with windows := t.hub.windows } } ∧
        lget 0 t.hub.windows d = w ∧ ∀ k, t.tile k = if k / 512 = d then { s.tile k with repwin := 0 } else s.tile k)) ∧
    (∀ (r : Nat) (c : BitVec 5),
      let k := s.colour r c.toNat
      let due := s.hub.wdogTh ≠ 0 ∧ k.livea ≠ 0 ∧ s.hub.wdogTh ≤ k.wdog
      (¬ due → exec (.watchdog r c.toNat) s = .next s) ∧
      (due → ∃ t, exec (.watchdog r c.toNat) s = .next t ∧ Raises s.transit s t r (s.partOf r) Cause.watchdog ∧ t.colour r c.toNat = { k with wdog := 0 } ∧
        ((s.region r).trapv = true → ∃ x, t.transit = s.transit ++ [x] ∧
          (x.rc.beats.headD 0).extractLsb' 504 8 = BitVec.ofNat 8 (min 255 (s.waitItems r c).length) ∧
          ∀ (i : Nat) (y : WaitItem), i < 12 → (s.waitItems r c)[i]? = some y →
            (x.rc.beats.getD (1 + i / 4) 0).extractLsb' (128 * (i % 4)) 128 = BitVec.ofNat 128 y.bytes) ∧
        (∀ j, j ≠ r → t.region j = s.region j) ∧ (∀ j, j ≠ c.toNat → t.colour r j = s.colour r j) ∧
        writes { s with regions := t.regions, transit := t.transit, purges := t.purges } t))

/-- spec/21 R427 to R431, spec/14 R282, spec/07 R147, R156, spec/17 R350, spec/22 R436 to R438: pre-emption halts, saves and restores a partition; a
tenant reset freezes, and clears once the halt is complete; frames are written back to the frame heap, and boardings come back in WAITLAP; a die that
is dropped belongs to no partition and reads as zero, and a partition whose snapshot needs nothing of it runs on from there (the model's choice, log
entry 52); SNAP's word takes its status; power-on and the firmware image take the stages of bring-up. The form of what is saved and restored is the
model's choice (log entries 10, 51 to 53). -/
def Obligations.PartitionAndBringUpEvents : Prop :=
  ∀ s : State,
    (∀ p : Nat,
      let x := s.part p
      let cs := s.coresOf p
      let waked := fun (t : State) => ∀ k, t.tile k = if s.partOf (k / 32) = p then { s.tile k with gate := wakeGate (s.tile k).gate } else s.tile k
      let others := fun (t : State) => ∀ k, k ≠ p → t.part k = s.part k
      (x.phase ≠ .run → exec (.preemptionRequest p) s = .next s) ∧
      (x.phase = .run → ∃ t, exec (.preemptionRequest p) s = .next t ∧ t = { s with parts := t.parts, tiles := t.tiles } ∧
        t.part p = { x with phase := .halting } ∧ others t ∧ waked t) ∧
      (x.phase ≠ .halting ∨ x.resetting = true ∨ s.haltDone p = false → exec (.preemptionSave p) s = .next s) ∧
      (x.phase = .halting → x.resetting = false → s.haltDone p = true → ∃ t, exec (.preemptionSave p) s = .next t ∧
        let u := s.framesBack p
        let goes := fun (k : Nat) => (lget? s.frames k).isSome = true ∧ (s.frame k).alloc = true ∧ k / 4096 ∈ cs
        let areas := fun (k : Nat) => [(s.heapAddr (s.regOfTile (k / 128)) (k / 128) (k % 128), 0x800),
          (s.presenceAddr (s.regOfTile (k / 128)) (k / 128) (k % 128), 4)]
        let inn := fun (y : Nat) (i : Nat × Nat) => i.1 ≤ y ∧ y < i.1 + i.2
        t.part p = { x with phase := .saved, save := some (u.savePart p) } ∧ others t ∧ t.mem = u.mem ∧ t.fe = s.fe ∧
        ((s.frames.map (·.1)).Nodup → (∀ k, u.frame k = if goes k then { s.frame k with inHeap := true } else s.frame k) ∧
          ((∀ y, s.forward y = y) →
            (∀ y, (∀ k, goes k → (s.frame k).inHeap = false → ∀ i ∈ areas k, ¬ inn y i) → mget u.mem y = mget s.mem y) ∧
            ((∀ k j : Nat, goes k → goes j → ∀ i ∈ areas k, ∀ l ∈ areas j, i ≠ l → i.1 + i.2 ≤ l.1 ∨ l.1 + l.2 ≤ i.1) →
             (∀ k j : Nat, goes k → goes j → k ≠ j → ∀ i ∈ areas k, i ∉ areas j) → ∀ k, goes k → (s.frame k).inHeap = false →
              ∀ i, i < 0x800 → mget u.mem (s.heapAddr (s.regOfTile (k / 128)) (k / 128) (k % 128) + i) =
                mget s.tmem (k / 128 * 0x80000 + k % 128 * 0x800 + i)))) ∧
        (∀ k, k / 128 ∈ cs → t.ctx k = {}) ∧ (∀ k, k / 128 ∉ cs → t.ctx k = s.ctx k) ∧ (∀ k, k / 4096 ∈ cs → t.frame k = {}) ∧
        (∀ k, k / 4096 ∉ cs → t.frame k = s.frame k) ∧ (∀ k, k / 32 ∈ cs → t.tile k = { replayn := (s.tile k).replayn, repwin := (s.tile k).repwin }) ∧ (∀ k, k / 32 ∉ cs → t.tile k = s.tile k) ∧
        (∀ a, a / 0x1000000 ∈ cs → mget t.tmem a = 0) ∧ (∀ a, a / 0x1000000 ∉ cs → mget t.tmem a = mget s.tmem a) ∧
        (∀ c, (t.core c).step = (s.core c).step ∧ (t.core c).temp = (s.core c).temp ∧ (t.core c).halted = (s.core c).halted ∧
          (t.core c).throttled = (s.core c).throttled) ∧
        (∀ a ∈ t.accesses, a.part ≠ p) ∧ (∀ a ∈ t.trips, a.part ≠ p) ∧ ∀ y ∈ t.transit, State.destCore y.dst ∉ cs) ∧
      (x.phase ≠ .saved ∨ x.save = none → exec (.preemptionRestore p) s = .next s) ∧
      (∀ v, x.phase = .saved → x.save = some v → ∃ t, exec (.preemptionRestore p) s = .next t ∧ t.part p = { x with phase := .run, save := none } ∧ others t ∧
        t.mem = s.mem ∧ t.fe = s.fe ∧ t.accesses = s.accesses ++ v.accesses ∧ t.transit = s.transit ++ v.transit ∧ t.trips = s.trips ++ v.trips ∧
        let pinned := fun (f : Frame) => f.cont = .trapped ∨ f.lateMark = true
        (∀ c, (t.core c).step = (s.core c).step ∧ (t.core c).temp = (s.core c).temp ∧ (t.core c).halted = (s.core c).halted) ∧
        (v.tiles.Pairwise (fun a b => a.1 < b.1) → ∀ e ∈ v.tiles, (t.tile e.1).wake = e.2.wake ∧ (t.tile e.1).tlb = [] ∧
          (t.tile e.1).gate = (if e.2.wake = [] then .awake else .waking 0)) ∧
        (v.ctxs.Pairwise (fun a b => a.1 < b.1) → ∀ e ∈ v.ctxs, t.ctx e.1 = e.2) ∧
        (v.tmem.Pairwise (fun a b => a.1 < b.1) → (∀ e ∈ v.frames, ¬ pinned e.2) → ∀ e ∈ v.tmem, mget t.tmem e.1 = e.2) ∧
        (v.frames.Pairwise (fun a b => a.1 < b.1) → ∀ e ∈ v.frames, ∃ h, t.frame e.1 = { (if e.2.cont = .parked ∧ e.2.wait = .restore then
            (if e.2.lateMark then { e.2 with removed := true }
             else { e.2 with cont := .runnable, wait := .nothing, readyAt := s.clkOf (e.1 / 4096), promoted := none }) else e.2) with inHeap := h } ∧
          (¬ pinned e.2 → h = e.2.inHeap) ∧ (e.2.inHeap = false → h = false)) ∧
        (v.cores.Pairwise (fun a b => a.1 < b.1) → ∀ e ∈ v.cores, ∀ num b, lget? e.2.boards num = some b →
          ∃ b2, lget? (t.core e.1).boards num = some b2 ∧ b2.st = .waitlap ∧ b2.boards = s.beforeLead b.word ∧ b2.accepted = false ∧ b2.due = false ∧
            b2.word = b.word ∧ (b.st ≠ .done → b2.slice < b.slice ∨ (b2.slice = b.slice ∧ b2.kblk ≤ b.kblk)))) ∧
      (x.resetting = false → ∃ t, exec (.tenantReset p) s = .next t ∧ t = { s with parts := t.parts, tiles := t.tiles } ∧ others t ∧ waked t ∧
        t.part p = { x with wholeFrozen := true, resetting := true, phase := (if x.phase = .run then .halting else x.phase) }) ∧
      (x.resetting = true → x.phase = .halting → s.haltDone p = false → exec (.tenantReset p) s = .next s) ∧
      (x.resetting = true → x.phase ≠ .halting ∨ s.haltDone p = true → ∃ t, exec (.tenantReset p) s = .next t ∧ others t ∧
        (∀ c ∈ cs, ∀ i, i < 0x800000 → mget t.mem (scratchPa c 0 + i) = 0) ∧
        (∀ n ∈ s.slicesOf p, ∀ i, i < 0x100000000 → mget t.mem (n * 0x100000000 + i) = 0) ∧
        (∀ n ∈ s.sramsOf p, ∀ i, i < 0x4000000 → mget t.mem (sramPa (n / 32) (n % 32 * 0x4000000) + i) = 0) ∧
        (∀ k, k / 128 ∈ cs → t.ctx k = {}) ∧ (∀ k, k / 4096 ∈ cs → t.frame k = {}) ∧ (∀ k, k / 32 ∈ cs → t.tile k = { replayn := (s.tile k).replayn, repwin := (s.tile k).repwin }) ∧
        (∀ k ∈ cs, t.region k = {}) ∧ (∀ q, q.1 % 16 = p → q ∉ t.hub.queues) ∧
        (let y := t.part p
         y.phase = .run ∧ y.resetting = false ∧ y.wholeFrozen = false ∧ y.save = none ∧ y.snap = none ∧ y.rpt.head = 0 ∧ y.rpt.tail = 0 ∧ y.rpt.lost = 0 ∧
           y.log.head = 0 ∧ y.log.tail = 0 ∧ y.log.lost = 0)) ∧
      (∀ st : BitVec 8, (x.snap = none → exec (.snapEnd p st) s = .next s) ∧
        (∀ tag pa, x.snap = some (tag, pa) → pa % 4 = 0 → s.anyWord pa 4 2 = false → s.anyWord pa 4 3 = false → s.hwBad pa 4 = false →
          ∃ u t, exec (.snapEnd p st) s = .next t ∧ Woken u t ∧ Stored s.mem u.mem (s.forward pa) 4 (tag.toNat + st.toNat * 256) ∧ u.feOf pa = 1 ∧
            (∀ w, w / 4 ≠ pa / 4 → u.feOf w = s.feOf w) ∧ u.part p = { x with snap := none } ∧ others u) ∧
        (∀ tag pa, x.snap = some (tag, pa) → s.anyWord pa 4 2 = true ∨ s.anyWord pa 4 3 = true ∨ s.hwBad pa 4 = true →
          exec (.snapEnd p st) s = .next (s.setPart p { x with snap := none })))) ∧
    (∀ d : Nat, (4 ≤ d ∨ d ∈ s.dropped → exec (.dieDrop d) s = .next s) ∧
      (d < 4 → d ∉ s.dropped → ∃ t, exec (.dieDrop d) s = .next t ∧ t.dropped = s.dropped ++ [d] ∧ (∀ a, homeDie a = d → mget t.mem a = 0) ∧
        (∀ c, lget? t.ownCore c = if c / 16 = d then none else lget? s.ownCore c) ∧
        (∀ c, lget? t.ownSlice c = if c / 32 = d then none else lget? s.ownSlice c) ∧
        (∀ c, lget? t.ownSram c = if c / 32 = d then none else lget? s.ownSram c) ∧
        t.ring.images = [] ∧ t.ring.running = false ∧ (∀ k, (t.fab k).spray = []) ∧
        ∀ p, p < 16 → (∀ j, j < 16 → j ≠ p → (s.part j).snapped = none) →
          (s.fitsWithout p d = false → ∀ k, k / 128 ∈ s.coresOf p → t.ctx k = {}) ∧
          (∀ v, s.fitsWithout p d = true → (s.part p).snapped = some v →
            (v.ctxs.Pairwise (fun a b => a.1 < b.1) → ∀ e ∈ v.ctxs, t.ctx e.1 = e.2) ∧
            (v.regions.Pairwise (fun a b => a.1 < b.1) → ∀ e ∈ v.regions, t.region e.1 = e.2) ∧
            ((s.part p).snapshot.Pairwise (fun a b => a.1 < b.1) → ∀ e ∈ (s.part p).snapshot, homeDie e.1 ≠ d → mget t.mem e.1 = e.2)))) ∧
    (∀ (v : BitVec 16) (ok : Bool), ∃ t, exec (.powerOn v ok) s = .next t ∧ t = { State.reset with agenda := s.agenda, hub := t.hub } ∧
      t.hub.bootport = (if 11 < (v.extractLsb' 0 4).toNat then 0 else (v.extractLsb' 0 4).toNat) ∧ t.hub.devnum = (v.extractLsb' 4 12).toNat ∧
      t.hub.ready = false ∧ t.hub.railerr = !ok ∧ t.hub.stage = (if ok then 2 else 1) ∧
      (∀ i, i < 12 → (t.hub.portup.getLsbD i = true ↔ ok = true ∧ i = t.hub.bootport)) ∧
      t.hub = { State.reset.hub with bootport := t.hub.bootport, devnum := t.hub.devnum, railerr := !ok, stage := t.hub.stage, portup := t.hub.portup }) ∧
    (∀ sig : Bool, (s.hub.stage ≠ 2 ∨ sig = false → exec (.policyFirmwareImage sig) s = .next s) ∧
      (s.hub.stage = 2 → sig = true → exec (.policyFirmwareImage sig) s =
        .next { State.reset with agenda := s.agenda, hub := { s.hub with stage := 5, portup := 0xFFF, ready := true } }))

/-! The weight ring. -/

/-- spec/07 R137 to R155, spec/18 R364: laps, tile heads at a port, the check of an accepted tile, holds and underruns. A station that is late between
tile boundaries stops the lanes and is counted at the next one. That AUTOHOLD asks once for each head that would miss, and that a boarding that takes
a tile is served, are the model's choice (log entry 47). The order of the ring's events within a lap is the model's choice (log entry 47). -/
def Obligations.RingEvents : Prop :=
  ∀ s : State,
    let r := s.ring
    let onlyRing := fun (o : Outcome) (x : RingSt) => o = .next { s with ring := x }
    (s.lapOver = false → exec .lapBoundary s = .next s) ∧
    (r.running = false → s.enabledEntries = [] → r.pending = [] → exec .lapBoundary s = .next s) ∧
    (s.lapOver = true → (r.running = true ∨ s.enabledEntries ≠ [] ∨ r.pending ≠ []) →
      ∃ t, exec .lapBoundary s = .next t ∧ t.ring.pending = [] ∧
        (r.pending.Pairwise (fun a b => a.1 < b.1) → ∀ e, t.image e = (lget? r.pending e).getD (s.image e)) ∧
        (t.enabledEntries = [] → t.ring.running = false) ∧
        (∀ k, ((r.running = true ∧ k ∈ t.enabledEntries ∧ r.cur < k ∧ ∀ j ∈ t.enabledEntries, r.cur < j → k ≤ j) ∨
            ((r.running = false ∨ ∀ j ∈ t.enabledEntries, j ≤ r.cur) ∧ t.enabledEntries.head? = some k)) →
          t.ring.running = true ∧ t.ring.cur = k ∧ t.ring.pos = 0 ∧ lget 0 t.ring.lapn k = lget 0 r.lapn k + 1 ∧
          lget 256 t.ring.holdLeft k = lget 256 r.holdb k ∧ (∀ c, (t.core c).seen = 0) ∧
          t.ring.paceEff = max r.minPace (min r.pace (if r.running = true ∧ r.lapUnder = false then min r.pace (r.paceEff + 1) else r.paceEff))) ∧
        (∀ c num b, r.running = true → lget? (s.core c).boards num = some b → State.boardLive b = true → bwImage b.word = r.cur → b.due = true →
          b.accepted = false → b.frozenLap = false → ∃ b2, lget? (t.core c).boards num = some b2 ∧ b2.mlaps = b.mlaps + 1 ∧
            (bwMissn b.word ≤ b.mlaps + 1 → b2.st = .faulted ∧ b2.cause = Cause.missed) ∧ (b.mlaps + 1 < bwMissn b.word → b2.st = b.st)) ∧
        (∀ c num b, r.running = true → lget? (s.core c).boards num = some b →
          State.boardLive b = false ∨ bwImage b.word ≠ r.cur ∨ b.due = false ∨ b.accepted = true ∨ b.frozenLap = true →
          ∃ b2, lget? (t.core c).boards num = some b2 ∧ b2.mlaps = b.mlaps ∧ b2.st = b.st) ∧
        (t.ring.running = true → ∀ c num b2, lget? (t.core c).boards num = some b2 →
          (b2.frozenLap = true ↔ bwImage b2.word = t.ring.cur ∧ s.isFrozen b2.region b2.col = true))) ∧
    (∀ c n : Nat,
      let e := s.image r.cur
      let h := s.tileHdr e n
      let y := s.core c
      let w : RowAt := if n % 16 = 0 ∨ y.row = none then s.rowAt c else y.row.getD {}
      let y1 : Core := { y with row := some w }
      let o := exec (.tileHeadArrival c n) s
      let there := r.running = true ∧ n = y.seen ∧ n < riTiles e ∧ 544 * (n / 16) ≤ r.pos
      let passes := o = .next (s.setCore c { y1 with seen := n + 1 })
      (¬ there → o = .next s) ∧
      (there → y.boards = [] → passes) ∧
      (∀ num b, there → y.boards = [(num, b)] →
        let id := c * 16 + num
        let row := n / 16
        let takes := State.boardLive b = true ∧ b.boards = true ∧ bwImage b.word = r.cur ∧ State.thImage h = r.cur ∧ State.thLayer h = bwLayer b.word
        let early := State.thSlice h < b.slice ∨ (State.thSlice h = b.slice ∧ State.thKblk h < b.kblk)
        let due := State.thSlice h = b.slice ∧ State.thKblk h = b.kblk
        let sound := State.thCorrupt h = false ∧ s.hasUce (State.tilePa e n) 17408 = false
        let asks := bwAuto b.word = true ∧ (id, n) ∉ r.asked ∧ r.left ≠ 0
        let waits := r.hold ≠ none ∨ asks ∨
          (r.want ≠ [] ∧ r.left ≠ 0 ∧ ((∃ x ∈ r.want, x.1 = id) ∨ (r.pos = 544 * row ∧ r.edge (r.heldAt == some r.pos) = r.pos)))
        let b1 : Boarding := { b with st := .waitlap, boards := false, due := true, again := false, missw := min 65535 (b.missw + 1) }
        let missed := o = .next (s.setCore c { y1 with seen := n + 1, boards := lset y.boards num b1 })
        (¬ takes ∨ early → passes) ∧
        (takes → ¬ early → ¬ due → missed) ∧
        (takes → due → ¬ sound → ∃ t b2, o = .next t ∧ lget? (t.core c).boards num = some b2 ∧ b2.st = .faulted ∧ b2.cause = Cause.corruptTile ∧
          (t.core c).seen = n + 1 ∧ Raises s.transit s t b.region (s.partOf c) Cause.corruptTile) ∧
        (takes → due → sound → State.freeBSlot w b = none → ¬ waits → missed) ∧
        (takes → due → sound → State.freeBSlot w b = none → waits → ∃ g,
          let z : Core := { y with row := none, boards := lset y.boards num { b with st := .active, due := true } }
          o = .next { s.setCore c z with ring := g } ∧
          (¬ asks → g = r) ∧
          (∀ m, asks → r.hold = some m → g = { r with asked := (id, n) :: r.asked, hold := some (max m 34), holders := id :: r.holders.filter (· ≠ id) }) ∧
          (asks → r.hold = none → g = { r with asked := (id, n) :: r.asked, want := r.want ++ [(id, 34)] })) ∧
        (∀ k, takes → due → sound → State.freeBSlot w b = some k → ∃ t a b2, o = .next t ∧ (t.core c).seen = n + 1 ∧
          t.ring = (if r.hold = none then r else { r with holders := r.holders.filter (· ≠ id) }) ∧
          (t.core c).arriving = y.arriving ++ [a] ∧ a.isl = bwIsl b.word ∧ a.slot = k ∧ a.tile = n ∧ a.board = num ∧ a.gen = lget 0 y.boardGen num ∧
          a.slice = b.slice ∧ a.kblk = b.kblk ∧ a.void = false ∧
          (t.core c).row = some { slots := w.slots.filter (fun x => ¬(x.1 = bwIsl b.word ∧ x.2.1 = k)), writing := bwIsl b.word :: w.writing } ∧
          lget {} (t.island c (bwIsl b.word)).bSlots k = { writing := true } ∧ lget? (t.core c).boards num = some b2 ∧
          b2 = { b with st := (if a.last then .done else .active), accepted := true, due := true, mlaps := 0, again := false, slice := b2.slice, kblk := b2.kblk } ∧
          (a.last = true ↔ State.thLastk h = true ∧ bwSlice b.word + (if bwPair b.word then 1 else 0) ≤ b.slice) ∧
          (a.last = true → b2.slice = b.slice ∧ b2.kblk = b.kblk) ∧
          (a.last = false → (State.thLastk h = true → b2.slice = b.slice + 1 ∧ b2.kblk = 0) ∧ (State.thLastk h = false → b2.slice = b.slice ∧ b2.kblk = b.kblk + 1)) ∧
          (t.colour b.region b.col.toNat).wdog = 0))) ∧
    (∀ (c k : Nat) (a : Arrival) (damaged : Bool), (s.core c).arriving[k]? = some a →
      let y := s.core c
      let o := exec (.tileCrcCheck c k damaged) s
      let wait := (∃ x ∈ y.arriving, x.tile < a.tile) ∨ r.pos < 544 * (a.tile / 16 + 1)
      let pa := State.tilePa (s.image r.cur) a.tile
      let h := s.tileHdr (s.image r.cur) a.tile
      let ok := damaged = false ∧ s.tileCrcOk pa = true
      let slotOf := fun (t : State) => lget {} (t.island c a.isl).bSlots a.slot
      let others := fun (p : Arrival → Prop) => ∀ (j : Nat) (x : Arrival), y.arriving[j]? = some x → x.tile = a.tile → j ≠ k → p x
      (wait → o = .next s) ∧
      (¬ wait → ∃ t, o = .next t ∧ t = { s with cores := t.cores, ring := { r with corrt := t.ring.corrt } } ∧ (∀ j, j ≠ c → t.core j = s.core j) ∧
        (ok → t.ring = r ∧ (t.core c).boards = y.boards ∧ (t.core c).arriving = y.arriving.filter (fun x => x.tile ≠ a.tile)) ∧
        (¬ ok → lget 0 t.ring.corrt c = lget 0 r.corrt c + 1 ∧ (∀ j, j ≠ c → lget 0 t.ring.corrt j = lget 0 r.corrt j) ∧
          (t.core c).arriving.length = (y.arriving.filter (fun x => x.tile ≠ a.tile)).length ∧
          ∀ (j : Nat) (x : Arrival), (y.arriving.filter (fun x => x.tile ≠ a.tile))[j]? = some x →
            ((∃ z ∈ y.arriving, z.tile = a.tile ∧ z.board = x.board ∧ z.gen = x.gen) → (t.core c).arriving[j]? = some { x with void := true }) ∧
            ((∀ z ∈ y.arriving, z.tile = a.tile → ¬(z.board = x.board ∧ z.gen = x.gen)) → (t.core c).arriving[j]? = some x)) ∧
        (others (fun x => ¬(x.isl = a.isl ∧ x.slot = a.slot)) →
          (a.void = true ∨ ¬ ok → slotOf t = {}) ∧
          (a.void = false → ok → (slotOf t).tag = some (State.thImage h, State.thLayer h, State.thSlice h, State.thKblk h) ∧
            (slotOf t).consumed = false ∧ (slotOf t).writing = false ∧
            ∀ i, i < 16896 → lget 0 (slotOf t).data i = mget s.mem (s.forward (pa + 512 + i)))) ∧
        (others (fun x => x.board ≠ a.board) → ∀ b, ¬ ok → a.void = false → lget? y.boards a.board = some b →
          (lget 0 y.boardGen a.board = a.gen → b.st ≠ .faulted →
            lget? (t.core c).boards a.board = some { b with st := .waitlap, boards := false, slice := a.slice, kblk := a.kblk }) ∧
          (lget 0 y.boardGen a.board ≠ a.gen ∨ b.st = .faulted → lget? (t.core c).boards a.board = some b)))) ∧
    (let o := exec .ringHold s
     let none_ := r.running = false ∨ r.left = 0
     let edge := r.edge (r.heldAt == some r.pos) = r.pos
     (r.hold.isSome = true ∨ r.want = [] → o = .next s) ∧ (r.hold = none → r.want ≠ [] → none_ → onlyRing o { r with want := [] }) ∧
     (r.hold = none → r.want ≠ [] → ¬ none_ → ¬ edge → o = .next s) ∧
     (r.hold = none → r.want ≠ [] → ¬ none_ → edge → ∃ n, onlyRing o { r with hold := some n, holders := r.want.map (·.1), want := [] } ∧
       (∃ w ∈ r.want, w.2 = n) ∧ ∀ w ∈ r.want, w.2 ≤ n)) ∧
    (let o := exec .holdExpiry s
     let served := ∀ w ∈ r.holders, ∀ b, lget? (s.core (w / 16)).boards (w % 16) = some b → State.boardLive b = true →
       (State.freeBSlot (s.rowAt (w / 16)) b).isSome = true
     (r.hold = none → o = .next s) ∧
     (∀ n, r.hold = some n → (n = 0 ∨ r.left = 0 ∨ served → onlyRing o { r with hold := none, holders := [], heldAt := some r.pos }) ∧
       (¬(n = 0 ∨ r.left = 0 ∨ served) → o = .next s))) ∧
    (∀ k : Nat, (r.running = false ∨ 16 ≤ k ∨ k ∈ r.stalled ∨ k ∈ r.late → exec (.underrun k) s = .next s) ∧
      (r.running = true → k < 16 → k ∉ r.stalled → k ∉ r.late → r.pos % 544 ≠ 0 → onlyRing (exec (.underrun k) s) { r with late := k :: r.late }) ∧
      (r.running = true → k < 16 → k ∉ r.stalled → k ∉ r.late → r.pos % 544 = 0 → ∃ m, let p := max r.minPace (max r.minPace (min r.pace r.paceEff) - 1)
        onlyRing (exec (.underrun k) s) { r with under := m, lapUnder := true, stalled := k :: r.stalled, paceEff := p } ∧
        lget 0 m k = lget 0 r.under k + 1 ∧ ∀ j, j ≠ k → lget 0 m j = lget 0 r.under j))

/-! The host's queues and accesses, and March. -/

/-- spec/16 R323 to R328, spec/22 R432, R433, R435, spec/05 R117: what the ports serve: doorbells, mapping and unmapping of queues, the read of one
queue entry, host reads and writes, host atomics. A packet that is dropped is counted at its port, and has no other effect. spec/06 R119 to R124,
spec/08 R162, spec/21 R427: a die's report leaves for March, and March learns from it once it is delivered; with one launch waiting that can be
placed, March places it at the region it chooses and charges its partition: its debt, or its deficit after its share; else the deficit rises by the
share. A share of 0 is never placed but against a debt; a launch with no candidate completes with CFG; those of a partition that is halted or saved
are held, and a saved one's regions still count as candidates; a halted hub places nothing. The cap of a deficit, and the checks of a launch, follow
log entries 18, 44 to 46. -/
def Obligations.HostAndMarchEvents : Prop :=
  (∀ s : State,
     let isSet := fun (x y : BitVec 512) (lo len v : Nat) => ∀ i, i < 512 → y.getLsbD i = if lo ≤ i ∧ i < lo + len then v.testBit (i - lo) else x.getLsbD i
     let checked := fun (o : Outcome) (q : Nat) (d : BitVec 512) (mapped : Bool) =>
       (s.queueOk d = true → ∃ y, isSet d y 160 2 1 ∧ o = .next (s.setQueue q { desc := y, mapped := mapped })) ∧
       (s.queueOk d = false → ∃ t y, o = .next t ∧ isSet d y 160 2 2 ∧ t.queue q = { desc := y, mapped := mapped } ∧
         (t.part (qdPart d)).log.head = (s.part (qdPart d)).log.head + 1 ∧
         t = { s with queues := t.queues, parts := t.parts, mem := t.mem, uce := t.uce, migs := t.migs, lines := t.lines, pages := t.pages,
                      reveals := t.reveals } ∧
         ∀ j, j ≠ q → t.queue j = s.queue j)
     (∀ (k : Packet) (data : Word),
       let q := k.ep.toNat - 1
       let x := s.queue q
       let dropped := k.mode ≠ .reliable ∨ (s.hub.ready = false ∧ ¬(k.ep = 0 ∧ k.port = s.hub.bootport)) ∨ (0x400 < k.ep.toNat ∧ k.ep ≠ 0x8000)
       let counted := fun (o : Outcome) => ∃ t, o = .next t ∧ t = { s with hub := { s.hub with portdrop := t.hub.portdrop } } ∧
         ∀ p, lget 0 t.hub.portdrop p = lget 0 s.hub.portdrop p + (if p = k.port then 1 else 0)
       let all := fun (P : Outcome → Prop) => P (exec (.doorbell k data) s) ∧ (∀ g a, P (exec (.hostReadWrite k g a) s)) ∧
         ∀ g op wide a b, P (exec (.hostAtomic k g op wide a b) s)
       (s.hub.halted = true → all (fun o => o = .next s)) ∧
       (s.hub.halted = false → dropped → all counted) ∧
       (s.hub.halted = false → ¬ dropped → (k.ep = 0 ∨ k.ep = 0x8000) → all (fun o => o = .next s)) ∧
       (s.hub.halted = false → ¬ dropped → k.ep ≠ 0 → k.ep ≠ 0x8000 →
         let o := exec (.doorbell k data) s
         (data.extractLsb' 17 47 ≠ 0 → counted o) ∧
         (data.extractLsb' 17 47 = 0 → x.mapped = false → ∃ y, isSet x.desc y 162 1 1 ∧ o = .next (s.setQueue q { desc := y, mapped := false })) ∧
         (data.extractLsb' 17 47 = 0 → x.mapped = true → qdState x.desc = 2 → o = .next s) ∧
         (data.extractLsb' 17 47 = 0 → x.mapped = true → qdState x.desc ≠ 2 → ∃ d, isSet x.desc d 128 17 data.toNat ∧ checked o q d true) ∧
         (let v := qdVmid x.desc
          let p := qdPart x.desc
          let replies := fun (u : State) (status : BitVec 8) (bs : List Byte) => (Host.Outcome.next { u with answers := u.answers ++ [(k.ep.toNat, status, bs)] } : Outcome)
          (qdState x.desc = 2 → (∀ g a, exec (.hostReadWrite k g a) s = .next s) ∧ ∀ g op wide a b, exec (.hostAtomic k g op wide a b) s = .next s) ∧
          (∀ (g : Word) (n : Nat), qdState x.desc ≠ 2 →
            (∀ c, State.hostPieces v p false (State.pagePieces g.toNat n) [] s = .error c → exec (.hostReadWrite k g (.read n)) s = replies s c []) ∧
            (∀ ps u, State.hostPieces v p false (State.pagePieces g.toNat n) [] s = .ok (ps, u) →
              ((∃ i ∈ ps, u.hasUce i.1 i.2.1 = true) → exec (.hostReadWrite k g (.read n)) s = replies u Cause.uce []) ∧
              ((∀ i ∈ ps, u.hasUce i.1 i.2.1 = false) → ∃ t, exec (.hostReadWrite k g (.read n)) s =
                replies t 0 (ps.flatMap (fun i => (List.range i.2.1).map (fun j => mget u.mem (u.forward i.1 + j)))) ∧
                t = { u with lines := t.lines, pages := t.pages, reveals := t.reveals }))) ∧
          (∀ (g : Word) (bs : List Byte), qdState x.desc ≠ 2 →
            (∀ c, State.hostPieces v p true (State.pagePieces g.toNat bs.length) [] s = .error c → exec (.hostReadWrite k g (.write bs)) s = replies s c []) ∧
            (∀ ps u, State.hostPieces v p true (State.pagePieces g.toNat bs.length) [] s = .ok (ps, u) →
              ∃ t, exec (.hostReadWrite k g (.write bs)) s = .next t ∧ t.answers = u.answers ++ [(k.ep.toNat, 0, [])] ∧
                (∀ a, (∀ i ∈ ps, a < u.forward i.1 ∨ u.forward i.1 + i.2.1 ≤ a) → mget t.mem a = mget u.mem a) ∧
                (∀ pa nc, ps = [(pa, bs.length, nc)] → ∀ i, i < bs.length → bs[i]? = some (mget t.mem (u.forward pa + i))) ∧
                t = { u with mem := t.mem, answers := t.answers, uce := t.uce, migs := t.migs, lines := t.lines, pages := t.pages,
                             reveals := t.reveals })) ∧
          (∀ (g : Word) (op : AtomOp) (wide : Bool) (a b : Word), qdState x.desc ≠ 2 →
            let n := if wide then 8 else 4
            let o2 := exec (.hostAtomic k g op wide a b) s
            let at_ := s.xlateEng 4 v 0 g.toNat false
            (∀ c, at_ = .error c → o2 = replies s c []) ∧
            (∀ e0 pa0 u0, at_ = .ok (e0, pa0, u0) →
              (e0.sysatom = false → o2 = replies s Cause.notSysatom []) ∧
              (e0.sysatom = true → g.toNat % n ≠ 0 → o2 = replies s Cause.align []) ∧
              (∀ c, e0.sysatom = true → g.toNat % n = 0 → s.hostXlate v p g.toNat n true = .error c → o2 = replies s c []) ∧
              (∀ e pa u, e0.sysatom = true → g.toNat % n = 0 → s.hostXlate v p g.toNat n true = .ok (e, pa, u) →
                (u.hasUce pa n = true → o2 = replies u Cause.uce []) ∧
                (u.hasUce pa n = false →
                  let dst := u.forward pa
                  let old := mread u.mem dst n
                  let cmp := b.toNat % 2 ^ (8 * n)
                  ∃ t, o2 = .next t ∧ t.answers = u.answers ++ [(k.ep.toNat, 0, toBytes n old)] ∧
                    t = { u with mem := t.mem, answers := t.answers, uce := t.uce, migs := t.migs, lines := t.lines, pages := t.pages,
                                 reveals := t.reveals } ∧
                    (atomWrites op old cmp = true → Stored u.mem t.mem dst n (atomResult op n old (a.toNat % 2 ^ (8 * n)) cmp)) ∧
                    (atomWrites op old cmp = false → t.mem = u.mem)))))))) ∧
     (∀ (q : Nat) (desc : Option (BitVec 512)), 1024 ≤ q → exec (.queueMap q desc) s = .next s) ∧
     (∀ (q : Nat) (desc : Option (BitVec 512)), q < 1024 →
       let x := s.queue q
       let src := desc.getD x.desc
       let o := exec (.queueMap q desc) s
       (qdState x.desc = 2 → x.mapped = true → o = .next s) ∧
       ∃ d : BitVec 512, (∀ i, i < 512 → d.getLsbD i = ((if 96 ≤ i ∧ i < 113 then x.desc else src).getLsbD i && decide ((12 ≤ i ∧ i < 56) ∨ (64 ≤ i ∧ i < 69) ∨
           (96 ≤ i ∧ i < 113) ∨ (128 ≤ i ∧ i < 145) ∨ (160 ≤ i ∧ i < 162) ∨ (168 ≤ i ∧ i < 180)))) ∧
         (qdState x.desc = 2 → x.mapped = false → desc = none → o = .next (s.setQueue q { desc := d, mapped := true })) ∧
         (qdState x.desc ≠ 2 ∨ (x.mapped = false ∧ desc.isSome = true) → checked o q d true)) ∧
     (∀ q : Nat,
       let x := s.queue q
       let d := x.desc
       let o := exec (.queueUnmap q) s
       (x.mapped = false → o = .next s) ∧
       (x.mapped = true → qdState d = 2 → o = .next (s.setQueue q { desc := d, mapped := false })) ∧
       (x.mapped = true → qdState d ≠ 2 → ∃ y, isSet d y 160 2 0 ∧ o = .next (s.setQueue q { desc := y, mapped := false })) ∧
       (let o := exec (.commandQueueRead q) s
        let ready := s.hub.halted = false ∧ s.hub.ready = true ∧ x.mapped = true ∧ qdState d = 1 ∧ qdRd d ≠ qdWr d
        let fails := ∃ t y, o = .next t ∧ isSet d y 160 2 2 ∧ t.queue q = { x with desc := y } ∧
          (t.part (qdPart d)).log.head = (s.part (qdPart d)).log.head + 1
        let at_ := s.xlateEng 4 (qdVmid d) 0 (qdBase d + qdRd d % qdSize d * 256) false
        (¬ ready → o = .next s) ∧ (∀ c, ready → at_ = .error c → fails) ∧
        (∀ e pa u, ready → at_ = .ok (e, pa, u) → (u.hasUce (u.forward pa) 256 = true → fails) ∧
          (u.hasUce (u.forward pa) 256 = false →
            let v := mread u.mem (u.forward (u.forward pa)) 256
            let l := launchOf v (qdPart d) (qdVmid d)
            ∃ t y, o = .next t ∧ isSet d y 96 17 ((qdRd d + 1) % (2 * qdSize d)) ∧ t.queue q = { x with desc := y } ∧ (∀ j, j ≠ q → t.queue j = s.queue j) ∧
              (launchWordOk v = true ∧ (u.judged (qdPart d)).launchOk l = true → t.mem = u.mem ∧ t.hub.nextLaunch = s.hub.nextLaunch + 1 ∧
                t.marchQueue l.cls (qdPart d) = s.marchQueue l.cls (qdPart d) ++ [{ l with id := s.hub.nextLaunch }]) ∧
              (¬(launchWordOk v = true ∧ (u.judged (qdPart d)).launchOk l = true) → t.hub = s.hub)))))) ∧
  (∀ s : State,
     (s.hub.halted = true → exec .marchPlacement s = .next s) ∧
     (s.hub.halted = false → (∀ k p, k < 4 → p < 16 → s.marchQueue k p = []) → exec .marchPlacement s = .next s) ∧
     (∀ k p l, k < 4 → p < 16 → s.hub.halted = false → s.marchQueue k p = [l] → (∀ i j, i < 4 → j < 16 → (i, j) ≠ (k, p) → s.marchQueue i j = []) →
       ((s.judged p).candidates l = [] → exec .marchPlacement s = .next ((s.setMarchQueue k p []).complete l Cause.cfg 0)) ∧
       ((s.judged p).candidates l ≠ [] → (s.part p).phase ≠ .run → exec .marchPlacement s = .next s)) ∧
     (∀ k p l r, k < 4 → p < 16 → s.hub.halted = false → s.marchQueue k p = [l] → (∀ i j, i < 4 → j < 16 → (i, j) ≠ (k, p) → s.marchQueue i j = []) →
       s.headChoice k p = some (l, r) →
       let cost := max 1 l.cost
       let have_ := min (2 ^ 31 - 1) (lget 0 (s.part p).deficit k + ((s.part p).share : Int))
       ∃ t, exec .marchPlacement s = .next t ∧
         t = { s with hub := { s.hub with queues := t.hub.queues, ptr := t.hub.ptr, live := t.hub.live, reports := t.hub.reports }, regions := t.regions,
                      parts := t.parts } ∧
         lget 0 t.hub.ptr k = (lget 0 s.hub.ptr k + 1) % 16 ∧
         (let placed := t.marchQueue k p = [] ∧ t.region r = { s.region r with launches := (s.region r).launches ++ [l] } ∧
            (∀ q, q ≠ r → t.region q = s.region q) ∧ lget 0 t.hub.live (r * 32 + l.col.toNat) = lget 0 s.hub.live (r * 32 + l.col.toNat) + 1
          ((s.part p).debt ≠ 0 → placed ∧ (t.part p).debt = (s.part p).debt - cost * 1024 ∧ lget 0 (t.part p).deficit k = 0) ∧
          ((s.part p).debt = 0 → (s.part p).share ≠ 0 → (cost : Int) ≤ have_ → placed ∧ (t.part p).debt = 0 ∧ lget 0 (t.part p).deficit k = have_ - cost) ∧
          ((s.part p).debt = 0 → (s.part p).share ≠ 0 → have_ < cost → t.marchQueue k p = [l] ∧ t.regions = s.regions ∧ lget 0 (t.part p).deficit k = have_) ∧
          ((s.part p).debt = 0 → (s.part p).share = 0 → t.marchQueue k p = [l] ∧ t.regions = s.regions ∧ t.part p = s.part p))) ∧
     (∀ k p l r, s.headChoice k p = some (l, r) → r ∈ s.candidates l ∧ s.placeable l r = true ∧ r ∉ (s.part l.part).avoid ∧
       ∀ q ∈ s.candidates l, s.placeable l q = true → q ∉ (s.part l.part).avoid → s.hottest r ≤ s.hottest q) ∧
     (∀ d : Nat, 4 ≤ d → exec (.dieReport d) s = .next s) ∧
     (∀ d : Nat, d < 4 → ∃ t x cores live, exec (.dieReport d) s = .next t ∧
       t = { s with hub := { s.hub with reportAt := t.hub.reportAt, sentFree := t.hub.sentFree, sentLive := t.hub.sentLive }, fabric := t.fabric, flights := t.flights,
                    nextId := s.nextId + 1 } ∧
       lget 0 t.hub.reportAt d = s.now ∧ (∀ c, lget 512 t.hub.sentFree c = if c / 16 = d then 512 - (s.core c).tcbs.length else lget 512 s.hub.sentFree c) ∧
       ((∀ q, (s.region q).cols.Pairwise (fun a b => a.1 < b.1) ∧ ∀ e ∈ (s.region q).cols, e.1 < 32) → ∀ r c, c < 32 →
         lget 0 t.hub.sentLive (r * 32 + c) = if r / 16 = d then (s.colour r c).livea else lget 0 s.hub.sentLive (r * 32 + c)) ∧
       (t.fab d).msgs = (s.fab d).msgs ++ [x] ∧ (∀ j, j ≠ d → t.fab j = s.fab j) ∧ x.num = s.nextId ∧ x.cls = 4 ∧ x.src = d * 512 + 80 ∧ x.dst = 4 * 512 + 16 ∧
       x.done = false ∧ x.what = .report d cores live ∧ t.flights.length = s.flights.length + (x.frags false).length ∧
       ∀ u : State,
         let v := u.takeReport d cores live
         v = { u with hub := { u.hub with reports := v.hub.reports, live := v.hub.live } } ∧
         (∀ c, lget {} v.hub.reports c = if c / 16 = d then { free := 512 - (s.core c).tcbs.length, temp := (s.core c).temp, step := (s.core c).step }
           else lget {} u.hub.reports c) ∧
         ((∀ q, (s.region q).cols.Pairwise (fun a b => a.1 < b.1) ∧ ∀ e ∈ (s.region q).cols, e.1 < 32) → ∀ r c, c < 32 →
           lget 0 v.hub.live (r * 32 + c) = if r / 16 = d then (s.colour r c).livea else lget 0 u.hub.live (r * 32 + c))))

/-! Tasks, islands and copies. -/

/-- spec/06 R125 to R129, R457, spec/13 R277 to R279, spec/17 R338, R339, spec/18 R362, spec/21 R424, spec/08 R162: what the task engines do: a task
becomes ready, issues and retires, once what it asks of homes outside its core for its further successors has come; COND and WHILE read their word;
IMMA, IDRAIN and IZERO act on their island or retire with ISLERR; REGION tasks enqueue. An IDRAIN of a bank without a valid owner ends in ISLERR too
(the model's choice, log entry 57). An uncorrectable error that a task consumes purges its colour and tag. That a task is worked on whole in one
event, and its status, follow log entries 32, 33. How a request rides the fabric, one message for each home, is the model's choice (log entry 78). -/
def Obligations.TaskEvents : Prop :=
  ∀ (s : State) (c b : Nat),
    let x := s.tcb c b
    let r := s.regionAt c
    let opnd := tOper x.raw
    let succs := tSuccs x.raw 0 8
    let retires := fun (o : Outcome) (status : BitVec 8) (decs : List Nat) (e : State → Prop) =>
      ∃ u t, o = .next t ∧ (t = u ∨ Woken u t) ∧ u.tcb c b = { x with st := .retired, status := status, decs := decs } ∧ e u
    let quietFrom := fun (v u : State) => u = { v with cores := u.cores, regions := u.regions } ∧ ∀ k n, (k, n) ≠ (c, b) → u.tcb k n = v.tcb k n
    let quiet := quietFrom s
    -- an uncorrectable error that a task consumes is contained: a purge of its colour and tag, and the record
    let contained := fun (v : State) (o : Outcome) => ∃ w u, o = .next u ∧ (w.region r).trapv = (v.region r).trapv ∧
      Raises w.transit w u r (s.partOf c) Cause.uce ∧ (∀ y ∈ w.transit, y ∈ v.transit) ∧ ∀ n ∈ (s.region r).cores, ∀ y ∈ (u.core n).tcbs, y.2.col ≠ x.col ∨ y.2.rtag ≠ x.rtag
    let faults := fun (v : State) (o : Outcome) (k : BitVec 8) =>
      (k = Cause.poison → retires o k succs (quietFrom v)) ∧
      (k ≠ Cause.poison → k ≠ Cause.uce → retires o k succs (fun u => Raises v.transit v u r (s.partOf c) k)) ∧ (k = Cause.uce → contained v o)
    let marks := fun (v : State) => v = { s with mem := v.mem, uce := v.uce, migs := v.migs, lines := v.lines, pages := v.pages, reveals := v.reveals }
    (x.st ≠ .waitin → exec (.taskResident c b) s = .next s) ∧
    (x.st = .waitin → ∀ v res, s.inputState c x = (v, res) →
      let o := exec (.taskResident c b) s
      let n := tInlen x.raw
      (res = .ok true → (tType x.raw ≠ 0 ∨ s.immaResident r x.raw = true) → o = .next (v.setTcb c b { x with st := .ready, readyAt := s.clkOf c })) ∧
      (res = .ok true → tType x.raw = 0 → s.immaResident r x.raw = false → o = .next v) ∧ (res = .ok false → o = .next v) ∧
      (∀ k a, res = .error (k, a) → faults v o k) ∧ marks v ∧ (n = 0 → v = s ∧ res = .ok true) ∧
      (n = 1 → (∀ k, s.taskWord c x (tInput x.raw) = .error k → v = s ∧ res = .error (k, tInput x.raw)) ∧
        ∀ pa u, s.taskWord c x (tInput x.raw) = .ok (pa, u) → v = u ∧
          (s.feOf pa = 3 → res = .error (Cause.poison, tInput x.raw)) ∧ (s.feOf pa ≠ 3 → res = .ok (s.feOf pa == 1)))) ∧
    (let o := exec (.taskIssue c b) s
     let first := s.mayIssue c x = true ∧ ∀ e ∈ (s.core c).tcbs, s.canAct c e.2 = true → State.key3Lt (State.issueKey e.2 e.1) (State.issueKey x b) = false
     (¬ first → o = .next s) ∧ (first → ∃ t, o = .next t ∧ quiet t ∧ t.tcb c b = { x with st := .issued } ∧ (t.colour r x.col.toNat).wdog = 0)) ∧
    (x.st = .issued → tType x.raw = 0 →
      let o := exec (.imma c b) s
      let bank := bits opnd 8 1
      let asl := bits opnd 9 3
      let bsl := bits opnd 12 3
      let good := fun (i : Nat × Nat) => (lget {} (s.island i.1 i.2).bankTag bank).valid = true ∧ (lget {} (s.island i.1 i.2).bankTag bank).col = x.col ∧
        s.claimed i asl x = true ∧ s.claimed i (8 + bsl) x = true ∧ State.holdsTile (s.island i.1 i.2) bsl = true ∧
        (lget {} (s.island i.1 i.2).bSlots bsl).tag = some (bits opnd 24 3, bits opnd 27 16, bits opnd 43 8, bits opnd 51 16)
      ((s.taskIsland r x.raw = none ∨ ∃ i, s.taskIsland r x.raw = some i ∧ ¬ good i) → retires o Cause.islerr succs (fun u => Raises s.transit s u r (s.partOf c) Cause.islerr)) ∧
      (∀ i, s.taskIsland r x.raw = some i → good i → retires o 0 succs (fun u =>
        let y := s.island i.1 i.2
        let z := u.island i.1 i.2
        u = { s with cores := u.cores } ∧
        (∀ row j, row < 128 → j < 256 →
          let k := bank * 32768 + row * 256 + j
          (∀ a, lget? y.aRows (asl * 128 + row) = some a → a.skip = false → lget 0 z.banks k = s.immaElem r (bits opnd 0 3) a (lget {} y.bSlots bsl) (lget 0 y.banks k) j) ∧
          ((∀ a, lget? y.aRows (asl * 128 + row) = some a → a.skip = true) → lget 0 z.banks k = lget 0 y.banks k)) ∧
        (∀ k, k / 128 ≠ asl → lget? z.aRows k = lget? y.aRows k) ∧
        (∀ k, k / 128 = asl → lget? z.aRows k = if bit opnd 15 then lget? y.aRows k else none) ∧
        (∀ k, lget {} z.bSlots k = if k = bsl ∧ bit opnd 16 = false then {} else lget {} y.bSlots k) ∧
        z.bankTag = y.bankTag ∧ z.fill = y.fill ∧ z.claims = y.claims))) ∧
    (x.st = .issued → tType x.raw = 2 →
      let o := exec (.izero c b) s
      let bank := bits opnd 5 1
      (s.taskIsland r x.raw = none → retires o Cause.islerr succs (fun u => Raises s.transit s u r (s.partOf c) Cause.islerr)) ∧
      (∀ i, s.taskIsland r x.raw = some i → retires o 0 succs (fun u =>
        let y := s.island i.1 i.2
        let z := u.island i.1 i.2
        u = { s with cores := u.cores } ∧ (∀ k, lget 0 z.banks k = if k / 32768 = bank then 0 else lget 0 y.banks k) ∧
        lget {} z.bankTag bank = { valid := true, col := x.col, wave := x.wave, rtag := x.rtag } ∧
        (bit opnd 9 = true → lget? z.fill x.col.toNat = some (bits opnd 6 3, 0) ∧ ∀ k, k / 128 = bits opnd 6 3 → lget? z.aRows k = none) ∧
        (bit opnd 9 = false → z.fill = y.fill ∧ z.aRows = y.aRows) ∧ z.bSlots = y.bSlots ∧ z.claims = y.claims))) ∧
    (x.st = .issued → tType x.raw = 1 →
      let o := exec (.idrain c b) s
      let islerr := retires o Cause.islerr succs (fun u => Raises s.transit s u r (s.partOf c) Cause.islerr)
      (s.taskIsland r x.raw = none → islerr) ∧
      (∀ i, s.taskIsland r x.raw = some i →
        let y := s.island i.1 i.2
        let tag := lget {} y.bankTag (bits opnd 7 1)
        let words := State.drainWords y opnd
        let at_ := s.drainPlaces r x i.1 words s
        (tag.valid = false ∨ tag.col ≠ x.col → islerr) ∧ (tag.valid = true → tag.col = x.col → at_ = none → islerr) ∧
        (∀ ws s1, tag.valid = true → tag.col = x.col → at_ = some (ws, s1) → (∀ w ∈ ws, s1.drainBad r w.1 = none ∧ w.1 % 4 = 0 ∧ s1.forward w.1 = w.1) →
          ws.Pairwise (fun a b => a.1 ≠ b.1) → retires o 0 succs (fun u =>
            (∀ w ∈ ws, mread u.mem w.1 4 = w.2 % 2 ^ 32 ∧ u.feOf w.1 = 1) ∧ (∀ a, (∀ w ∈ ws, a < w.1 ∨ w.1 + 4 ≤ a) → mget u.mem a = mget s1.mem a) ∧
            ∀ k, lget 0 (u.island i.1 i.2).banks k = if bit opnd 8 = true ∧ k / 32768 = bits opnd 7 1 then 0 else lget 0 y.banks k)))) ∧
    (x.st = .issued → tType x.raw = 4 →
      let o := exec (.regionTask c b) s
      let i := bits opnd 0 10 + x.left
      let raw := lget 0 (s.core c).tasks i
      (bits opnd 10 10 ≤ x.left → retires o 0 succs quiet) ∧
      (x.left < bits opnd 10 10 → (s.core c).nTasks ≤ i → retires o Cause.cfg succs quiet) ∧
      (x.left < bits opnd 10 10 → i < (s.core c).nTasks → s.enqueueTask c raw (some i) (State.byTask x) = none → o = .next s) ∧
      (∀ k u, x.left + 1 = bits opnd 10 10 → i < (s.core c).nTasks → s.enqueueTask c raw (some i) (State.byTask x) = some (k, u) → k ≠ b →
        u.tcb c b = x → ∃ t, o = .next t ∧ (t.tcb c b).st = .retired ∧ (t.tcb c b).status = 0 ∧ t.tcb c k = u.tcb c k ∧ (u.tcb c k).raw = raw ∧
          (u.tcb c k).idx = some i ∧ (u.tcb c k).col = x.col ∧ (u.tcb c k).wave = x.wave ∧ (u.tcb c k).rtag = x.rtag)) ∧
    (∀ ty, (ty = 5 ∨ ty = 6) →
      let o := if ty = 5 then exec (.condTask c b) s else exec (.whileTask c b) s
      let word := s.taskWord c x (bits opnd 0 56)
      (s.mayRead c x ty = false ∨ s.comesLater c b x = true → o = .next s) ∧
      (s.mayRead c x ty = true → s.comesLater c b x = false → (∀ k, word = .error k → k ≠ Cause.poison → faults s o k) ∧
        (∀ pa v0, word = .ok (pa, v0) → (s.feOf pa = 3 → faults v0 o Cause.poison) ∧ (s.feOf pa ≠ 1 → s.feOf pa ≠ 3 → o = .next v0)))) ∧
    (∀ pa v0, s.comesLater c b x = false → s.taskWord c x (bits opnd 0 56) = .ok (pa, v0) → s.feOf pa = 1 →
      let v := mread s.mem pa 4
      (s.mayRead c x 5 = true →
        let take := if v = 0 then tSuccs x.raw 4 4 else tSuccs x.raw 0 4
        let skip := if v = 0 then tSuccs x.raw 0 4 else tSuccs x.raw 4 4
        skip.Nodup → (∀ i ∈ skip, ∃ k, s.taskNamed r x.rtag i = some k ∧ k ≠ (c, b)) →
        retires (exec (.condTask c b) s) 0 take (fun u => u = { v0 with cores := u.cores } ∧
          ∀ i ∈ skip, ∀ k n, s.taskNamed r x.rtag i = some (k, n) →
            ((s.tcb k n).st ≠ .named → (u.tcb k n).st = .retired ∧ (u.tcb k n).status = 0 ∧ (u.tcb k n).decs = tSuccs (s.tcb k n).raw 0 8) ∧
            ((s.tcb k n).st = .named → u.tcb k n = { s.tcb k n with skip := true }))) ∧
      (s.mayRead c x 6 = true →
        let o := exec (.whileTask c b) s
        (v = 0 → retires o 0 (tSuccs x.raw 4 4) (fun u => u.feOf pa = 0 ∧ ∀ w, w / 4 ≠ pa / 4 → u.feOf w = s.feOf w)) ∧
        (v ≠ 0 → tSuccs x.raw 0 4 = [] → ∃ u t, o = .next t ∧ Woken u t ∧ u.feOf pa = 0 ∧ u.tcb c b = { x with st := .waitpred, cnt := 1 }) ∧
        (∀ i k n, v ≠ 0 → tSuccs x.raw 0 4 = [i] → s.taskNamed r x.rtag i = some (k, n) → (s.tcb k n).st ≠ .named → (k, n) ≠ (c, b) →
          ∃ u t, o = .next t ∧ Woken u t ∧ u.feOf pa = 0 ∧ u.tcb c b = { x with st := .waitpred, cnt := 1 } ∧
            (u.tcb k n).cnt = (tPreds (s.tcb k n).raw : Int) - 1))) ∧
    (let o := exec (.taskRetirement c b) s
     (x.st ≠ .retired → o = .next s) ∧
     (x.st = .retired → tOvf x.raw = 0 →
       let ch := tCplch x.raw
       let e := s.chanOf r ch x.col x.wave
       let h : BitVec 64 := mkHdr 0 0 false 0 (BitVec.ofNat 6 ch) 0 x.rtag x.wave x.col
       let beat := State.lanesBeat [x.status.toNat, x.idx.getD 0xFFFFFFFF, b, (s.region r).rcoreOf c]
       let k0 := State.skipCarry (lget {} (s.region r).skips (s.prodKey r ch x.col x.wave)) x.wave 0
       let counted := (State.skipRule k0 x.wave (cRpw e) (State.skippable (cFmt e).toNat h [beat])).2
       let frees := fun (f : State → Prop) => ∃ u t, o = .next t ∧ Woken u t ∧ lget? (u.core c).tcbs b = none ∧ (u.colour r x.col.toNat).wdog = 0 ∧
         (tCplv x.raw = false ∨ (cSkipz e = true ∧ counted = none) → u.transit = s.transit) ∧
         (∀ d, tCplv x.raw = true → (cSkipz e = false ∨ counted ≠ none) → s.destOf r ch x.col = some d → ∃ y, u.transit = s.transit ++ [y] ∧ y.dst = d ∧
           rhWave y.rc.hdr = x.wave ∧ rhRtag y.rc.hdr = x.rtag ∧ rhCol y.rc.hdr = x.col ∧ (rhChan y.rc.hdr).toNat = ch ∧ y.rc.beats = [beat] ∧
           rhSkip y.rc.hdr = (if cSkipz e then BitVec.ofNat 8 (counted.getD 0) else 0) ∧
           lane 32 beat 0 = x.status.toNat ∧ lane 32 beat 1 = (x.idx.getD 0xFFFFFFFF) % 2 ^ 32 ∧
           lane 32 beat 2 = b % 2 ^ 32 ∧ lane 32 beat 3 = (s.region r).rcoreOf c % 2 ^ 32) ∧ f u
       (x.decs = [] → frees (fun u => ∀ k n, (k, n) ≠ (c, b) → u.tcb k n = s.tcb k n)) ∧
       (∀ i k n, x.decs = [i] → s.taskNamed r x.rtag i = some (k, n) → frees (fun u =>
         u.tcb k n = { s.tcb k n with cnt := (s.tcb k n).cnt - 1,
                                      st := (if (s.tcb k n).st = .waitpred ∧ (s.tcb k n).cnt ≤ 1 then .waitin else (s.tcb k n).st) }))) ∧
     (x.st = .retired → tOvf x.raw ≠ 0 → x.decs = [] →
       let v := s.setTcb c b { x with decs := [] }
       let q := v.taskTrip c b
       let hs := v.homesOf (v.ovfPieces c b)
       (s.tripOfKey q.who = none → hs ≠ [] → ∃ t, o = .next t ∧ OnFabric v t ∧ Stands t q.who q.src false hs) ∧
       (∀ y, s.tripOfKey q.who = some y → y.back = true ∨ s.tripDone y = false → o = .next v)) ∧
     (x.st = .retired → tOvf x.raw ≠ 0 → x.decs = [] → tCplv x.raw = false →
       let w := s.setTcb c b { x with decs := [] }
       let q := w.taskTrip c b
       let hs := w.homesOf (w.ovfPieces c b)
       (s.tripOfKey q.who = none ∧ hs = []) ∨ (∃ y, s.tripOfKey q.who = some y ∧ y.src = q.src ∧ y.back = false ∧ s.tripDone y = true) →
       let answers := fun (u : State) => s.tripOfKey q.who ≠ none → Stands u q.who q.src true hs
       let list := s.engRead r (s.partOf c) c x.col x.wave (tOvf x.raw) 2
       (∀ k, list = .error k → k ≠ Cause.uce → ∃ u t, o = .next t ∧ Woken u t ∧ answers u ∧ lget? (u.core c).tcbs b = none ∧
         Raises s.transit s u r (s.partOf c) k) ∧
       (∀ v, list = .ok (0xFFFF, v) → ∃ u t, o = .next t ∧ Woken u t ∧ answers u ∧ lget? (u.core c).tcbs b = none ∧ u.mem = v.mem ∧ u.transit = s.transit ∧
         ∀ k n, (k, n) ≠ (c, b) → u.tcb k n = s.tcb k n) ∧
       (∀ i v v2 k n, list = .ok (i, v) → i ≠ 0xFFFF → v.engRead r (s.partOf c) c x.col x.wave (tOvf x.raw + 2) 2 = .ok (0xFFFF, v2) →
         s.taskNamed r x.rtag i = some (k, n) → ∃ u t, o = .next t ∧ Woken u t ∧ answers u ∧ lget? (u.core c).tcbs b = none ∧ u.mem = v2.mem ∧
           (u.tcb k n).cnt = (s.tcb k n).cnt - 1)))

/-- spec/17 R340, R342, spec/18 R361, R362, spec/05 R109, spec/20 R406, spec/21 R424, spec/08 R162: a COPY task's copy joins its channel; a copy
starts, moves a beat at a time, once what it asks of homes outside its core has come, and ends, with its slot's tag, its completion word and its
token; a copy in error ends with COPYERR, and SLOT is beneath it for a beat beyond the 64 KiB of a B slot (the model's choice, log entry 33); which
subgraph is CB2, whose result the rules give, is Config's (log entry 9). A fork's copy ends with its bytes in the new segment. How a request rides the
fabric, one message for each home, is the model's choice (log entry 78). -/
def Obligations.CopyEvents : Prop :=
  ∀ (s : State) (c : Nat),
    (∀ b : Nat,
      let x := s.tcb c b
      let ch := bits (tOper x.raw) 10 4
      let o := exec (.copyTask c b) s
      ((x.st ≠ .issued ∨ tType x.raw ≠ 3 ∨ x.begun = true ∨ 4 ≤ (s.copies c ch).length) → o = .next s) ∧
      (x.st = .issued → tType x.raw = 3 → x.begun = false → (s.copies c ch).length < 4 → ∃ t q, o = .next t ∧ t.tcb c b = { x with begun := true } ∧
        t.copies c ch = s.copies c ch ++ [q] ∧ q.id = s.nextId ∧ q.tpl = bits (tOper x.raw) 0 10 ∧ q.count = bits (tOper x.raw) 16 16 ∧
        q.offset = bits (tOper x.raw) 32 32 ∧ q.task = some b ∧ q.col = x.col ∧ q.started = false ∧ t = { s with nextId := s.nextId + 1, cores := t.cores })) ∧
    (∀ ch : Nat, s.copyHead c ch = none → exec (.copyStart c ch) s = .next s ∧ exec (.copyBeat c ch) s = .next s ∧ exec (.copyEnd c ch) s = .next s) ∧
    (∀ (ch : Nat) (x : Copy), s.copyHead c ch = some x →
      let v := s.tplOf c x
      let gone := fun (u : State) (ok : Bool) => (∀ y ∈ u.copies c ch, y.id ≠ x.id) ∧ (∀ t k, x.token = some (t, k) → u.tokenOf t k = if ok then 2 else 3)
      -- an uncorrectable error that a copy consumes is contained: a purge of its colour and tag, and the record
      let errs := fun (o : Outcome) (k : BitVec 8) => (k = Cause.uce → ∃ w t, o = .next t ∧ gone t false ∧
          (w.region (s.regionAt c)).trapv = (s.region (s.regionAt c)).trapv ∧ Raises w.transit w t (s.regionAt c) (s.partOf c) Cause.copyerr ∧
          ∀ n ∈ (s.region (s.regionAt c)).cores, ∀ q ∈ (t.core n).copies, ∀ y ∈ q.2, y.col ≠ x.col ∨ y.rtag ≠ x.rtag) ∧ (k ≠ Cause.uce → ∃ t, o = .next t ∧ gone t false ∧ Raises s.transit s t (s.regionAt c) (s.partOf c) Cause.copyerr ∧
        (∀ b, x.task = some b → (t.tcb c b).st = .retired ∧ (t.tcb c b).status = Cause.copyerr) ∧
        ((s.region (s.regionAt c)).trapv = true → ∀ y, t.transit.getLast? = some y → (y.rc.beats.headD 0).extractLsb' 384 8 = k ∧
          (y.rc.beats.headD 0).extractLsb' 392 10 = BitVec.ofNat 10 x.tpl))
      (let o := exec (.copyStart c ch) s
       let n := (State.copyIn v x * tpEs v + 63) / 64
       (x.started = true → o = .next s) ∧
       (x.started = false → ((s.core c).nTemplates ≤ x.tpl ∨ x.reserved = true) → errs o Cause.cfg) ∧
       (x.started = false → x.tpl < (s.core c).nTemplates → x.reserved = false →
         (tpDkind v = false → o = .next (s.setHead c ch { x with started := true, beats := n })) ∧
         (tpDkind v = true → (s.copySlot x v = none ∨ bit (tpDst v) 5 = false ∨ bits (tpDst v) 52 12 ≠ 0) → errs o Cause.slot) ∧
         (∀ i, tpDkind v = true → s.copySlot x v = some i → bit (tpDst v) 5 = true → bits (tpDst v) 52 12 = 0 →
           (s.slotOpen x i = false → o = .next s) ∧
           (s.slotOpen x i = true → ∃ t, o = .next t ∧ t.copies c ch = { x with started := true, beats := n, bslot := some i } :: (s.copies c ch).tail ∧
             lget {} (t.island i.1 i.2.1).bSlots i.2.2 = { writing := true, byCopy := some (c, ch, { x with started := true, beats := n, bslot := some i }) } ∧
             t = { s with cores := t.cores })))) ∧
      (let o := exec (.copyBeat c ch) s
       let n := State.copyIn v x
       let es := tpEs v
       let i0 := State.inBefore v n x.beat
       let o0 := State.outBefore v n x.beat
       let nin := (State.inBefore v n (x.beat + 1) - i0) * es
       let nout := (State.outBefore v n (x.beat + 1) - o0) * es
       let dst := (x.offset + o0) * es
       let read := s.readSpan c x ((tpSrc v + (x.offset + i0) * es) % 2 ^ 64) nin
       let who := State.copyTrip c ch
       let hs := s.homesOf (s.copyPieces c x v)
       let src := State.coreNode c
       let goes := fun (e : State → Prop) => ∃ u t, o = .next t ∧ Woken u t ∧ (s.tripOfKey who ≠ none → Stands u who src true hs) ∧ u.copies c ch = { x with beat := x.beat + 1 } :: (s.copies c ch).tail ∧
         lget 7 (u.core c).turns (ch / 8) = ch % 8 ∧ (u.colour x.region x.col.toNat).wdog = 0 ∧ e u
       (s.beatTurn c ch = false → o = .next s) ∧ (s.beatTurn c ch = true → x.started = true ∧ x.beat < x.beats) ∧
       (s.beatTurn c ch = true → s.tripOfKey who = none → hs ≠ [] → ∃ t, o = .next t ∧ OnFabric s t ∧ Stands t who src false hs) ∧
       (s.beatTurn c ch = true → (s.tripOfKey who = none ∧ hs = []) ∨ (∃ y, s.tripOfKey who = some y ∧ y.src = src) →
         (∀ k, read = .error k → errs o k) ∧
         (∀ a s1 w s2, read = .ok (a, s1) → (tpSubv v = false → w = a ∧ s2 = s1) → (tpSubv v = true → s1.subgraph x v nin a nout = (w, s2)) →
           (tpSubv v = true → Config.cb2Subgraph (tpSub v) = true → 8 * nin = nout → nin % 2 = 0 → toBytes nout w =
             (List.range (nin / 2)).flatMap (fun k => State.cb2Bytes (s.region x.region).codebook (BitVec.ofNat 16 (a / 2 ^ (16 * k))))) ∧
           (nout = 0 → goes (fun u => u.mem = s2.mem ∧ u.fe = s2.fe)) ∧
           (∀ k, nout ≠ 0 → tpDkind v = false → s2.writeSpan c x ((tpDst v + dst) % 2 ^ 64) nout w = .error k → errs o k) ∧
           (∀ s3, nout ≠ 0 → tpDkind v = false → s2.writeSpan c x ((tpDst v + dst) % 2 ^ 64) nout w = .ok s3 → goes (fun u => u.mem = s3.mem ∧ u.fe = s3.fe)) ∧
           (nout ≠ 0 → tpDkind v = true → x.bslot = none ∨ 0x10000 < dst + nout → errs o Cause.slot) ∧
           (∀ i, nout ≠ 0 → tpDkind v = true → x.bslot = some i → dst + nout ≤ 0x10000 → goes (fun u =>
             let q := lget {} (u.island i.1 i.2.1).bSlots i.2.2
             let q0 := lget {} (s.island i.1 i.2.1).bSlots i.2.2
             (∀ k, k < nout → lget 0 q.data (dst + k) = BitVec.ofNat 8 (w / 256 ^ k)) ∧
             ∀ k, k < dst ∨ dst + nout ≤ k → lget 0 q.data k = lget 0 q0.data k))))) ∧
      (let o := exec (.copyEnd c ch) s
       let ends := fun (e : State → Prop) => ∃ u t, o = .next t ∧ Woken u t ∧ gone u true ∧
         (∀ b, x.task = some b → (u.tcb c b).st = .retired ∧ (u.tcb c b).status = 0) ∧ e u
       (x.started = false ∨ x.beat < x.beats → o = .next s) ∧
       (x.started = true → x.beats ≤ x.beat →
         (∀ k, s.copyWord c x v = .error k → errs o k) ∧
         (∀ s1, s.copyWord c x v = .ok s1 → ends (fun u => u.mem = s1.mem ∧ u.fe = s1.fe ∧
           ∀ i, x.bslot = some i →
             let q := lget {} (u.island i.1 i.2.1).bSlots i.2.2
             let d := tpDst v
             q.tag = some (bits d 9 3, bits d 12 16, bits d 28 8, bits d 36 16) ∧ q.consumed = false ∧ q.writing = false ∧
               q.data = (lget {} (s.island i.1 i.2.1).bSlots i.2.2).data))))) ∧
    (∀ (k : Nat) (f : Fork), Safe s → s.forks[k]? = some f →
      let src := s.forward f.src
      let dst := s.forward f.dst
      ∃ u t, exec (.sqforkCopyEnd k) s = .next t ∧ Woken u t ∧
        u = { s with mem := u.mem, uce := u.uce, migs := u.migs, lines := u.lines, pages := u.pages, reveals := u.reveals, forks := dropAt s.forks k } ∧
        (∀ i, i < f.bytes → mget u.mem (dst + i) = mget s.mem (src + i)) ∧
        ∀ y, y < dst ∨ dst + f.bytes ≤ y → mget u.mem y = mget s.mem y)

/-! Continuations, records and gating. -/

/-- spec/06 R131, spec/02 R44, R48, R50, R52, spec/22 R439: a free context takes the continuation that the rules select: a fresh one starts at its
handler's entry with its frame's registers, a parked or trapped one has its set back. A late fault that waits is taken at the selection (the model's
choice, log entry 15). A tile wakes, is gated, and its copy of OWC catches up; power-gated outside an armed region it keeps nothing (log entry 40).
That a gated tile with work starts to wake is the model's choice (log entry 19); the fresh epoch of the registers is log entry 5. -/
def Obligations.SelectionAndGatingEvents : Prop :=
  ∀ (s : State) (T c : Nat),
    let y := s.tile T
    let setsTile := fun (o : Outcome) (z : Tile) => o = .next (s.setTile T z)
    (s.mayTake T c = false ∨ s.selectFor T c = none → exec (.contextSelection T c) s = .next s) ∧
    (∀ cls k, s.mayTake T c = true → s.selectFor T c = some (cls, k) →
      let f := s.frame k
      let r := s.tileRegion T
      let ck := T * 4 + c
      let h := s.handler T f.opsl.toNat f.col f.wave
      k / 128 = T ∧ s.candidate k = true ∧ cls = s.frameClass k ∧ (c = 0 → cls = 0) ∧
      (∀ j ∈ s.frames.map (·.1), j / 128 = T → s.candidate j = true → c ≠ 0 → cls ≤ s.frameClass j) ∧
      ∃ t, exec (.contextSelection T c) s = .next t ∧ lget 0 (t.tile T).rr cls = f.col.toNat ∧ t.focus = s.focus ∧
        (hTrapOp h = true → (t.colour r f.col.toNat).wdog = 0) ∧
        (f.cont = .fresh ∨ f.lates = [] → (t.frame k).cont = .running ∧ (t.frame k).inHeap = false ∧ (∀ j, j ≠ k → t.frame j = s.frame j) ∧
          (∀ j, j ≠ ck → t.ctx j = s.ctx j) ∧ t.mem = s.mem) ∧
        (f.cont = .fresh → (t.frame k).aid = s.nextId ∧
          let ip := (hEntry h).setWidth 32
          t.ctx ck = { busy := true, aid := s.nextId, frame := k % 128, ip := ip, col := f.col, wave := f.wave, rtag := f.rtag, opsl := f.opsl, epoch := s.free }) ∧
        (∀ i rest, f.cont ≠ .fresh → f.lates = i :: rest → hTrapOp h = false → (s.region r).trapv = true → s.oldCount f.aid = 0 →
          (t.frame k).cont = .trapped ∧ (t.frame k).lates = rest ∧ t.ctx ck = {} ∧ (∀ j, j ≠ k → t.frame j = s.frame j) ∧
          (∀ j, j ≠ ck → t.ctx j = s.ctx j) ∧ ∃ z, t.transit = s.transit ++ [z] ∧ z.dst = .slot (s.trapTileOf r) 63 ∧ z.rc.beats.length = 4 ∧
            (z.rc.beats.headD 0).extractLsb' 0 8 = i.cause) ∧
        (f.cont ≠ .fresh → f.lates = [] →
          let u : State := { t with focus := ck }
          let b := T * 0x80000 + k % 128 * 0x800
          let img := fun (off n : Nat) => if f.inHeap then mread s.mem (s.forward (s.heapAddr r T (k % 128)) + off) n else mread s.tmem (b + off) n
          let w := img 0x698 8
          (f.inHeap = false → t.tmem = s.tmem) ∧ u.cur.busy = true ∧ u.cur.aid = f.aid ∧ u.cur.frame = k % 128 ∧ u.cur.ip = BitVec.ofNat 32 w ∧ u.cur.col = f.col ∧
          u.cur.wave = f.wave ∧ u.cur.rtag = f.rtag ∧ u.cur.opsl = f.opsl ∧ u.cur.issued = 0 ∧
          (∀ i : Nat, i < 15 → u.rdS (BitVec.ofNat 6 (i + 1)) = BitVec.ofNat 64 (img (0x600 + 8 * i) 8)) ∧
          (∀ i : Nat, i < 8 → u.rdV (BitVec.ofNat 5 i) = BitVec.ofNat 512 (img (0x400 + 64 * i) 64)) ∧
          (∀ i : Nat, i < 4 → u.rdM (BitVec.ofNat 3 i) = BitVec.ofNat 64 (img (0x678 + 8 * i) 8)) ∧
          u.rdP 1 = w.testBit 32 ∧ u.rdP 2 = w.testBit 33 ∧ u.rdP 3 = w.testBit 34)) ∧
    (∀ n : Nat,
      let k := T * 128 + n
      let f := s.frame k
      let at_ := max (f.readyAt + 256) (lget 0 (s.tile (k / 128)).owcAt f.col.toNat)
      let old := (f.cont = .fresh ∨ f.cont = .runnable) ∧ f.wave = lget 0 (s.tile (k / 128)).owc f.col.toNat ∧ at_ ≤ s.clkOf (k / 4096)
      (old → exec (.oldestWavePromotion T n) s = .next (if f.promoted = some at_ then s else s.setFrame k { f with promoted := some at_ })) ∧
      (¬ old → exec (.oldestWavePromotion T n) s = .next s)) ∧
    (let o := exec (.tileWake T) s
     let u := s.setTile T { y with gate := .awake, idle := 0, wake := [] }
     (y.gate = .waking 0 ∨ y.gate = .powering 0 ∨ (y.gate = .awake ∧ y.wake ≠ []) → ∃ t, o = .next t ∧ (t.tile T).gate = .awake ∧
       (y.wake = [] → t = u) ∧
       (∀ x ch, y.wake = [x] → x.dst = .slot T ch →
         let early := s.awaitsReconf (s.tileRegion T) (rhCol x.rc.hdr) (rhWave x.rc.hdr) = true ∧ rhParityOk x.rc.hdr = true
         (u.converting T ch = true → t = u.setTile T { u.tile T with wake := [x] }) ∧
         (u.converting T ch = false → (t.tile T).wake = [] ∧ (early → Spills u x (s.tileRegion T) false t ∧ OnlySpills u t) ∧
           (¬ early → Arrives u x T ch (x.ahead != 0) t)))) ∧
     (y.gate = .clock → s.hasWork T = true → setsTile o { y with gate := .waking 8 }) ∧
     (y.gate = .power → s.hasWork T = true → setsTile o { y with gate := .powering 5400 }) ∧
     (∀ n, y.gate = .waking (n + 1) ∨ y.gate = .powering (n + 1) → o = .next s) ∧
     ((y.gate = .clock ∨ y.gate = .power) → s.hasWork T = false → o = .next s) ∧ (y.gate = .awake → y.wake = [] → o = .next s)) ∧
    (let o := exec (.clockGatingEntry T) s
     let due := y.gate = .awake ∧ s.hub.tileCg ≠ 0 ∧ s.hub.tileCg ≤ y.idle
     (due → setsTile o { y with gate := .clock, idle := 0 }) ∧ (¬ due → o = .next s)) ∧
    (let o := exec (.powerGatingEntry T) s
     let due := y.gate = .clock ∧ s.hub.tilePg ≠ 0 ∧ s.hub.tilePg ≤ y.idle
     let armed := ∃ r, (s.core (T / 32)).region = some r ∧ (s.region r).st = 2
     (due → armed → setsTile o { y with gate := .power, tlb := [] }) ∧
     (due → ¬ armed → ∃ t, o = .next t ∧ t.tile T = { gate := .power } ∧ (∀ k, k ≠ T → t.tile k = s.tile k) ∧
       (∀ k, t.frame k = if k / 128 = T then {} else s.frame k) ∧ (∀ a, mget t.tmem a = if a / 0x80000 = T then 0 else mget s.tmem a) ∧
       t = { s with tiles := t.tiles, frames := t.frames, tmem := t.tmem, uce := t.uce }) ∧
     (¬ due → o = .next s)) ∧
    (let v := (s.colour (s.tileRegion T) c).owc
     ∃ t, exec (.owcBroadcast T c) s = .next t ∧ lget 0 (t.tile T).owc c = v ∧ (∀ k, k ≠ c → lget 0 (t.tile T).owc k = lget 0 y.owc k) ∧
       t.tile T = { y with owc := (t.tile T).owc, owcAt := (t.tile T).owcAt } ∧ (∀ k, k ≠ T → t.tile k = s.tile k) ∧ t = { s with tiles := t.tiles })

/-- spec/02 R43 to R45, R48, R59, R60, spec/08 R158, spec/18 R358, spec/21 R421: records on their way: beats cross a circuit; a record that has
arrived is taken in by its slot, waits at a gated tile, or in the spill ring; replay takes the first in order; records of a channel keep their order
on the way round by a conversion node; a POISON holds its sender until the wave's frames are pinned (log entry 84). A damaged header's report (log
entries 24, 60) and a fire mask of 0, which never fires (log entry 70), are the model's choice; wave control and reconfiguration records are applied
or refused. What an ill-formed control record does follows log entries 38, 42. -/
def Obligations.RecordEvents : Prop :=
  ∀ (s : State),
    (∀ (n : Nat) (x : Transit), s.transit[n]? = some x →
      let h := x.rc.hdr
      let gone := s.takeTransit n
      let goes := s.performed x.waits = true ∧ ∀ y ∈ s.transit.take n, y.dst ≠ x.dst
      (∀ ok, (ok = true → goes → x.left ≠ 0 → exec (.circuitBeat n ok) s = .next { s with transit := setAt s.transit n { x with left := x.left - 1 } }) ∧
        (ok = false ∨ ¬ goes ∨ x.left = 0 → exec (.circuitBeat n ok) s = .next s)) ∧
      (∀ T ch, x.dst = .slot T ch →
        let y := s.tile T
        let r := s.tileRegion T
        let early := s.awaitsReconf r (rhCol h) (rhWave h) = true ∧ rhParityOk h = true
        let spilled := fun (z : State) (t : State) => Spills z x r false t ∧ OnlySpills z t
        let buffered := y.wake.length < 4 ∧ (x.ahead ≠ 0 ∨ gone.spilledBefore r T ch (rhCol h) (rhWave h) = false)
        let behind := x.ahead = 0 ∧ y.wake ≠ []
        (s.atPlace n x = false → exec (.recordArrival n) s = .next s ∧ exec (.wakeBufferArrival n) s = .next s) ∧
        (s.atPlace n x = true → y.gate = .awake → exec (.wakeBufferArrival n) s = .next s ∧
          (behind → exec (.recordArrival n) s = .next s) ∧
          (¬ behind → ∃ t, exec (.recordArrival n) s = .next t ∧ (early → spilled gone t) ∧ (¬ early → Arrives gone x T ch (x.ahead != 0) t))) ∧
        (s.atPlace n x = true → y.gate ≠ .awake → exec (.recordArrival n) s = .next s ∧
          (rhParityOk h = false → ∃ t, exec (.wakeBufferArrival n) s = .next t ∧ DropsDamaged gone x r (T / 32) t) ∧
          (rhParityOk h = true → ∃ t, exec (.wakeBufferArrival n) s = .next t ∧ (t.tile T).gate = wakeGate y.gate ∧
            (buffered → t = gone.setTile T { y with gate := wakeGate y.gate, wake := y.wake ++ [{ x with ahead := max 1 x.ahead }] }) ∧
            (¬ buffered → spilled (gone.setTile T { y with gate := wakeGate y.gate }) t)))) ∧
      (∀ r, x.dst = .waveCtl r →
        let o := exec (.waveControlRecord n) s
        let v := (x.rc.beats.headD 0).toNat
        let c := rhCol h
        let w := rhWave h
        let counts := ∃ t, o = .next t ∧ t.transit = dropAt s.transit n ∧ t = { s with transit := t.transit, tiles := t.tiles } ∧
          lget 0 (t.tile x.cherr.1).cherr x.cherr.2 = min 0xFFFF (lget 0 (s.tile x.cherr.1).cherr x.cherr.2 + 1)
        let sound := s.atPlace n x = true ∧ rhParityOk h = true
        (s.atPlace n x = false → o = .next s) ∧
        (s.atPlace n x = true → rhParityOk h = false → ∃ t, o = .next t ∧ DropsDamaged gone x r r t) ∧
        (sound → (bits v 128 384 ≠ 0 ∨ (bits v 0 32 ≠ 1 ∧ bits v 0 32 ≠ 2) ∨ (bits v 0 32 = 1 ∧ s.poisonTarget r (bits v 96 32) c w = none)) → counts) ∧
        (∀ m, sound → bits v 128 384 = 0 → bits v 0 32 = 1 → s.poisonTarget r (bits v 96 32) c w = some m →
          m.col = c ∧ m.wave = w ∧ ∃ t, o = .next t ∧
            ((∃ l, t.transit = dropAt s.transit n ++ l) ∨
              (t.transit[n]? = some { x with applied := true } ∧ t.unpinned r c w x.sender = true)) ∧
            (x.applied = true → t.regions = s.regions) ∧
            (x.applied = false → (t.colour r c.toNat).wdog = 0 ∧
              (s.marked r m.fixed m.tile m.op c w = false → (t.region r).marks = (s.region r).marks ++ [m]))) ∧
        (sound → bits v 128 384 = 0 → bits v 0 32 = 2 →
          (∀ k, s.trappedFrame r (BitVec.ofNat 64 (bits v 32 64)) = some k → (s.frame k).lateMark = true → (s.frame k).lates = []) → ∃ u t, o = .next t ∧ Woken u t ∧ u.transit = dropAt s.transit n ∧ (u.colour r c.toNat).wdog = 0 ∧
          (∀ m, m ∈ (u.region r).marks ↔ m ∈ (s.region r).marks ∧ ¬(m.col = c ∧ m.wave = w)) ∧
          (∀ z ∈ (u.colour r c.toNat).spill, rhWave z.tr.rc.hdr = w → z.frozen = false) ∧
          ∀ k, s.trappedFrame r (BitVec.ofNat 64 (bits v 32 64)) = some k →
            (u.frame k).lateMark = false ∧ ((s.frame k).lateMark = false → (u.frame k).cont = .runnable))) ∧
      (∀ r, x.dst = .reconf r →
        let o := exec (.reconfigurationRecord n) s
        let bad := x.early = true ∨ x.rc.beats.length < 3 ∨ bits (x.rc.beats.getD 1 0).toNat 32 480 ≠ 0 ∨
          ∃ b ∈ x.rc.beats.drop 2, s.entryOk r (rcMask x.rc) b = false
        (s.atPlace n x = false → o = .next s) ∧
        (s.atPlace n x = true → rhParityOk h = false → ∃ t, o = .next t ∧ DropsDamaged gone x r r t) ∧
        (s.atPlace n x = true → rhParityOk h = true → bad → ∃ t, o = .next t ∧ Raises (dropAt s.transit n) s t r (s.partOf r) Cause.cfg ∧
          t.regions = s.regions) ∧
        (s.atPlace n x = true → rhParityOk h = true → ¬ bad → ∃ t q, o = .next t ∧ t = { s with transit := dropAt s.transit n, regions := t.regions } ∧
          (t.region r).reconfs = (s.region r).reconfs ++ [q] ∧ q.cmask = rcMask x.rc ∧ q.eff = x.rc.beats.headD 0 ∧
          q.entries.length + 2 = x.rc.beats.length ∧ ∀ j, j ≠ r → t.region j = s.region j))) ∧
    (∀ (r c n : Nat) (x : Spill), (s.colour r c).spill[n]? = some x →
      let k := s.colour r c
      let o := exec (.spillReplay r c n) s
      let one := fun (y z : Spill) => s.sameWay y.tr.dst z.tr.dst = true ∧ rhWave y.tr.rc.hdr = rhWave z.tr.rc.hdr
      let free := fun (m : Nat) (z : Spill) => s.landable r z = true ∧ ∀ y ∈ k.spill.take m, ¬ one y z
      let first := free n x ∧ ∀ (m : Nat) (y : Spill), k.spill[m]? = some y → free m y → s.replayKey r x ≤ s.replayKey r y
      (¬ first → o = .next s) ∧
      (∀ T ch, first → x.tr.dst = .slot T ch → ∃ t, o = .next t ∧ Arrives (s.setColour r c { k with spill := dropAt k.spill n }) { x.tr with ahead := 2 } T ch true t) ∧
      (∀ q m ch, first → x.tr.dst = .op q m ch → ∃ t l, o = .next t ∧ t = { s with regions := t.regions, transit := l ++ s.transit } ∧
        l.head? = some { x.tr with left := 0, waits := [], ahead := 1 } ∧
        ∀ y, y ∈ (t.colour r c).spill ↔ y ∈ k.spill ∧ ¬(one y x ∧ y.frozen = false ∧ ∃ q' m' ch', y.tr.dst = .op q' m' ch')))

/-! Fixed operators. -/

/-- spec/02 R26, R32, R37, R43, R49, R58, R59, spec/08 R162, spec/13 R276, spec/17 R337, spec/21 R419, R424, spec/22 R442: a record at a fixed
operator: one that is damaged, stale, poisoned, held at a mark or that must wait is dealt with first, whatever the kind; else the operator does what
its kind says, where it reads or writes memory once what it asks of homes outside its core has come. spec/06 R130, spec/02 R26, R31, R59, spec/08
R162, spec/21 R424, spec/22 R441, R442, spec/24 R444: an admission takes a span of waves and sends its input records, once what it asks of homes
outside its core has come; it leaves once RPW records of every channel into every exit port have been written; a memory operator's results leave in
order. The report of a damaged header follows log entries 24, 60; ALIGN of an address that is no multiple of 64, 66; a channel without a destination,
72; skip counts at fixed operators, 76; instances equal mod W and bounds, 85; streamer and boarding nodes, steer partners, conversion, islands, 11,
39, 57, 73, 86, 87: the model's choices. How a request rides the fabric, one message for each home, is the model's choice (log entry 78). -/
def Obligations.FixedOperatorEvents : Prop :=
  (∀ (s : State) (n : Nat) (x : Transit) (r k ch : Nat), s.transit[n]? = some x → x.dst = .op r k ch →
     let e := s.opEntry r k
     let h := x.rc.hdr
     let c := rhCol h
     let w := rhWave h
     let col := s.colour r c.toNat
     let gone := s.takeTransit n
     let events := [(2, exec (.exitPortRecord n) s), (3, exec (.counterNodeRecord n) s), (4, exec (.memoryOperatorRecord n) s), (5, exec (.boundaryNodeRecord n) s),
       (6, exec (.waveAdvanceRecord n) s), (7, exec (.steerRecord n) s), (8, exec (.mergeRecord n) s), (9, exec (.conversionNodeRecord n) s),
       (10, exec (.aRowRecord n) s), (11, exec (.aRowRecord n) s), (12, exec (.aRowRecord n) s), (13, exec (.remoteScratchpadRecord n) s)]
     let m : Mark := { fixed := true, op := k, col := c, wave := w }
     let stale := waveDiff w col.owc < 0 ∨ kArmed (s.colourEntry r c w) = false
     let held := s.marked r true 0 k c w = true
     let waits := s.awaitsReconf r c w = true ∨ (x.ahead = 0 ∧ ∃ y ∈ col.spill, s.sameWay y.tr.dst x.dst = true ∧ rhWave y.tr.rc.hdr = w)
     let tag := rhRtag h
     -- an uncorrectable error that an operator consumes is contained: a purge of its colour and tag, and the record
     let faults := fun (o : Outcome) (a : BitVec 8) =>
       (a ≠ Cause.uce → ∃ t, o = .next t ∧ m ∈ (t.region r).marks ∧ Raises gone.transit gone t r (s.partOf r) a) ∧
       (a = Cause.uce → ∃ u t, o = .next t ∧ (u.region r).trapv = (s.region r).trapv ∧ Raises u.transit u t r (s.partOf r) Cause.uce ∧
         ∀ y ∈ u.transit, ¬(rhCol y.rc.hdr = c ∧ rhRtag y.rc.hdr = tag ∧ ∃ k' ch', y.dst = .op r k' ch'))
     -- what a kind that reads or writes memory for the record asks of homes outside its core
     let q := State.engTrip [3, r, k, ch] r (s.partOf r) (s.opCore r k) c w tag
     let hs := s.homesOf (if oKind e = 2 then s.exitPieces x r k ch else s.memOpPieces x r k ch)
     let come := (s.tripOfKey q.who = none ∧ hs = []) ∨ ∃ y, s.tripOfKey q.who = some y ∧ y.src = q.src ∧ y.back = false ∧ s.tripDone y = true
     let answers := fun (t : State) => s.tripOfKey q.who ≠ none → Stands t q.who q.src true hs
     let acts := oKind e ≠ 0 ∧ s.atPlace n x = true ∧ rhParityOk h = true ∧ ¬ stale ∧ ¬ held ∧ rhPoison h = false ∧ ¬ waits
     (∀ i ∈ events, i.1 = oKind e →
       (s.atPlace n x = false → i.2 = .next s) ∧
       (s.atPlace n x = true → rhParityOk h = false → ∃ t, i.2 = .next t ∧
         DropsDamaged gone x r (((s.region r).coreAt (oPlace e)).getD r) t) ∧
       (s.atPlace n x = true → rhParityOk h = true →
         (stale → ∃ t, i.2 = .next t ∧ t = { gone with regions := t.regions } ∧ t.colour r c.toNat = { col with stalew := min 0xFFFF (col.stalew + 1) }) ∧
         (¬ stale → held → ∃ t, i.2 = .next t ∧ OnlySpills gone t ∧ Spills gone x r true t) ∧
         (¬ stale → ¬ held → rhPoison h = true → ∃ t, i.2 = .next t ∧ m ∈ (t.region r).marks ∧ Spills gone x r true t) ∧
         (¬ stale → ¬ held → rhPoison h = false → waits → ∃ t, i.2 = .next t ∧ OnlySpills gone t ∧ Spills gone x r false t))) ∧
     (acts → ∀ i ∈ events, i.1 = oKind e → (oKind e = 2 ∨ oKind e = 4) →
       (s.tripOfKey q.who = none → hs ≠ [] → ∃ t, i.2 = .next t ∧ OnFabric s t ∧ Stands t q.who q.src false hs) ∧
       (∀ y, s.tripOfKey q.who = some y → y.back = true ∨ s.tripDone y = false → i.2 = .next s)) ∧
     (∀ (port : Nat) (rc : Rec), (opOut e port = none → s.opSend r k port rc = s) ∧
       (∀ q, opOut e port = some q →
         let wave := rhWave rc.hdr
         let ent := s.chanOf r q (rhCol rc.hdr) wave
         let key := s.prodKey r q (rhCol rc.hdr) wave
         let k0 := State.skipCarry (lget {} (s.region r).skips key) wave (rhSkip rc.hdr).toNat
         let counted := State.skipRule k0 wave (cRpw ent) (State.skippable (cFmt ent).toNat rc.hdr rc.beats)
         let sends := fun (u : State) (skip : BitVec 8) =>
           (s.destOf r q (rhCol rc.hdr) = none → s.opSend r k port rc = u) ∧
           (∀ d, s.destOf r q (rhCol rc.hdr) = some d → ∃ y, s.opSend r k port rc = { u with transit := s.transit ++ [y] } ∧ y.dst = d ∧
             y.rc.beats = rc.beats ∧ y.rc.scales = rc.scales ∧ (rhChan y.rc.hdr).toNat = q % 64 ∧ rhCol y.rc.hdr = rhCol rc.hdr ∧
             rhWave y.rc.hdr = wave ∧ rhRtag y.rc.hdr = rhRtag rc.hdr ∧ rhKind y.rc.hdr = rhKind rc.hdr ∧ rhFmt y.rc.hdr = rhFmt rc.hdr ∧
             rhSkip y.rc.hdr = skip ∧ rhParityOk y.rc.hdr = true)
         (cSkipz ent = false → sends s (rhSkip rc.hdr)) ∧
         (cSkipz ent = true → ∃ u, u = s.setRegion r { s.region r with skips := (u.region r).skips } ∧ lget {} (u.region r).skips key = counted.1 ∧
           (∀ j, j ≠ key → lget {} (u.region r).skips j = lget {} (s.region r).skips j) ∧
           (counted.2 = none → s.opSend r k port rc = u) ∧ ∀ m, counted.2 = some m → sends u (BitVec.ofNat 8 m)))) ∧
     (acts → (oKind e = 5 → exec (.boundaryNodeRecord n) s = .next (gone.opSend r k 0 x.rc)) ∧
       (oKind e = 8 → exec (.mergeRecord n) s = .next (gone.opSend r k 0 x.rc)) ∧
       (oKind e = 11 ∨ oKind e = 12 → exec (.aRowRecord n) s = .next gone) ∧
       (oKind e = 6 →
         let w1 := w + 1
         let inside := ∃ a, s.admOf r c w = some a ∧ (w1 - a.wave).toNat < s.spanOf r a
         (inside → exec (.waveAdvanceRecord n) s = .next (gone.opSend r k 0 { x.rc with hdr := hdrSetWave h w1 }) ∧ rhWave (hdrSetWave h w1) = w1 ∧
           rhCol (hdrSetWave h w1) = c ∧ rhRtag (hdrSetWave h w1) = rhRtag h) ∧
         (¬ inside → faults (exec (.waveAdvanceRecord n) s) Cause.chan)) ∧
       (oKind e = 7 → oPort e 0 ≠ oPort e 1 →
         let y := s.nodeAt r k c w
         let o := exec (.steerRecord n) s
         let keeps := fun (u : State) (z : Node) => o = .next (u.setNode r z)
         let p := State.lane0 x.rc 0 ≠ 0
         (ch = oPort e 1 → y.dataQ = [] → keeps gone { y with predQ := y.predQ ++ [x] }) ∧
         (ch ≠ oPort e 1 → y.predQ = [] → keeps gone { y with dataQ := y.dataQ ++ [x] }) ∧
         (∀ q qs, ch = oPort e 1 → y.predQ = [] → y.dataQ = q :: qs → keeps (gone.opSend r k (if p then 0 else 1) q.rc) { y with dataQ := qs }) ∧
         (∀ q qs, ch ≠ oPort e 1 → y.dataQ = [] → y.predQ = q :: qs → keeps (gone.opSend r k (if State.lane0 q.rc 0 ≠ 0 then 0 else 1) x.rc) { y with predQ := qs })) ∧
       (oKind e = 3 →
         let o := exec (.counterNodeRecord n) s
         let y := s.nodeAt r k c w
         let trip := s.tripOf r k c w
         let sent := gone.opSend r k 0 x.rc
         let ends := fun (z : Node) (kind : Nat) => State.mkRec c z.wave z.rtag 0 2 false 0 [State.lanesBeat [kind, z.kstep, z.row]]
         let y1 : Node := { y with recs := y.recs + 1, rtag := rhRtag h }
         (2 ≤ (rhKind h).toNat → o = .next sent) ∧
         (rhKind h = 0 → y1.recs < trip.1 → o = .next (sent.setNode r y1)) ∧
         (rhKind h = 0 → trip.1 ≤ y1.recs → y.kstep + 1 < trip.2 →
           o = .next ((sent.opSend r k 1 (ends y1 1)).setNode r { y1 with recs := 0, kstep := y.kstep + 1 })) ∧
         (rhKind h = 0 → trip.1 ≤ y1.recs → trip.2 ≤ y.kstep + 1 →
           o = .next (((sent.opSend r k 1 (ends y1 1)).opSend r k 2 (ends y1 2)).setNode r { y1 with recs := 0, kstep := 0, row := y.row + 1 })) ∧
         (∀ z, rhKind h = 1 → (s.region r).nodes = [z] → z.op = k → z.col = c → 0 ≤ waveDiff z.wave w →
           let g := s.region r
           let b : Bound := { op := k, col := c, wave := some w, ks := State.lane0 x.rc 0, rows := State.lane0 x.rc 1 }
           let u := gone.setRegion r { g with bounds := g.bounds ++ [b] }
           let now := u.tripOf r k c z.wave
           (z.recs ≠ 0 → now.1 ≤ z.recs → z.kstep + 1 < now.2 →
             o = .next ((u.opSend r k 1 (ends z 1)).setNode r { z with recs := 0, kstep := z.kstep + 1 })) ∧
           ((z.recs = 0 ∨ z.recs < now.1) → (z.kstep = 0 ∨ z.kstep < now.2) → o = .next u)) ∧
         (rhKind h = 1 → (∀ z ∈ (s.region r).nodes, ¬(z.op = k ∧ z.col = c)) → ∃ t, o = .next t ∧
           (t.region r).bounds = (s.region r).bounds ++ [{ op := k, col := c, wave := some w, ks := State.lane0 x.rc 0, rows := State.lane0 x.rc 1 }] ∧
           t = { gone with regions := t.regions })) ∧
       (oKind e = 4 → come →
         let o := exec (.memoryOperatorRecord n) s
         let gva := (oP2 e + State.lane0 x.rc 0 * oP1 e) % 2 ^ 64
         let out := s.outChan r k x.rc
         let beats := if out = 0 then 0 else cBeats out
         let fine := gva % 64 = 0
         let gives := fun (u : State) (bs : List Vec) => ∃ t z, o = .next t ∧ answers t ∧
           OnFabric (u.setRegion r { u.region r with outs := (u.region r).outs ++ [{ op := k, rc := z }] }) t ∧
           z.beats = bs ∧ rhCol z.hdr = c ∧ rhWave z.hdr = w ∧ rhRtag z.hdr = rhRtag h
         (¬ fine → faults o Cause.align) ∧
         (∀ u, fine → (oP0 e).getLsbD 0 = true → State.writeBeats r (s.partOf r) (s.opCore r k) c w (rhRtag h) gva (x.rc.beats.drop 1) gone = (u, none) → gives u [0]) ∧
         (∀ u f, fine → (oP0 e).getLsbD 0 = true → State.writeBeats r (s.partOf r) (s.opCore r k) c w (rhRtag h) gva (x.rc.beats.drop 1) gone = (u, some f) →
           faults o f.1) ∧
         (∀ bs u, fine → (oP0 e).getLsbD 0 = false → State.readBeats r (s.partOf r) (s.opCore r k) c w beats gva [] gone = .ok (bs, u) → gives u bs) ∧
         (∀ f, fine → (oP0 e).getLsbD 0 = false → State.readBeats r (s.partOf r) (s.opCore r k) c w beats gva [] gone = .error f → faults o f.1)) ∧
       (oKind e = 13 →
         let o := exec (.remoteScratchpadRecord n) s
         let v := (oP0 e).toNat
         let out := s.outChan r k x.rc
         let len := if out = 0 then 0 else 64 * cBeats out
         ((s.region r).coreAt (bits v 1 4) = none → faults o Cause.perm) ∧
         (∀ core, (s.region r).coreAt (bits v 1 4) = some core →
           let off := oP2 e + State.lane0 x.rc 0 * oP1 e
           let pa := scratchPa core off
           let bs := x.rc.beats.drop 1
           let fine := off % 64 = 0
           (¬ fine → faults o Cause.align) ∧
           (fine → bit v 0 = true → (∀ i, i < bs.length → s.remoteBad r core (pa + 64 * i) 64 true = none ∧ s.forward (pa + 64 * i) = pa + 64 * i) →
             ∃ u t, o = .next t ∧ Woken u t ∧ (∀ i b, bs[i]? = some b → mread u.mem (pa + 64 * i) 64 = b.toNat) ∧
               (∀ a, a < pa ∨ pa + 64 * bs.length ≤ a → mget u.mem a = mget s.mem a) ∧ (∀ i, i < 16 * bs.length → u.feOf (pa + 4 * i) = 1) ∧
               ∃ z, (u.region r).outs = (s.region r).outs ++ [z] ∧ z.op = k ∧ z.rc.beats = [0]) ∧
           (∀ a, fine → bit v 0 = true → bs ≠ [] → s.remoteBad r core pa 64 true = some a → faults o a) ∧
           (fine → bit v 0 = false → s.remoteBad r core pa len false = none → s.allWords pa len 1 = false → o = .next s) ∧
           (fine → bit v 0 = false → s.remoteBad r core pa len false = none → s.allWords pa len 1 = true → ∃ t z, o = .next t ∧
             (t.region r).outs = (s.region r).outs ++ [z] ∧ z.op = k ∧ z.rc.beats.length = len / 64 ∧ KeepsMem s t ∧
             ∀ i, i < len / 64 → z.rc.beats[i]? = some (BitVec.ofNat 512 (mread s.mem (pa + 64 * i) 64))) ∧
           (∀ a, fine → bit v 0 = false → s.remoteBad r core pa len false = some a → faults o a))) ∧
       (oKind e = 9 →
         let o := exec (.conversionNodeRecord n) s
         let inp := s.chanOf r ch c w
         let T := (s.chanTile r ch).getD 0
         let refused := ∃ t, o = .next t ∧ Raises gone.transit gone t r (s.partOf r) Cause.chan ∧
           ∃ z ∈ (t.region r).marks, z.fixed = false ∧ z.tile = T ∧ z.op = (cISlot inp).toNat ∧ z.col = c ∧ z.wave = w
         (s.convElems r e x.rc (cFmt inp).toNat = none → refused) ∧
         (∀ ty l, s.convElems r e x.rc (cFmt inp).toNat = some (ty, l) →
           let bs := packBeats ty.width (l.length + 1) l
           (cBeats inp < bs.length → refused) ∧
           (bs.length ≤ cBeats inp → ∃ y, o = .next { gone with transit := y :: gone.transit } ∧ y.dst = .slot T ch ∧ y.rc.beats = bs ∧ rhFmt y.rc.hdr = cFmt inp ∧
             rhWave y.rc.hdr = w ∧ rhCol y.rc.hdr = c ∧ rhRtag y.rc.hdr = rhRtag h ∧ rhKind y.rc.hdr = rhKind h ∧ rhParityOk y.rc.hdr = true))) ∧
       (oKind e = 10 →
         let o := exec (.aRowRecord n) s
         let mine := (s.islandsOf r k).filter (fun i => (lget? (s.island i.1 i.2).fill c.toNat).isSome)
         let sk := if cSkipz (s.chanOf r ch c w) then (rhSkip h).toNat else 0
         let tooMany := x.rc.beats.length ≠ 4 ∨ ∃ i ∈ mine, 128 ≤ (lget (0, 0) (s.island i.1 i.2).fill c.toNat).2 + sk
         (mine = [] → ∃ t, o = .next t ∧ OnlySpills gone t ∧ Spills gone x r false t) ∧ (mine ≠ [] → tooMany → faults o Cause.chan) ∧
         (mine ≠ [] → ¬ tooMany → mine.Nodup → ∃ t, o = .next t ∧ t = { gone with cores := t.cores } ∧ ∀ i ∈ mine, ∀ slot row,
           lget? (s.island i.1 i.2).fill c.toNat = some (slot, row) →
             lget? (t.island i.1 i.2).aRows (slot * 128 + row + sk) = some { rtag := rhRtag h, col := c, data := x.rc.beats } ∧
             (∀ j, j < sk → lget? (t.island i.1 i.2).aRows (slot * 128 + row + j) = some { skip := true, rtag := rhRtag h, col := c }) ∧
             lget? (t.island i.1 i.2).fill c.toNat = some (slot, row + sk + 1) ∧
             ∀ j, j < slot * 128 + row ∨ slot * 128 + row + sk < j → lget? (t.island i.1 i.2).aRows j = lget? (s.island i.1 i.2).aRows j)) ∧
       (oKind e = 2 → come →
         let o := exec (.exitPortRecord n) s
         let inp := s.chanOf r ch c w
         let skipped := if cSkipz inp then (rhSkip h).toNat else 0
         let zeros : List Vec := List.replicate (skipped * cBeats inp) 0
         -- beats that stand for some records of the channel: written at the admission's place, or refused
         let puts := fun (a : Adm) (l : Launch) (bs : List Vec) (recs : Nat) (f : State → Prop) =>
           let fits := a.left = false ∧ lget 0 a.wrote ch + recs ≤ cRpw inp ∧ a.bytes + 64 * bs.length ≤ l.outstride
           let ends := fun (u : State) (cause : BitVec 8) => ∃ t, o = .next t ∧ OnFabric (u.endLaunch r c tag cause) t
           (¬ fits → ends gone Cause.chan) ∧
           (fits → ∀ u res, State.writeBeats r (s.partOf r) (s.opCore r k) c w tag (l.outptr.toNat + a.idx * l.outstride + a.bytes) bs gone = (u, res) →
             (∀ g, res = some g → ends u g.1) ∧
             (res = none → ∃ t, o = .next t ∧ answers t ∧ OnFabric { u with regions := t.regions } t ∧ f t ∧
               (t.region r).adms = (u.region r).adms.map (fun b =>
                 if b.col = c ∧ b.wave = a.wave then { b with wrote := lset b.wrote ch (lget 0 a.wrote ch + recs), bytes := b.bytes + 64 * bs.length } else b)))
         let sent := fun (i : Nat) (t : State) => ∀ pdev ports mac pep, s.peerAt (s.colourEntry r c w) i = some (pdev, ports, mac, pep) →
           let d := s.opCore r k / 16
           ∃ z ∈ (t.fab d).msgs, z.num = s.nextId ∧ z.cls = 5 ∧ z.peer = pdev ∧ z.ports = ports ∧ z.mac = mac ∧ z.pep = pep ∧ z.region = some r ∧
             z.payload = x.rc.beats ∧ z.bytes = 64 * x.rc.beats.length ∧ z.wave = w ∧ z.col = c ∧ z.rtag = tag ∧ z.retx = false ∧ z.sentAt = s.now ∧
             z.src = d * 512 + s.opCore r k % 16
         (∀ a l, s.admOf r c w = some a → (s.region r).launches.find? (fun l => l.id == a.launch) = some l →
           (x.peer = none → puts a l (zeros ++ x.rc.beats) (skipped + 1) (fun _ => True)) ∧
           (∀ i, x.peer = some i → s.peerAt (s.colourEntry r c w) i ≠ none → skipped ≠ 0 → puts a l zeros skipped (sent i))) ∧
         (x.peer = none → s.admOf r c w = none → ∃ t, o = .next t ∧ OnFabric (gone.endLaunch r c tag Cause.chan) t) ∧
         (∀ i, x.peer = some i → s.peerAt (s.colourEntry r c w) i ≠ none → skipped = 0 → s.tripOfKey q.who = none →
           ∃ t z, o = .next t ∧ sent i t ∧ t = { gone with fabric := t.fabric, flights := t.flights, nextId := s.nextId + 1 } ∧
             (t.fab (s.opCore r k / 16)).msgs = (s.fab (s.opCore r k / 16)).msgs ++ [z] ∧ t.flights.length = s.flights.length + (z.frags false).length)))) ∧
  (∀ (s : State) (r : Nat),
     (∀ c : BitVec 5,
       let k := s.colour r c.toNat
       let o := exec (.admission r c.toNat) s
       let open_ := (s.region r).st = 2 ∧ kArmed (s.colourEntry r c k.nxw) = true ∧ s.regionRuns r = true ∧ s.isFrozen r c = false ∧ k.livea < k.q ∧
         s.portsOpen r c = true ∧ s.awaitsReconf r c k.nxw = false
       let ins := s.inputs r c k.nxw
       -- what an admission of a launch asks of homes outside its core
       let gva := fun (l : Launch) => l.inptr.toNat + l.admitted * l.instride
       let q := fun (l : Launch) => State.engTrip [2, r, c.toNat] r (s.partOf r) ((ins.head?.map (fun i => i.1)).getD r) c k.nxw l.rtag
       let hs := fun (l : Launch) => s.homesOf (s.inputPieces r c k.nxw ins (gva l))
       let come := fun (l : Launch) => (s.tripOfKey (q l).who = none ∧ hs l = []) ∨
         ∃ y, s.tripOfKey (q l).who = some y ∧ y.src = (q l).src ∧ y.back = false ∧ s.tripDone y = true
       let answers := fun (l : Launch) (t : State) => s.tripOfKey (q l).who ≠ none → Stands t (q l).who (q l).src true (hs l)
       (s.nextLaunch r c = none ∨ ¬ open_ → o = .next s) ∧
       (∀ l, s.nextLaunch r c = some l → open_ →
         (s.tripOfKey (q l).who = none → hs l ≠ [] → ∃ t, o = .next t ∧ OnFabric s t ∧ Stands t (q l).who (q l).src false (hs l)) ∧
         (∀ y, s.tripOfKey (q l).who = some y → y.back = true ∨ s.tripDone y = false → o = .next s)) ∧
       (∀ l, s.nextLaunch r c = some l → open_ → come l → ∃ u, u = { s with regions := u.regions } ∧
         u.colour r c.toNat = { k with nxw := k.nxw + BitVec.ofNat 16 (s.ws r), livea := k.livea + 1, q := (u.colour r c.toNat).q } ∧
         ((s.region r).reconfs = [] → (u.colour r c.toNat).q = k.q) ∧
         (u.region r).adms = (s.region r).adms ++ [{ launch := l.id, idx := l.admitted, col := c, wave := k.nxw, rtag := l.rtag }] ∧
         (u.region r).launches = (s.region r).launches.map (fun y => if y.id = l.id then { y with admitted := y.admitted + 1 } else y) ∧
         (∀ j, j ≠ r → u.region j = s.region j) ∧ (∀ j, j ≠ c.toNat → u.colour r j = s.colour r j) ∧
         (let sent := State.sendInputs r c k.nxw l.rtag ins (gva l) u
          (ins = [] → ∃ t, o = .next t ∧ OnFabric u t) ∧ (∀ v, sent = (v, none) → ∃ t, o = .next t ∧ OnFabric v t ∧ answers l t) ∧
          ∀ v f, sent = (v, some f) → (f.1 ≠ Cause.uce → ∃ t, o = .next t ∧ OnFabric (v.endLaunch r c l.rtag f.1) t) ∧
            (f.1 = Cause.uce → ∃ w t, o = .next t ∧ (w.region r).trapv = (s.region r).trapv ∧ Raises w.transit w t r (s.partOf r) Cause.uce ∧
              ∀ y ∈ w.transit, ¬(rhCol y.rc.hdr = c ∧ rhRtag y.rc.hdr = l.rtag ∧ ∃ k' ch', y.dst = .op r k' ch')))) ∧
       (∀ l core ch n bs u d, s.nextLaunch r c = some l → open_ → come l → ins = [(core, ch, n)] → cSkipz (s.chanOf r ch c k.nxw) = false →
         State.readBeats r (s.partOf r) core c k.nxw n (gva l) [] s = .ok (bs, u) → s.destOf r ch c = some d →
         ∃ t y, o = .next t ∧ t.transit = s.transit ++ [y] ∧ y.dst = d ∧ y.rc.beats = bs ∧ rhCol y.rc.hdr = c ∧ rhWave y.rc.hdr = k.nxw ∧ rhRtag y.rc.hdr = l.rtag ∧
           rhPoison y.rc.hdr = false ∧ (t.colour r c.toNat).livea = k.livea + 1 ∧
           (t.region r).adms = (s.region r).adms ++ [{ launch := l.id, idx := l.admitted, col := c, wave := k.nxw, rtag := l.rtag }])) ∧
     (∀ (k : Nat) (a : Adm), (s.region r).adms[k]? = some a →
       let outs := s.outputs r a.col a.wave
       let poisoned := ∃ m ∈ (s.region r).marks, m.col = a.col ∧ (m.wave - a.wave).toNat < s.ws r
       let whole := outs ≠ [] ∧ ∀ i ∈ outs, cRpw i.2 ≤ lget 0 a.wrote i.1
       (a.left = false → ¬ poisoned → whole →
         exec (.exitAdmissionLeave r k) s = .next (s.setRegion r { s.region r with adms := setAt (s.region r).adms k { a with left := true } })) ∧
       (a.left = true ∨ poisoned ∨ ¬ whole → exec (.exitAdmissionLeave r k) s = .next s)) ∧
     (∀ (k : Nat) (x : OpOut), (s.region r).outs[k]? = some x →
       let first := ∀ y ∈ (s.region r).outs.take k, y.op ≠ x.op
       (first → exec (.memoryOperatorResult r k) s =
         .next ((s.setRegion r { s.region r with outs := dropAt (s.region r).outs k }).opSend r x.op 0 x.rc)) ∧
       (¬ first → exec (.memoryOperatorResult r k) s = .next s)))
end

