-- ==== Sys2Proof/Laws/Store.lean ====
section
/-!
SUPPORT. Laws/Store.lean: what the operations of Machine/Store.lean do: reading after writing a table or memory, and that every
memory operation keeps the canonical form.
-/

namespace Sys2Proof.Machine

theorem lget?_lset {α : Type} (m : SMap α) (k j : Nat) (v : α) :
    lget? (lset m k v) j = if j = k then some v else lget? m j := by
  induction m with
  | nil => simp [lset, lget?, eq_comm]
  | cons e m ih =>
    obtain ⟨i, w⟩ := e
    simp only [lset]
    split
    · simp only [lget?, eq_comm (a := k)]
    · split
      · subst_vars; simp only [lget?, eq_comm (a := i)]; split <;> rfl
      · simp only [lget?, ih]
        split <;> split <;> simp_all

@[simp] theorem lget?_lset_same {α : Type} (m : SMap α) (k : Nat) (v : α) : lget? (lset m k v) k = some v := by
  simp [lget?_lset]

theorem lget?_lset_other {α : Type} (m : SMap α) {k j : Nat} (v : α) (h : j ≠ k) : lget? (lset m k v) j = lget? m j := by
  simp [lget?_lset, h]

theorem lget_lset {α : Type} (d : α) (m : SMap α) (k j : Nat) (v : α) :
    lget d (lset m k v) j = if j = k then v else lget d m j := by
  simp only [lget, lget?_lset]; split <;> rfl

@[simp] theorem lget_lset_same {α : Type} (d : α) (m : SMap α) (k : Nat) (v : α) : lget d (lset m k v) k = v := by
  simp [lget_lset]

theorem lget_lset_other {α : Type} (d : α) (m : SMap α) {k j : Nat} (v : α) (h : j ≠ k) :
    lget d (lset m k v) j = lget d m j := by
  simp [lget_lset, h]

theorem lget?_ldel {α : Type} (m : SMap α) (k j : Nat) : lget? (ldel m k) j = if j = k then none else lget? m j := by
  induction m with
  | nil => simp [ldel, lget?]
  | cons e m ih =>
    obtain ⟨i, w⟩ := e
    simp only [ldel, List.filter] at ih ⊢
    by_cases h : i = k
    · subst h; simp only [bne_self_eq_false, lget?, ih, eq_comm (a := i)]; split <;> rfl
    · have : (i != k) = true := by simp [h]
      simp only [this, lget?, ih]
      split <;> split <;> simp_all

theorem mget_mput (m : List Host.Cell) (a b : Nat) (v : Byte) : mget (mput m a v) b = if b = a then v else mget m b := by
  simp only [mget, mput, lget]
  split
  · rename_i h; rw [lget?_ldel]; split <;> simp [h]
  · rw [lget?_lset]; split <;> simp

@[simp] theorem mget_mput_same (m : List Host.Cell) (a : Nat) (v : Byte) : mget (mput m a v) a = v := by simp [mget_mput]

theorem mget_mput_other (m : List Host.Cell) {a b : Nat} (v : Byte) (h : b ≠ a) : mget (mput m a v) b = mget m b := by
  simp [mget_mput, h]

/-- A write of several bytes changes the bytes it covers only. -/
theorem mget_mwrite_other (n : Nat) (m : List Host.Cell) (a v b : Nat) (h : b < a ∨ a + n ≤ b) :
    mget (mwrite m a n v) b = mget m b := by
  induction n generalizing m a v with
  | zero => rfl
  | succ n ih =>
    simp only [mwrite]
    rw [ih _ _ _ (by omega), mget_mput_other _ _ (by omega)]

/-- Byte i of a write of several bytes. -/
theorem mget_mwrite (n : Nat) (m : List Host.Cell) (a v i : Nat) (h : i < n) :
    mget (mwrite m a n v) (a + i) = BitVec.ofNat 8 (v / 256 ^ i) := by
  induction n generalizing m a v i with
  | zero => omega
  | succ n ih =>
    simp only [mwrite]
    cases i with
    | zero => rw [Nat.add_zero, mget_mwrite_other _ _ _ _ _ (by omega)]; simp
    | succ i =>
      have := ih (mput m a (BitVec.ofNat 8 v)) (a + 1) (v / 256) i (by omega)
      rw [show a + (i + 1) = a + 1 + i by omega, this, Nat.div_div_eq_div_mul, Nat.pow_succ, Nat.mul_comm 256]

theorem mread_mwrite_other (k : Nat) (m : List Host.Cell) (a n v b : Nat) (h : b + k ≤ a ∨ a + n ≤ b) :
    mread (mwrite m a n v) b k = mread m b k := by
  induction k generalizing b with
  | zero => rfl
  | succ k ih => simp only [mread]; rw [mget_mwrite_other _ _ _ _ _ (by omega), ih _ (by omega)]

/-- Reading back what was written (spec/00 R5). -/
theorem mread_mwrite_same (n : Nat) (m : List Host.Cell) (a v : Nat) : mread (mwrite m a n v) a n = v % 256 ^ n := by
  induction n generalizing m a v with
  | zero => simp [mread, Nat.mod_one]
  | succ n ih =>
    simp only [mread, mwrite]
    rw [mget_mwrite_other _ _ _ _ _ (by omega), ih, mget_mput_same, BitVec.toNat_ofNat]
    rw [show 256 ^ (n + 1) = 256 * 256 ^ n by rw [Nat.pow_succ, Nat.mul_comm], Nat.mod_mul]

/-! The canonical form. -/

theorem mem_lset {α : Type} {m : SMap α} {k : Nat} {v : α} {e : Nat × α} (h : e ∈ lset m k v) : e = (k, v) ∨ e ∈ m := by
  induction m with
  | nil => simpa [lset] using h
  | cons x m ih =>
    obtain ⟨j, w⟩ := x
    simp only [lset] at h
    split at h
    · simpa using h
    · split at h
      · rcases List.mem_cons.mp h with h | h <;> simp_all
      · rcases List.mem_cons.mp h with h | h
        · simp_all
        · rcases ih h with h | h <;> simp_all

theorem lset_sorted {α : Type} {m : SMap α} (k : Nat) (v : α) (h : m.Pairwise (fun a b => a.1 < b.1)) :
    (lset m k v).Pairwise (fun a b => a.1 < b.1) := by
  induction m with
  | nil => simp [lset]
  | cons x m ih =>
    obtain ⟨j, w⟩ := x
    obtain ⟨h1, h2⟩ := List.pairwise_cons.mp h
    simp only [lset]
    split
    · rename_i hk
      refine List.pairwise_cons.mpr ⟨fun e he => ?_, h⟩
      rcases List.mem_cons.mp he with he | he
      · subst he; exact hk
      · exact Nat.lt_trans hk (h1 e he)
    · split
      · rename_i hk; subst hk; exact List.pairwise_cons.mpr ⟨h1, h2⟩
      · refine List.pairwise_cons.mpr ⟨fun e he => ?_, ih h2⟩
        rcases mem_lset he with he | he
        · subst he; show j < k; omega
        · exact h1 e he

theorem Memory.wf_nil : Memory.wf [] := by simp [Memory.wf]

theorem Memory.wf_filter {m : List Host.Cell} (f : Host.Cell → Bool) (h : Memory.wf m) : Memory.wf (m.filter f) :=
  ⟨h.1.sublist List.filter_sublist, fun e he => h.2 e (List.mem_filter.mp he).1⟩

theorem Memory.wf_mput {m : List Host.Cell} (a : Nat) (v : Byte) (h : Memory.wf m) : Memory.wf (mput m a v) := by
  unfold mput
  split
  · exact Memory.wf_filter _ h
  · rename_i hv
    refine ⟨lset_sorted _ _ h.1, fun e he => ?_⟩
    rcases mem_lset he with he | he
    · subst he; exact hv
    · exact h.2 e he

theorem Memory.wf_mwrite (n : Nat) {m : List Host.Cell} (a v : Nat) (h : Memory.wf m) : Memory.wf (mwrite m a n v) := by
  induction n generalizing m a v with
  | zero => exact h
  | succ n ih => exact ih _ _ (Memory.wf_mput _ _ h)

theorem Memory.wf_mfill (n : Nat) {m : List Host.Cell} (a : Nat) (v : Byte) (h : Memory.wf m) : Memory.wf (mfill m a v n) := by
  induction n generalizing m a with
  | zero => exact h
  | succ n ih => exact ih _ (Memory.wf_mput _ _ h)

theorem Memory.wf_mbytes (bs : List Byte) {m : List Host.Cell} (a : Nat) (h : Memory.wf m) : Memory.wf (mbytes m a bs) := by
  induction bs generalizing m a with
  | nil => exact h
  | cons b bs ih => exact ih _ (Memory.wf_mput _ _ h)

theorem Memory.wf_mscrub {m : List Host.Cell} (a n : Nat) (h : Memory.wf m) : Memory.wf (mscrub m a n) := Memory.wf_filter _ h

/-- Any fold of writes keeps the canonical form. -/
theorem Memory.wf_foldl {β : Type} (l : List β) (f : β → Nat) (g : β → Byte) {m : List Host.Cell} (h : Memory.wf m) :
    Memory.wf (l.foldl (fun acc e => mput acc (f e) (g e)) m) := by
  induction l generalizing m with
  | nil => exact h
  | cons x l ih => exact ih (Memory.wf_mput _ _ h)

theorem Memory.wf_mcopy {m : List Host.Cell} (a b n : Nat) (h : Memory.wf m) : Memory.wf (mcopy m a b n) :=
  Memory.wf_foldl _ _ _ (Memory.wf_mscrub _ _ h)

end Sys2Proof.Machine
end

