-- ==== Sys2Proof/Laws/State.lean ====
section
/-!
SUPPORT. Laws/State.lean: one lemma per field per update of State, so that no proof unfolds a record update, and what the accessors
read after an update.
-/

namespace Sys2Proof.Machine

@[simp] theorem State.setCtx_focus (s : State) (k : Nat) (c : Ctx) : (s.setCtx k c).focus = s.focus := rfl
@[simp] theorem State.setCtx_agenda (s : State) (k : Nat) (c : Ctx) : (s.setCtx k c).agenda = s.agenda := rfl
@[simp] theorem State.setCtx_turn (s : State) (k : Nat) (c : Ctx) : (s.setCtx k c).turn = s.turn := rfl
@[simp] theorem State.setCtx_now (s : State) (k : Nat) (c : Ctx) : (s.setCtx k c).now = s.now := rfl
@[simp] theorem State.setCtx_nextId (s : State) (k : Nat) (c : Ctx) : (s.setCtx k c).nextId = s.nextId := rfl
@[simp] theorem State.setCtx_free (s : State) (k : Nat) (c : Ctx) : (s.setCtx k c).free = s.free := rfl
@[simp] theorem State.setCtx_fwRead (s : State) (k : Nat) (c : Ctx) : (s.setCtx k c).fwRead = s.fwRead := rfl
@[simp] theorem State.setCtx_frames (s : State) (k : Nat) (c : Ctx) : (s.setCtx k c).frames = s.frames := rfl
@[simp] theorem State.setCtx_tiles (s : State) (k : Nat) (c : Ctx) : (s.setCtx k c).tiles = s.tiles := rfl
@[simp] theorem State.setCtx_cores (s : State) (k : Nat) (c : Ctx) : (s.setCtx k c).cores = s.cores := rfl
@[simp] theorem State.setCtx_regions (s : State) (k : Nat) (c : Ctx) : (s.setCtx k c).regions = s.regions := rfl
@[simp] theorem State.setCtx_parts (s : State) (k : Nat) (c : Ctx) : (s.setCtx k c).parts = s.parts := rfl
@[simp] theorem State.setCtx_cyc (s : State) (k : Nat) (c : Ctx) : (s.setCtx k c).cyc = s.cyc := rfl
@[simp] theorem State.setCtx_mem (s : State) (k : Nat) (c : Ctx) : (s.setCtx k c).mem = s.mem := rfl
@[simp] theorem State.setCtx_tmem (s : State) (k : Nat) (c : Ctx) : (s.setCtx k c).tmem = s.tmem := rfl
@[simp] theorem State.setCtx_fe (s : State) (k : Nat) (c : Ctx) : (s.setCtx k c).fe = s.fe := rfl
@[simp] theorem State.setCtx_uce (s : State) (k : Nat) (c : Ctx) : (s.setCtx k c).uce = s.uce := rfl
@[simp] theorem State.setCtx_lines (s : State) (k : Nat) (c : Ctx) : (s.setCtx k c).lines = s.lines := rfl
@[simp] theorem State.setCtx_reveals (s : State) (k : Nat) (c : Ctx) : (s.setCtx k c).reveals = s.reveals := rfl
@[simp] theorem State.setCtx_pages (s : State) (k : Nat) (c : Ctx) : (s.setCtx k c).pages = s.pages := rfl
@[simp] theorem State.setCtx_accesses (s : State) (k : Nat) (c : Ctx) : (s.setCtx k c).accesses = s.accesses := rfl
@[simp] theorem State.setCtx_replies (s : State) (k : Nat) (c : Ctx) : (s.setCtx k c).replies = s.replies := rfl
@[simp] theorem State.setCtx_walks (s : State) (k : Nat) (c : Ctx) : (s.setCtx k c).walks = s.walks := rfl
@[simp] theorem State.setCtx_transit (s : State) (k : Nat) (c : Ctx) : (s.setCtx k c).transit = s.transit := rfl
@[simp] theorem State.setCtx_migs (s : State) (k : Nat) (c : Ctx) : (s.setCtx k c).migs = s.migs := rfl
@[simp] theorem State.setCtx_forks (s : State) (k : Nat) (c : Ctx) : (s.setCtx k c).forks = s.forks := rfl
@[simp] theorem State.setCtx_ring (s : State) (k : Nat) (c : Ctx) : (s.setCtx k c).ring = s.ring := rfl
@[simp] theorem State.setCtx_fabric (s : State) (k : Nat) (c : Ctx) : (s.setCtx k c).fabric = s.fabric := rfl
@[simp] theorem State.setCtx_flights (s : State) (k : Nat) (c : Ctx) : (s.setCtx k c).flights = s.flights := rfl
@[simp] theorem State.setCtx_queues (s : State) (k : Nat) (c : Ctx) : (s.setCtx k c).queues = s.queues := rfl
@[simp] theorem State.setCtx_vmids (s : State) (k : Nat) (c : Ctx) : (s.setCtx k c).vmids = s.vmids := rfl
@[simp] theorem State.setCtx_ownCore (s : State) (k : Nat) (c : Ctx) : (s.setCtx k c).ownCore = s.ownCore := rfl
@[simp] theorem State.setCtx_ownSlice (s : State) (k : Nat) (c : Ctx) : (s.setCtx k c).ownSlice = s.ownSlice := rfl
@[simp] theorem State.setCtx_ownSram (s : State) (k : Nat) (c : Ctx) : (s.setCtx k c).ownSram = s.ownSram := rfl
@[simp] theorem State.setCtx_hub (s : State) (k : Nat) (c : Ctx) : (s.setCtx k c).hub = s.hub := rfl
@[simp] theorem State.setCtx_purges (s : State) (k : Nat) (c : Ctx) : (s.setCtx k c).purges = s.purges := rfl
@[simp] theorem State.setCtx_dropped (s : State) (k : Nat) (c : Ctx) : (s.setCtx k c).dropped = s.dropped := rfl
@[simp] theorem State.setCtx_answers (s : State) (k : Nat) (c : Ctx) : (s.setCtx k c).answers = s.answers := rfl
@[simp] theorem State.setCtx_trips (s : State) (k : Nat) (c : Ctx) : (s.setCtx k c).trips = s.trips := rfl

@[simp] theorem State.setFrame_focus (s : State) (k : Nat) (f : Frame) : (s.setFrame k f).focus = s.focus := rfl
@[simp] theorem State.setFrame_agenda (s : State) (k : Nat) (f : Frame) : (s.setFrame k f).agenda = s.agenda := rfl
@[simp] theorem State.setFrame_turn (s : State) (k : Nat) (f : Frame) : (s.setFrame k f).turn = s.turn := rfl
@[simp] theorem State.setFrame_now (s : State) (k : Nat) (f : Frame) : (s.setFrame k f).now = s.now := rfl
@[simp] theorem State.setFrame_nextId (s : State) (k : Nat) (f : Frame) : (s.setFrame k f).nextId = s.nextId := rfl
@[simp] theorem State.setFrame_free (s : State) (k : Nat) (f : Frame) : (s.setFrame k f).free = s.free := rfl
@[simp] theorem State.setFrame_fwRead (s : State) (k : Nat) (f : Frame) : (s.setFrame k f).fwRead = s.fwRead := rfl
@[simp] theorem State.setFrame_ctxs (s : State) (k : Nat) (f : Frame) : (s.setFrame k f).ctxs = s.ctxs := rfl
@[simp] theorem State.setFrame_tiles (s : State) (k : Nat) (f : Frame) : (s.setFrame k f).tiles = s.tiles := rfl
@[simp] theorem State.setFrame_cores (s : State) (k : Nat) (f : Frame) : (s.setFrame k f).cores = s.cores := rfl
@[simp] theorem State.setFrame_regions (s : State) (k : Nat) (f : Frame) : (s.setFrame k f).regions = s.regions := rfl
@[simp] theorem State.setFrame_parts (s : State) (k : Nat) (f : Frame) : (s.setFrame k f).parts = s.parts := rfl
@[simp] theorem State.setFrame_cyc (s : State) (k : Nat) (f : Frame) : (s.setFrame k f).cyc = s.cyc := rfl
@[simp] theorem State.setFrame_mem (s : State) (k : Nat) (f : Frame) : (s.setFrame k f).mem = s.mem := rfl
@[simp] theorem State.setFrame_tmem (s : State) (k : Nat) (f : Frame) : (s.setFrame k f).tmem = s.tmem := rfl
@[simp] theorem State.setFrame_fe (s : State) (k : Nat) (f : Frame) : (s.setFrame k f).fe = s.fe := rfl
@[simp] theorem State.setFrame_uce (s : State) (k : Nat) (f : Frame) : (s.setFrame k f).uce = s.uce := rfl
@[simp] theorem State.setFrame_lines (s : State) (k : Nat) (f : Frame) : (s.setFrame k f).lines = s.lines := rfl
@[simp] theorem State.setFrame_reveals (s : State) (k : Nat) (f : Frame) : (s.setFrame k f).reveals = s.reveals := rfl
@[simp] theorem State.setFrame_pages (s : State) (k : Nat) (f : Frame) : (s.setFrame k f).pages = s.pages := rfl
@[simp] theorem State.setFrame_accesses (s : State) (k : Nat) (f : Frame) : (s.setFrame k f).accesses = s.accesses := rfl
@[simp] theorem State.setFrame_replies (s : State) (k : Nat) (f : Frame) : (s.setFrame k f).replies = s.replies := rfl
@[simp] theorem State.setFrame_walks (s : State) (k : Nat) (f : Frame) : (s.setFrame k f).walks = s.walks := rfl
@[simp] theorem State.setFrame_transit (s : State) (k : Nat) (f : Frame) : (s.setFrame k f).transit = s.transit := rfl
@[simp] theorem State.setFrame_migs (s : State) (k : Nat) (f : Frame) : (s.setFrame k f).migs = s.migs := rfl
@[simp] theorem State.setFrame_forks (s : State) (k : Nat) (f : Frame) : (s.setFrame k f).forks = s.forks := rfl
@[simp] theorem State.setFrame_ring (s : State) (k : Nat) (f : Frame) : (s.setFrame k f).ring = s.ring := rfl
@[simp] theorem State.setFrame_fabric (s : State) (k : Nat) (f : Frame) : (s.setFrame k f).fabric = s.fabric := rfl
@[simp] theorem State.setFrame_flights (s : State) (k : Nat) (f : Frame) : (s.setFrame k f).flights = s.flights := rfl
@[simp] theorem State.setFrame_queues (s : State) (k : Nat) (f : Frame) : (s.setFrame k f).queues = s.queues := rfl
@[simp] theorem State.setFrame_vmids (s : State) (k : Nat) (f : Frame) : (s.setFrame k f).vmids = s.vmids := rfl
@[simp] theorem State.setFrame_ownCore (s : State) (k : Nat) (f : Frame) : (s.setFrame k f).ownCore = s.ownCore := rfl
@[simp] theorem State.setFrame_ownSlice (s : State) (k : Nat) (f : Frame) : (s.setFrame k f).ownSlice = s.ownSlice := rfl
@[simp] theorem State.setFrame_ownSram (s : State) (k : Nat) (f : Frame) : (s.setFrame k f).ownSram = s.ownSram := rfl
@[simp] theorem State.setFrame_hub (s : State) (k : Nat) (f : Frame) : (s.setFrame k f).hub = s.hub := rfl
@[simp] theorem State.setFrame_purges (s : State) (k : Nat) (f : Frame) : (s.setFrame k f).purges = s.purges := rfl
@[simp] theorem State.setFrame_dropped (s : State) (k : Nat) (f : Frame) : (s.setFrame k f).dropped = s.dropped := rfl
@[simp] theorem State.setFrame_answers (s : State) (k : Nat) (f : Frame) : (s.setFrame k f).answers = s.answers := rfl
@[simp] theorem State.setFrame_trips (s : State) (k : Nat) (f : Frame) : (s.setFrame k f).trips = s.trips := rfl

@[simp] theorem State.setTile_focus (s : State) (t : Nat) (x : Tile) : (s.setTile t x).focus = s.focus := rfl
@[simp] theorem State.setTile_agenda (s : State) (t : Nat) (x : Tile) : (s.setTile t x).agenda = s.agenda := rfl
@[simp] theorem State.setTile_turn (s : State) (t : Nat) (x : Tile) : (s.setTile t x).turn = s.turn := rfl
@[simp] theorem State.setTile_now (s : State) (t : Nat) (x : Tile) : (s.setTile t x).now = s.now := rfl
@[simp] theorem State.setTile_nextId (s : State) (t : Nat) (x : Tile) : (s.setTile t x).nextId = s.nextId := rfl
@[simp] theorem State.setTile_free (s : State) (t : Nat) (x : Tile) : (s.setTile t x).free = s.free := rfl
@[simp] theorem State.setTile_fwRead (s : State) (t : Nat) (x : Tile) : (s.setTile t x).fwRead = s.fwRead := rfl
@[simp] theorem State.setTile_ctxs (s : State) (t : Nat) (x : Tile) : (s.setTile t x).ctxs = s.ctxs := rfl
@[simp] theorem State.setTile_frames (s : State) (t : Nat) (x : Tile) : (s.setTile t x).frames = s.frames := rfl
@[simp] theorem State.setTile_cores (s : State) (t : Nat) (x : Tile) : (s.setTile t x).cores = s.cores := rfl
@[simp] theorem State.setTile_regions (s : State) (t : Nat) (x : Tile) : (s.setTile t x).regions = s.regions := rfl
@[simp] theorem State.setTile_parts (s : State) (t : Nat) (x : Tile) : (s.setTile t x).parts = s.parts := rfl
@[simp] theorem State.setTile_cyc (s : State) (t : Nat) (x : Tile) : (s.setTile t x).cyc = s.cyc := rfl
@[simp] theorem State.setTile_mem (s : State) (t : Nat) (x : Tile) : (s.setTile t x).mem = s.mem := rfl
@[simp] theorem State.setTile_tmem (s : State) (t : Nat) (x : Tile) : (s.setTile t x).tmem = s.tmem := rfl
@[simp] theorem State.setTile_fe (s : State) (t : Nat) (x : Tile) : (s.setTile t x).fe = s.fe := rfl
@[simp] theorem State.setTile_uce (s : State) (t : Nat) (x : Tile) : (s.setTile t x).uce = s.uce := rfl
@[simp] theorem State.setTile_lines (s : State) (t : Nat) (x : Tile) : (s.setTile t x).lines = s.lines := rfl
@[simp] theorem State.setTile_reveals (s : State) (t : Nat) (x : Tile) : (s.setTile t x).reveals = s.reveals := rfl
@[simp] theorem State.setTile_pages (s : State) (t : Nat) (x : Tile) : (s.setTile t x).pages = s.pages := rfl
@[simp] theorem State.setTile_accesses (s : State) (t : Nat) (x : Tile) : (s.setTile t x).accesses = s.accesses := rfl
@[simp] theorem State.setTile_replies (s : State) (t : Nat) (x : Tile) : (s.setTile t x).replies = s.replies := rfl
@[simp] theorem State.setTile_walks (s : State) (t : Nat) (x : Tile) : (s.setTile t x).walks = s.walks := rfl
@[simp] theorem State.setTile_transit (s : State) (t : Nat) (x : Tile) : (s.setTile t x).transit = s.transit := rfl
@[simp] theorem State.setTile_migs (s : State) (t : Nat) (x : Tile) : (s.setTile t x).migs = s.migs := rfl
@[simp] theorem State.setTile_forks (s : State) (t : Nat) (x : Tile) : (s.setTile t x).forks = s.forks := rfl
@[simp] theorem State.setTile_ring (s : State) (t : Nat) (x : Tile) : (s.setTile t x).ring = s.ring := rfl
@[simp] theorem State.setTile_fabric (s : State) (t : Nat) (x : Tile) : (s.setTile t x).fabric = s.fabric := rfl
@[simp] theorem State.setTile_flights (s : State) (t : Nat) (x : Tile) : (s.setTile t x).flights = s.flights := rfl
@[simp] theorem State.setTile_queues (s : State) (t : Nat) (x : Tile) : (s.setTile t x).queues = s.queues := rfl
@[simp] theorem State.setTile_vmids (s : State) (t : Nat) (x : Tile) : (s.setTile t x).vmids = s.vmids := rfl
@[simp] theorem State.setTile_ownCore (s : State) (t : Nat) (x : Tile) : (s.setTile t x).ownCore = s.ownCore := rfl
@[simp] theorem State.setTile_ownSlice (s : State) (t : Nat) (x : Tile) : (s.setTile t x).ownSlice = s.ownSlice := rfl
@[simp] theorem State.setTile_ownSram (s : State) (t : Nat) (x : Tile) : (s.setTile t x).ownSram = s.ownSram := rfl
@[simp] theorem State.setTile_hub (s : State) (t : Nat) (x : Tile) : (s.setTile t x).hub = s.hub := rfl
@[simp] theorem State.setTile_purges (s : State) (t : Nat) (x : Tile) : (s.setTile t x).purges = s.purges := rfl
@[simp] theorem State.setTile_dropped (s : State) (t : Nat) (x : Tile) : (s.setTile t x).dropped = s.dropped := rfl
@[simp] theorem State.setTile_answers (s : State) (t : Nat) (x : Tile) : (s.setTile t x).answers = s.answers := rfl
@[simp] theorem State.setTile_trips (s : State) (t : Nat) (x : Tile) : (s.setTile t x).trips = s.trips := rfl

@[simp] theorem State.setCore_focus (s : State) (c : Nat) (x : Core) : (s.setCore c x).focus = s.focus := rfl
@[simp] theorem State.setCore_agenda (s : State) (c : Nat) (x : Core) : (s.setCore c x).agenda = s.agenda := rfl
@[simp] theorem State.setCore_turn (s : State) (c : Nat) (x : Core) : (s.setCore c x).turn = s.turn := rfl
@[simp] theorem State.setCore_now (s : State) (c : Nat) (x : Core) : (s.setCore c x).now = s.now := rfl
@[simp] theorem State.setCore_nextId (s : State) (c : Nat) (x : Core) : (s.setCore c x).nextId = s.nextId := rfl
@[simp] theorem State.setCore_free (s : State) (c : Nat) (x : Core) : (s.setCore c x).free = s.free := rfl
@[simp] theorem State.setCore_fwRead (s : State) (c : Nat) (x : Core) : (s.setCore c x).fwRead = s.fwRead := rfl
@[simp] theorem State.setCore_ctxs (s : State) (c : Nat) (x : Core) : (s.setCore c x).ctxs = s.ctxs := rfl
@[simp] theorem State.setCore_frames (s : State) (c : Nat) (x : Core) : (s.setCore c x).frames = s.frames := rfl
@[simp] theorem State.setCore_tiles (s : State) (c : Nat) (x : Core) : (s.setCore c x).tiles = s.tiles := rfl
@[simp] theorem State.setCore_regions (s : State) (c : Nat) (x : Core) : (s.setCore c x).regions = s.regions := rfl
@[simp] theorem State.setCore_parts (s : State) (c : Nat) (x : Core) : (s.setCore c x).parts = s.parts := rfl
@[simp] theorem State.setCore_cyc (s : State) (c : Nat) (x : Core) : (s.setCore c x).cyc = s.cyc := rfl
@[simp] theorem State.setCore_mem (s : State) (c : Nat) (x : Core) : (s.setCore c x).mem = s.mem := rfl
@[simp] theorem State.setCore_tmem (s : State) (c : Nat) (x : Core) : (s.setCore c x).tmem = s.tmem := rfl
@[simp] theorem State.setCore_fe (s : State) (c : Nat) (x : Core) : (s.setCore c x).fe = s.fe := rfl
@[simp] theorem State.setCore_uce (s : State) (c : Nat) (x : Core) : (s.setCore c x).uce = s.uce := rfl
@[simp] theorem State.setCore_lines (s : State) (c : Nat) (x : Core) : (s.setCore c x).lines = s.lines := rfl
@[simp] theorem State.setCore_reveals (s : State) (c : Nat) (x : Core) : (s.setCore c x).reveals = s.reveals := rfl
@[simp] theorem State.setCore_pages (s : State) (c : Nat) (x : Core) : (s.setCore c x).pages = s.pages := rfl
@[simp] theorem State.setCore_accesses (s : State) (c : Nat) (x : Core) : (s.setCore c x).accesses = s.accesses := rfl
@[simp] theorem State.setCore_replies (s : State) (c : Nat) (x : Core) : (s.setCore c x).replies = s.replies := rfl
@[simp] theorem State.setCore_walks (s : State) (c : Nat) (x : Core) : (s.setCore c x).walks = s.walks := rfl
@[simp] theorem State.setCore_transit (s : State) (c : Nat) (x : Core) : (s.setCore c x).transit = s.transit := rfl
@[simp] theorem State.setCore_migs (s : State) (c : Nat) (x : Core) : (s.setCore c x).migs = s.migs := rfl
@[simp] theorem State.setCore_forks (s : State) (c : Nat) (x : Core) : (s.setCore c x).forks = s.forks := rfl
@[simp] theorem State.setCore_ring (s : State) (c : Nat) (x : Core) : (s.setCore c x).ring = s.ring := rfl
@[simp] theorem State.setCore_fabric (s : State) (c : Nat) (x : Core) : (s.setCore c x).fabric = s.fabric := rfl
@[simp] theorem State.setCore_flights (s : State) (c : Nat) (x : Core) : (s.setCore c x).flights = s.flights := rfl
@[simp] theorem State.setCore_queues (s : State) (c : Nat) (x : Core) : (s.setCore c x).queues = s.queues := rfl
@[simp] theorem State.setCore_vmids (s : State) (c : Nat) (x : Core) : (s.setCore c x).vmids = s.vmids := rfl
@[simp] theorem State.setCore_ownCore (s : State) (c : Nat) (x : Core) : (s.setCore c x).ownCore = s.ownCore := rfl
@[simp] theorem State.setCore_ownSlice (s : State) (c : Nat) (x : Core) : (s.setCore c x).ownSlice = s.ownSlice := rfl
@[simp] theorem State.setCore_ownSram (s : State) (c : Nat) (x : Core) : (s.setCore c x).ownSram = s.ownSram := rfl
@[simp] theorem State.setCore_hub (s : State) (c : Nat) (x : Core) : (s.setCore c x).hub = s.hub := rfl
@[simp] theorem State.setCore_purges (s : State) (c : Nat) (x : Core) : (s.setCore c x).purges = s.purges := rfl
@[simp] theorem State.setCore_dropped (s : State) (c : Nat) (x : Core) : (s.setCore c x).dropped = s.dropped := rfl
@[simp] theorem State.setCore_answers (s : State) (c : Nat) (x : Core) : (s.setCore c x).answers = s.answers := rfl
@[simp] theorem State.setCore_trips (s : State) (c : Nat) (x : Core) : (s.setCore c x).trips = s.trips := rfl

@[simp] theorem State.setRegion_focus (s : State) (r : Nat) (x : Region) : (s.setRegion r x).focus = s.focus := rfl
@[simp] theorem State.setRegion_agenda (s : State) (r : Nat) (x : Region) : (s.setRegion r x).agenda = s.agenda := rfl
@[simp] theorem State.setRegion_turn (s : State) (r : Nat) (x : Region) : (s.setRegion r x).turn = s.turn := rfl
@[simp] theorem State.setRegion_now (s : State) (r : Nat) (x : Region) : (s.setRegion r x).now = s.now := rfl
@[simp] theorem State.setRegion_nextId (s : State) (r : Nat) (x : Region) : (s.setRegion r x).nextId = s.nextId := rfl
@[simp] theorem State.setRegion_free (s : State) (r : Nat) (x : Region) : (s.setRegion r x).free = s.free := rfl
@[simp] theorem State.setRegion_fwRead (s : State) (r : Nat) (x : Region) : (s.setRegion r x).fwRead = s.fwRead := rfl
@[simp] theorem State.setRegion_ctxs (s : State) (r : Nat) (x : Region) : (s.setRegion r x).ctxs = s.ctxs := rfl
@[simp] theorem State.setRegion_frames (s : State) (r : Nat) (x : Region) : (s.setRegion r x).frames = s.frames := rfl
@[simp] theorem State.setRegion_tiles (s : State) (r : Nat) (x : Region) : (s.setRegion r x).tiles = s.tiles := rfl
@[simp] theorem State.setRegion_cores (s : State) (r : Nat) (x : Region) : (s.setRegion r x).cores = s.cores := rfl
@[simp] theorem State.setRegion_parts (s : State) (r : Nat) (x : Region) : (s.setRegion r x).parts = s.parts := rfl
@[simp] theorem State.setRegion_cyc (s : State) (r : Nat) (x : Region) : (s.setRegion r x).cyc = s.cyc := rfl
@[simp] theorem State.setRegion_mem (s : State) (r : Nat) (x : Region) : (s.setRegion r x).mem = s.mem := rfl
@[simp] theorem State.setRegion_tmem (s : State) (r : Nat) (x : Region) : (s.setRegion r x).tmem = s.tmem := rfl
@[simp] theorem State.setRegion_fe (s : State) (r : Nat) (x : Region) : (s.setRegion r x).fe = s.fe := rfl
@[simp] theorem State.setRegion_uce (s : State) (r : Nat) (x : Region) : (s.setRegion r x).uce = s.uce := rfl
@[simp] theorem State.setRegion_lines (s : State) (r : Nat) (x : Region) : (s.setRegion r x).lines = s.lines := rfl
@[simp] theorem State.setRegion_reveals (s : State) (r : Nat) (x : Region) : (s.setRegion r x).reveals = s.reveals := rfl
@[simp] theorem State.setRegion_pages (s : State) (r : Nat) (x : Region) : (s.setRegion r x).pages = s.pages := rfl
@[simp] theorem State.setRegion_accesses (s : State) (r : Nat) (x : Region) : (s.setRegion r x).accesses = s.accesses := rfl
@[simp] theorem State.setRegion_replies (s : State) (r : Nat) (x : Region) : (s.setRegion r x).replies = s.replies := rfl
@[simp] theorem State.setRegion_walks (s : State) (r : Nat) (x : Region) : (s.setRegion r x).walks = s.walks := rfl
@[simp] theorem State.setRegion_transit (s : State) (r : Nat) (x : Region) : (s.setRegion r x).transit = s.transit := rfl
@[simp] theorem State.setRegion_migs (s : State) (r : Nat) (x : Region) : (s.setRegion r x).migs = s.migs := rfl
@[simp] theorem State.setRegion_forks (s : State) (r : Nat) (x : Region) : (s.setRegion r x).forks = s.forks := rfl
@[simp] theorem State.setRegion_ring (s : State) (r : Nat) (x : Region) : (s.setRegion r x).ring = s.ring := rfl
@[simp] theorem State.setRegion_fabric (s : State) (r : Nat) (x : Region) : (s.setRegion r x).fabric = s.fabric := rfl
@[simp] theorem State.setRegion_flights (s : State) (r : Nat) (x : Region) : (s.setRegion r x).flights = s.flights := rfl
@[simp] theorem State.setRegion_queues (s : State) (r : Nat) (x : Region) : (s.setRegion r x).queues = s.queues := rfl
@[simp] theorem State.setRegion_vmids (s : State) (r : Nat) (x : Region) : (s.setRegion r x).vmids = s.vmids := rfl
@[simp] theorem State.setRegion_ownCore (s : State) (r : Nat) (x : Region) : (s.setRegion r x).ownCore = s.ownCore := rfl
@[simp] theorem State.setRegion_ownSlice (s : State) (r : Nat) (x : Region) : (s.setRegion r x).ownSlice = s.ownSlice := rfl
@[simp] theorem State.setRegion_ownSram (s : State) (r : Nat) (x : Region) : (s.setRegion r x).ownSram = s.ownSram := rfl
@[simp] theorem State.setRegion_hub (s : State) (r : Nat) (x : Region) : (s.setRegion r x).hub = s.hub := rfl
@[simp] theorem State.setRegion_purges (s : State) (r : Nat) (x : Region) : (s.setRegion r x).purges = s.purges := rfl
@[simp] theorem State.setRegion_dropped (s : State) (r : Nat) (x : Region) : (s.setRegion r x).dropped = s.dropped := rfl
@[simp] theorem State.setRegion_answers (s : State) (r : Nat) (x : Region) : (s.setRegion r x).answers = s.answers := rfl
@[simp] theorem State.setRegion_trips (s : State) (r : Nat) (x : Region) : (s.setRegion r x).trips = s.trips := rfl

@[simp] theorem State.setPart_focus (s : State) (p : Nat) (x : Part) : (s.setPart p x).focus = s.focus := rfl
@[simp] theorem State.setPart_agenda (s : State) (p : Nat) (x : Part) : (s.setPart p x).agenda = s.agenda := rfl
@[simp] theorem State.setPart_turn (s : State) (p : Nat) (x : Part) : (s.setPart p x).turn = s.turn := rfl
@[simp] theorem State.setPart_now (s : State) (p : Nat) (x : Part) : (s.setPart p x).now = s.now := rfl
@[simp] theorem State.setPart_nextId (s : State) (p : Nat) (x : Part) : (s.setPart p x).nextId = s.nextId := rfl
@[simp] theorem State.setPart_free (s : State) (p : Nat) (x : Part) : (s.setPart p x).free = s.free := rfl
@[simp] theorem State.setPart_fwRead (s : State) (p : Nat) (x : Part) : (s.setPart p x).fwRead = s.fwRead := rfl
@[simp] theorem State.setPart_ctxs (s : State) (p : Nat) (x : Part) : (s.setPart p x).ctxs = s.ctxs := rfl
@[simp] theorem State.setPart_frames (s : State) (p : Nat) (x : Part) : (s.setPart p x).frames = s.frames := rfl
@[simp] theorem State.setPart_tiles (s : State) (p : Nat) (x : Part) : (s.setPart p x).tiles = s.tiles := rfl
@[simp] theorem State.setPart_cores (s : State) (p : Nat) (x : Part) : (s.setPart p x).cores = s.cores := rfl
@[simp] theorem State.setPart_regions (s : State) (p : Nat) (x : Part) : (s.setPart p x).regions = s.regions := rfl
@[simp] theorem State.setPart_cyc (s : State) (p : Nat) (x : Part) : (s.setPart p x).cyc = s.cyc := rfl
@[simp] theorem State.setPart_mem (s : State) (p : Nat) (x : Part) : (s.setPart p x).mem = s.mem := rfl
@[simp] theorem State.setPart_tmem (s : State) (p : Nat) (x : Part) : (s.setPart p x).tmem = s.tmem := rfl
@[simp] theorem State.setPart_fe (s : State) (p : Nat) (x : Part) : (s.setPart p x).fe = s.fe := rfl
@[simp] theorem State.setPart_uce (s : State) (p : Nat) (x : Part) : (s.setPart p x).uce = s.uce := rfl
@[simp] theorem State.setPart_lines (s : State) (p : Nat) (x : Part) : (s.setPart p x).lines = s.lines := rfl
@[simp] theorem State.setPart_reveals (s : State) (p : Nat) (x : Part) : (s.setPart p x).reveals = s.reveals := rfl
@[simp] theorem State.setPart_pages (s : State) (p : Nat) (x : Part) : (s.setPart p x).pages = s.pages := rfl
@[simp] theorem State.setPart_accesses (s : State) (p : Nat) (x : Part) : (s.setPart p x).accesses = s.accesses := rfl
@[simp] theorem State.setPart_replies (s : State) (p : Nat) (x : Part) : (s.setPart p x).replies = s.replies := rfl
@[simp] theorem State.setPart_walks (s : State) (p : Nat) (x : Part) : (s.setPart p x).walks = s.walks := rfl
@[simp] theorem State.setPart_transit (s : State) (p : Nat) (x : Part) : (s.setPart p x).transit = s.transit := rfl
@[simp] theorem State.setPart_migs (s : State) (p : Nat) (x : Part) : (s.setPart p x).migs = s.migs := rfl
@[simp] theorem State.setPart_forks (s : State) (p : Nat) (x : Part) : (s.setPart p x).forks = s.forks := rfl
@[simp] theorem State.setPart_ring (s : State) (p : Nat) (x : Part) : (s.setPart p x).ring = s.ring := rfl
@[simp] theorem State.setPart_fabric (s : State) (p : Nat) (x : Part) : (s.setPart p x).fabric = s.fabric := rfl
@[simp] theorem State.setPart_flights (s : State) (p : Nat) (x : Part) : (s.setPart p x).flights = s.flights := rfl
@[simp] theorem State.setPart_queues (s : State) (p : Nat) (x : Part) : (s.setPart p x).queues = s.queues := rfl
@[simp] theorem State.setPart_vmids (s : State) (p : Nat) (x : Part) : (s.setPart p x).vmids = s.vmids := rfl
@[simp] theorem State.setPart_ownCore (s : State) (p : Nat) (x : Part) : (s.setPart p x).ownCore = s.ownCore := rfl
@[simp] theorem State.setPart_ownSlice (s : State) (p : Nat) (x : Part) : (s.setPart p x).ownSlice = s.ownSlice := rfl
@[simp] theorem State.setPart_ownSram (s : State) (p : Nat) (x : Part) : (s.setPart p x).ownSram = s.ownSram := rfl
@[simp] theorem State.setPart_hub (s : State) (p : Nat) (x : Part) : (s.setPart p x).hub = s.hub := rfl
@[simp] theorem State.setPart_purges (s : State) (p : Nat) (x : Part) : (s.setPart p x).purges = s.purges := rfl
@[simp] theorem State.setPart_dropped (s : State) (p : Nat) (x : Part) : (s.setPart p x).dropped = s.dropped := rfl
@[simp] theorem State.setPart_answers (s : State) (p : Nat) (x : Part) : (s.setPart p x).answers = s.answers := rfl
@[simp] theorem State.setPart_trips (s : State) (p : Nat) (x : Part) : (s.setPart p x).trips = s.trips := rfl

@[simp] theorem State.setFab_focus (s : State) (d : Nat) (x : Fabric) : (s.setFab d x).focus = s.focus := rfl
@[simp] theorem State.setFab_agenda (s : State) (d : Nat) (x : Fabric) : (s.setFab d x).agenda = s.agenda := rfl
@[simp] theorem State.setFab_turn (s : State) (d : Nat) (x : Fabric) : (s.setFab d x).turn = s.turn := rfl
@[simp] theorem State.setFab_now (s : State) (d : Nat) (x : Fabric) : (s.setFab d x).now = s.now := rfl
@[simp] theorem State.setFab_nextId (s : State) (d : Nat) (x : Fabric) : (s.setFab d x).nextId = s.nextId := rfl
@[simp] theorem State.setFab_free (s : State) (d : Nat) (x : Fabric) : (s.setFab d x).free = s.free := rfl
@[simp] theorem State.setFab_fwRead (s : State) (d : Nat) (x : Fabric) : (s.setFab d x).fwRead = s.fwRead := rfl
@[simp] theorem State.setFab_ctxs (s : State) (d : Nat) (x : Fabric) : (s.setFab d x).ctxs = s.ctxs := rfl
@[simp] theorem State.setFab_frames (s : State) (d : Nat) (x : Fabric) : (s.setFab d x).frames = s.frames := rfl
@[simp] theorem State.setFab_tiles (s : State) (d : Nat) (x : Fabric) : (s.setFab d x).tiles = s.tiles := rfl
@[simp] theorem State.setFab_cores (s : State) (d : Nat) (x : Fabric) : (s.setFab d x).cores = s.cores := rfl
@[simp] theorem State.setFab_regions (s : State) (d : Nat) (x : Fabric) : (s.setFab d x).regions = s.regions := rfl
@[simp] theorem State.setFab_parts (s : State) (d : Nat) (x : Fabric) : (s.setFab d x).parts = s.parts := rfl
@[simp] theorem State.setFab_cyc (s : State) (d : Nat) (x : Fabric) : (s.setFab d x).cyc = s.cyc := rfl
@[simp] theorem State.setFab_mem (s : State) (d : Nat) (x : Fabric) : (s.setFab d x).mem = s.mem := rfl
@[simp] theorem State.setFab_tmem (s : State) (d : Nat) (x : Fabric) : (s.setFab d x).tmem = s.tmem := rfl
@[simp] theorem State.setFab_fe (s : State) (d : Nat) (x : Fabric) : (s.setFab d x).fe = s.fe := rfl
@[simp] theorem State.setFab_uce (s : State) (d : Nat) (x : Fabric) : (s.setFab d x).uce = s.uce := rfl
@[simp] theorem State.setFab_lines (s : State) (d : Nat) (x : Fabric) : (s.setFab d x).lines = s.lines := rfl
@[simp] theorem State.setFab_reveals (s : State) (d : Nat) (x : Fabric) : (s.setFab d x).reveals = s.reveals := rfl
@[simp] theorem State.setFab_pages (s : State) (d : Nat) (x : Fabric) : (s.setFab d x).pages = s.pages := rfl
@[simp] theorem State.setFab_accesses (s : State) (d : Nat) (x : Fabric) : (s.setFab d x).accesses = s.accesses := rfl
@[simp] theorem State.setFab_replies (s : State) (d : Nat) (x : Fabric) : (s.setFab d x).replies = s.replies := rfl
@[simp] theorem State.setFab_walks (s : State) (d : Nat) (x : Fabric) : (s.setFab d x).walks = s.walks := rfl
@[simp] theorem State.setFab_transit (s : State) (d : Nat) (x : Fabric) : (s.setFab d x).transit = s.transit := rfl
@[simp] theorem State.setFab_migs (s : State) (d : Nat) (x : Fabric) : (s.setFab d x).migs = s.migs := rfl
@[simp] theorem State.setFab_forks (s : State) (d : Nat) (x : Fabric) : (s.setFab d x).forks = s.forks := rfl
@[simp] theorem State.setFab_ring (s : State) (d : Nat) (x : Fabric) : (s.setFab d x).ring = s.ring := rfl
@[simp] theorem State.setFab_flights (s : State) (d : Nat) (x : Fabric) : (s.setFab d x).flights = s.flights := rfl
@[simp] theorem State.setFab_queues (s : State) (d : Nat) (x : Fabric) : (s.setFab d x).queues = s.queues := rfl
@[simp] theorem State.setFab_vmids (s : State) (d : Nat) (x : Fabric) : (s.setFab d x).vmids = s.vmids := rfl
@[simp] theorem State.setFab_ownCore (s : State) (d : Nat) (x : Fabric) : (s.setFab d x).ownCore = s.ownCore := rfl
@[simp] theorem State.setFab_ownSlice (s : State) (d : Nat) (x : Fabric) : (s.setFab d x).ownSlice = s.ownSlice := rfl
@[simp] theorem State.setFab_ownSram (s : State) (d : Nat) (x : Fabric) : (s.setFab d x).ownSram = s.ownSram := rfl
@[simp] theorem State.setFab_hub (s : State) (d : Nat) (x : Fabric) : (s.setFab d x).hub = s.hub := rfl
@[simp] theorem State.setFab_purges (s : State) (d : Nat) (x : Fabric) : (s.setFab d x).purges = s.purges := rfl
@[simp] theorem State.setFab_dropped (s : State) (d : Nat) (x : Fabric) : (s.setFab d x).dropped = s.dropped := rfl
@[simp] theorem State.setFab_answers (s : State) (d : Nat) (x : Fabric) : (s.setFab d x).answers = s.answers := rfl
@[simp] theorem State.setFab_trips (s : State) (d : Nat) (x : Fabric) : (s.setFab d x).trips = s.trips := rfl

@[simp] theorem State.twrite_focus (s : State) (t o n v : Nat) : (s.twrite t o n v).focus = s.focus := rfl
@[simp] theorem State.twrite_agenda (s : State) (t o n v : Nat) : (s.twrite t o n v).agenda = s.agenda := rfl
@[simp] theorem State.twrite_turn (s : State) (t o n v : Nat) : (s.twrite t o n v).turn = s.turn := rfl
@[simp] theorem State.twrite_now (s : State) (t o n v : Nat) : (s.twrite t o n v).now = s.now := rfl
@[simp] theorem State.twrite_nextId (s : State) (t o n v : Nat) : (s.twrite t o n v).nextId = s.nextId := rfl
@[simp] theorem State.twrite_free (s : State) (t o n v : Nat) : (s.twrite t o n v).free = s.free := rfl
@[simp] theorem State.twrite_fwRead (s : State) (t o n v : Nat) : (s.twrite t o n v).fwRead = s.fwRead := rfl
@[simp] theorem State.twrite_ctxs (s : State) (t o n v : Nat) : (s.twrite t o n v).ctxs = s.ctxs := rfl
@[simp] theorem State.twrite_frames (s : State) (t o n v : Nat) : (s.twrite t o n v).frames = s.frames := rfl
@[simp] theorem State.twrite_tiles (s : State) (t o n v : Nat) : (s.twrite t o n v).tiles = s.tiles := rfl
@[simp] theorem State.twrite_cores (s : State) (t o n v : Nat) : (s.twrite t o n v).cores = s.cores := rfl
@[simp] theorem State.twrite_regions (s : State) (t o n v : Nat) : (s.twrite t o n v).regions = s.regions := rfl
@[simp] theorem State.twrite_parts (s : State) (t o n v : Nat) : (s.twrite t o n v).parts = s.parts := rfl
@[simp] theorem State.twrite_cyc (s : State) (t o n v : Nat) : (s.twrite t o n v).cyc = s.cyc := rfl
@[simp] theorem State.twrite_mem (s : State) (t o n v : Nat) : (s.twrite t o n v).mem = s.mem := rfl
@[simp] theorem State.twrite_fe (s : State) (t o n v : Nat) : (s.twrite t o n v).fe = s.fe := rfl
@[simp] theorem State.twrite_uce (s : State) (t o n v : Nat) : (s.twrite t o n v).uce = s.uce := rfl
@[simp] theorem State.twrite_lines (s : State) (t o n v : Nat) : (s.twrite t o n v).lines = s.lines := rfl
@[simp] theorem State.twrite_reveals (s : State) (t o n v : Nat) : (s.twrite t o n v).reveals = s.reveals := rfl
@[simp] theorem State.twrite_pages (s : State) (t o n v : Nat) : (s.twrite t o n v).pages = s.pages := rfl
@[simp] theorem State.twrite_accesses (s : State) (t o n v : Nat) : (s.twrite t o n v).accesses = s.accesses := rfl
@[simp] theorem State.twrite_replies (s : State) (t o n v : Nat) : (s.twrite t o n v).replies = s.replies := rfl
@[simp] theorem State.twrite_walks (s : State) (t o n v : Nat) : (s.twrite t o n v).walks = s.walks := rfl
@[simp] theorem State.twrite_transit (s : State) (t o n v : Nat) : (s.twrite t o n v).transit = s.transit := rfl
@[simp] theorem State.twrite_migs (s : State) (t o n v : Nat) : (s.twrite t o n v).migs = s.migs := rfl
@[simp] theorem State.twrite_forks (s : State) (t o n v : Nat) : (s.twrite t o n v).forks = s.forks := rfl
@[simp] theorem State.twrite_ring (s : State) (t o n v : Nat) : (s.twrite t o n v).ring = s.ring := rfl
@[simp] theorem State.twrite_fabric (s : State) (t o n v : Nat) : (s.twrite t o n v).fabric = s.fabric := rfl
@[simp] theorem State.twrite_flights (s : State) (t o n v : Nat) : (s.twrite t o n v).flights = s.flights := rfl
@[simp] theorem State.twrite_queues (s : State) (t o n v : Nat) : (s.twrite t o n v).queues = s.queues := rfl
@[simp] theorem State.twrite_vmids (s : State) (t o n v : Nat) : (s.twrite t o n v).vmids = s.vmids := rfl
@[simp] theorem State.twrite_ownCore (s : State) (t o n v : Nat) : (s.twrite t o n v).ownCore = s.ownCore := rfl
@[simp] theorem State.twrite_ownSlice (s : State) (t o n v : Nat) : (s.twrite t o n v).ownSlice = s.ownSlice := rfl
@[simp] theorem State.twrite_ownSram (s : State) (t o n v : Nat) : (s.twrite t o n v).ownSram = s.ownSram := rfl
@[simp] theorem State.twrite_hub (s : State) (t o n v : Nat) : (s.twrite t o n v).hub = s.hub := rfl
@[simp] theorem State.twrite_purges (s : State) (t o n v : Nat) : (s.twrite t o n v).purges = s.purges := rfl
@[simp] theorem State.twrite_dropped (s : State) (t o n v : Nat) : (s.twrite t o n v).dropped = s.dropped := rfl
@[simp] theorem State.twrite_answers (s : State) (t o n v : Nat) : (s.twrite t o n v).answers = s.answers := rfl
@[simp] theorem State.twrite_trips (s : State) (t o n v : Nat) : (s.twrite t o n v).trips = s.trips := rfl

@[simp] theorem State.setCur_focus (s : State) (c : Ctx) : (s.setCur c).focus = s.focus := rfl
@[simp] theorem State.setCur_agenda (s : State) (c : Ctx) : (s.setCur c).agenda = s.agenda := rfl
@[simp] theorem State.setCur_turn (s : State) (c : Ctx) : (s.setCur c).turn = s.turn := rfl
@[simp] theorem State.setCur_now (s : State) (c : Ctx) : (s.setCur c).now = s.now := rfl
@[simp] theorem State.setCur_nextId (s : State) (c : Ctx) : (s.setCur c).nextId = s.nextId := rfl
@[simp] theorem State.setCur_free (s : State) (c : Ctx) : (s.setCur c).free = s.free := rfl
@[simp] theorem State.setCur_fwRead (s : State) (c : Ctx) : (s.setCur c).fwRead = s.fwRead := rfl
@[simp] theorem State.setCur_frames (s : State) (c : Ctx) : (s.setCur c).frames = s.frames := rfl
@[simp] theorem State.setCur_tiles (s : State) (c : Ctx) : (s.setCur c).tiles = s.tiles := rfl
@[simp] theorem State.setCur_cores (s : State) (c : Ctx) : (s.setCur c).cores = s.cores := rfl
@[simp] theorem State.setCur_regions (s : State) (c : Ctx) : (s.setCur c).regions = s.regions := rfl
@[simp] theorem State.setCur_parts (s : State) (c : Ctx) : (s.setCur c).parts = s.parts := rfl
@[simp] theorem State.setCur_cyc (s : State) (c : Ctx) : (s.setCur c).cyc = s.cyc := rfl
@[simp] theorem State.setCur_mem (s : State) (c : Ctx) : (s.setCur c).mem = s.mem := rfl
@[simp] theorem State.setCur_tmem (s : State) (c : Ctx) : (s.setCur c).tmem = s.tmem := rfl
@[simp] theorem State.setCur_fe (s : State) (c : Ctx) : (s.setCur c).fe = s.fe := rfl
@[simp] theorem State.setCur_uce (s : State) (c : Ctx) : (s.setCur c).uce = s.uce := rfl
@[simp] theorem State.setCur_lines (s : State) (c : Ctx) : (s.setCur c).lines = s.lines := rfl
@[simp] theorem State.setCur_reveals (s : State) (c : Ctx) : (s.setCur c).reveals = s.reveals := rfl
@[simp] theorem State.setCur_pages (s : State) (c : Ctx) : (s.setCur c).pages = s.pages := rfl
@[simp] theorem State.setCur_accesses (s : State) (c : Ctx) : (s.setCur c).accesses = s.accesses := rfl
@[simp] theorem State.setCur_replies (s : State) (c : Ctx) : (s.setCur c).replies = s.replies := rfl
@[simp] theorem State.setCur_walks (s : State) (c : Ctx) : (s.setCur c).walks = s.walks := rfl
@[simp] theorem State.setCur_transit (s : State) (c : Ctx) : (s.setCur c).transit = s.transit := rfl
@[simp] theorem State.setCur_migs (s : State) (c : Ctx) : (s.setCur c).migs = s.migs := rfl
@[simp] theorem State.setCur_forks (s : State) (c : Ctx) : (s.setCur c).forks = s.forks := rfl
@[simp] theorem State.setCur_ring (s : State) (c : Ctx) : (s.setCur c).ring = s.ring := rfl
@[simp] theorem State.setCur_fabric (s : State) (c : Ctx) : (s.setCur c).fabric = s.fabric := rfl
@[simp] theorem State.setCur_flights (s : State) (c : Ctx) : (s.setCur c).flights = s.flights := rfl
@[simp] theorem State.setCur_queues (s : State) (c : Ctx) : (s.setCur c).queues = s.queues := rfl
@[simp] theorem State.setCur_vmids (s : State) (c : Ctx) : (s.setCur c).vmids = s.vmids := rfl
@[simp] theorem State.setCur_ownCore (s : State) (c : Ctx) : (s.setCur c).ownCore = s.ownCore := rfl
@[simp] theorem State.setCur_ownSlice (s : State) (c : Ctx) : (s.setCur c).ownSlice = s.ownSlice := rfl
@[simp] theorem State.setCur_ownSram (s : State) (c : Ctx) : (s.setCur c).ownSram = s.ownSram := rfl
@[simp] theorem State.setCur_hub (s : State) (c : Ctx) : (s.setCur c).hub = s.hub := rfl
@[simp] theorem State.setCur_purges (s : State) (c : Ctx) : (s.setCur c).purges = s.purges := rfl
@[simp] theorem State.setCur_dropped (s : State) (c : Ctx) : (s.setCur c).dropped = s.dropped := rfl
@[simp] theorem State.setCur_answers (s : State) (c : Ctx) : (s.setCur c).answers = s.answers := rfl
@[simp] theorem State.setCur_trips (s : State) (c : Ctx) : (s.setCur c).trips = s.trips := rfl

@[simp] theorem State.ctx_setCtx_same (s : State) (k : Nat) (x : Ctx) : (s.setCtx k x).ctx k = x := by simp [State.setCtx, State.ctx]
theorem State.ctx_setCtx_other (s : State) {k j : Nat} (x : Ctx) (h : j ≠ k) : (s.setCtx k x).ctx j = s.ctx j :=
  lget_lset_other _ _ _ h
@[simp] theorem State.frame_setCtx (s : State) (k j : Nat) (x : Ctx) : (s.setCtx k x).frame j = s.frame j := rfl
@[simp] theorem State.tile_setCtx (s : State) (k j : Nat) (x : Ctx) : (s.setCtx k x).tile j = s.tile j := rfl
@[simp] theorem State.core_setCtx (s : State) (k j : Nat) (x : Ctx) : (s.setCtx k x).core j = s.core j := rfl
@[simp] theorem State.region_setCtx (s : State) (k j : Nat) (x : Ctx) : (s.setCtx k x).region j = s.region j := rfl
@[simp] theorem State.part_setCtx (s : State) (k j : Nat) (x : Ctx) : (s.setCtx k x).part j = s.part j := rfl
@[simp] theorem State.fab_setCtx (s : State) (k j : Nat) (x : Ctx) : (s.setCtx k x).fab j = s.fab j := rfl

@[simp] theorem State.frame_setFrame_same (s : State) (k : Nat) (x : Frame) : (s.setFrame k x).frame k = x := by simp [State.setFrame, State.frame]
theorem State.frame_setFrame_other (s : State) {k j : Nat} (x : Frame) (h : j ≠ k) : (s.setFrame k x).frame j = s.frame j :=
  lget_lset_other _ _ _ h
@[simp] theorem State.ctx_setFrame (s : State) (k j : Nat) (x : Frame) : (s.setFrame k x).ctx j = s.ctx j := rfl
@[simp] theorem State.tile_setFrame (s : State) (k j : Nat) (x : Frame) : (s.setFrame k x).tile j = s.tile j := rfl
@[simp] theorem State.core_setFrame (s : State) (k j : Nat) (x : Frame) : (s.setFrame k x).core j = s.core j := rfl
@[simp] theorem State.region_setFrame (s : State) (k j : Nat) (x : Frame) : (s.setFrame k x).region j = s.region j := rfl
@[simp] theorem State.part_setFrame (s : State) (k j : Nat) (x : Frame) : (s.setFrame k x).part j = s.part j := rfl
@[simp] theorem State.fab_setFrame (s : State) (k j : Nat) (x : Frame) : (s.setFrame k x).fab j = s.fab j := rfl

@[simp] theorem State.tile_setTile_same (s : State) (k : Nat) (x : Tile) : (s.setTile k x).tile k = x := by simp [State.setTile, State.tile]
theorem State.tile_setTile_other (s : State) {k j : Nat} (x : Tile) (h : j ≠ k) : (s.setTile k x).tile j = s.tile j :=
  lget_lset_other _ _ _ h
@[simp] theorem State.ctx_setTile (s : State) (k j : Nat) (x : Tile) : (s.setTile k x).ctx j = s.ctx j := rfl
@[simp] theorem State.frame_setTile (s : State) (k j : Nat) (x : Tile) : (s.setTile k x).frame j = s.frame j := rfl
@[simp] theorem State.core_setTile (s : State) (k j : Nat) (x : Tile) : (s.setTile k x).core j = s.core j := rfl
@[simp] theorem State.region_setTile (s : State) (k j : Nat) (x : Tile) : (s.setTile k x).region j = s.region j := rfl
@[simp] theorem State.part_setTile (s : State) (k j : Nat) (x : Tile) : (s.setTile k x).part j = s.part j := rfl
@[simp] theorem State.fab_setTile (s : State) (k j : Nat) (x : Tile) : (s.setTile k x).fab j = s.fab j := rfl

@[simp] theorem State.core_setCore_same (s : State) (k : Nat) (x : Core) : (s.setCore k x).core k = x := by simp [State.setCore, State.core]
theorem State.core_setCore_other (s : State) {k j : Nat} (x : Core) (h : j ≠ k) : (s.setCore k x).core j = s.core j :=
  lget_lset_other _ _ _ h
@[simp] theorem State.ctx_setCore (s : State) (k j : Nat) (x : Core) : (s.setCore k x).ctx j = s.ctx j := rfl
@[simp] theorem State.frame_setCore (s : State) (k j : Nat) (x : Core) : (s.setCore k x).frame j = s.frame j := rfl
@[simp] theorem State.tile_setCore (s : State) (k j : Nat) (x : Core) : (s.setCore k x).tile j = s.tile j := rfl
@[simp] theorem State.region_setCore (s : State) (k j : Nat) (x : Core) : (s.setCore k x).region j = s.region j := rfl
@[simp] theorem State.part_setCore (s : State) (k j : Nat) (x : Core) : (s.setCore k x).part j = s.part j := rfl
@[simp] theorem State.fab_setCore (s : State) (k j : Nat) (x : Core) : (s.setCore k x).fab j = s.fab j := rfl

@[simp] theorem State.region_setRegion_same (s : State) (k : Nat) (x : Region) : (s.setRegion k x).region k = x := by simp [State.setRegion, State.region]
theorem State.region_setRegion_other (s : State) {k j : Nat} (x : Region) (h : j ≠ k) : (s.setRegion k x).region j = s.region j :=
  lget_lset_other _ _ _ h
@[simp] theorem State.ctx_setRegion (s : State) (k j : Nat) (x : Region) : (s.setRegion k x).ctx j = s.ctx j := rfl
@[simp] theorem State.frame_setRegion (s : State) (k j : Nat) (x : Region) : (s.setRegion k x).frame j = s.frame j := rfl
@[simp] theorem State.tile_setRegion (s : State) (k j : Nat) (x : Region) : (s.setRegion k x).tile j = s.tile j := rfl
@[simp] theorem State.core_setRegion (s : State) (k j : Nat) (x : Region) : (s.setRegion k x).core j = s.core j := rfl
@[simp] theorem State.part_setRegion (s : State) (k j : Nat) (x : Region) : (s.setRegion k x).part j = s.part j := rfl
@[simp] theorem State.fab_setRegion (s : State) (k j : Nat) (x : Region) : (s.setRegion k x).fab j = s.fab j := rfl

@[simp] theorem State.part_setPart_same (s : State) (k : Nat) (x : Part) : (s.setPart k x).part k = x := by simp [State.setPart, State.part]
theorem State.part_setPart_other (s : State) {k j : Nat} (x : Part) (h : j ≠ k) : (s.setPart k x).part j = s.part j :=
  lget_lset_other _ _ _ h
@[simp] theorem State.ctx_setPart (s : State) (k j : Nat) (x : Part) : (s.setPart k x).ctx j = s.ctx j := rfl
@[simp] theorem State.frame_setPart (s : State) (k j : Nat) (x : Part) : (s.setPart k x).frame j = s.frame j := rfl
@[simp] theorem State.tile_setPart (s : State) (k j : Nat) (x : Part) : (s.setPart k x).tile j = s.tile j := rfl
@[simp] theorem State.core_setPart (s : State) (k j : Nat) (x : Part) : (s.setPart k x).core j = s.core j := rfl
@[simp] theorem State.region_setPart (s : State) (k j : Nat) (x : Part) : (s.setPart k x).region j = s.region j := rfl
@[simp] theorem State.fab_setPart (s : State) (k j : Nat) (x : Part) : (s.setPart k x).fab j = s.fab j := rfl

@[simp] theorem State.fab_setFab_same (s : State) (k : Nat) (x : Fabric) : (s.setFab k x).fab k = x := by simp [State.setFab, State.fab]
theorem State.fab_setFab_other (s : State) {k j : Nat} (x : Fabric) (h : j ≠ k) : (s.setFab k x).fab j = s.fab j :=
  lget_lset_other _ _ _ h
@[simp] theorem State.ctx_setFab (s : State) (k j : Nat) (x : Fabric) : (s.setFab k x).ctx j = s.ctx j := rfl
@[simp] theorem State.frame_setFab (s : State) (k j : Nat) (x : Fabric) : (s.setFab k x).frame j = s.frame j := rfl
@[simp] theorem State.tile_setFab (s : State) (k j : Nat) (x : Fabric) : (s.setFab k x).tile j = s.tile j := rfl
@[simp] theorem State.core_setFab (s : State) (k j : Nat) (x : Fabric) : (s.setFab k x).core j = s.core j := rfl
@[simp] theorem State.region_setFab (s : State) (k j : Nat) (x : Fabric) : (s.setFab k x).region j = s.region j := rfl
@[simp] theorem State.part_setFab (s : State) (k j : Nat) (x : Fabric) : (s.setFab k x).part j = s.part j := rfl

@[simp] theorem State.ctx_twrite (s : State) (t o n v j : Nat) : (s.twrite t o n v).ctx j = s.ctx j := rfl
@[simp] theorem State.frame_twrite (s : State) (t o n v j : Nat) : (s.twrite t o n v).frame j = s.frame j := rfl
@[simp] theorem State.tile_twrite (s : State) (t o n v j : Nat) : (s.twrite t o n v).tile j = s.tile j := rfl
@[simp] theorem State.core_twrite (s : State) (t o n v j : Nat) : (s.twrite t o n v).core j = s.core j := rfl
@[simp] theorem State.region_twrite (s : State) (t o n v j : Nat) : (s.twrite t o n v).region j = s.region j := rfl
@[simp] theorem State.part_twrite (s : State) (t o n v j : Nat) : (s.twrite t o n v).part j = s.part j := rfl
@[simp] theorem State.fab_twrite (s : State) (t o n v j : Nat) : (s.twrite t o n v).fab j = s.fab j := rfl

/-! The context in focus. -/

@[simp] theorem State.cur_setCur (s : State) (c : Ctx) : (s.setCur c).cur = c := by simp [State.setCur, State.cur]
theorem State.ctx_setCur_other (s : State) {k : Nat} (c : Ctx) (h : k ≠ s.focus) : (s.setCur c).ctx k = s.ctx k :=
  State.ctx_setCtx_other s c h
@[simp] theorem State.setCur_setCur (s : State) (c d : Ctx) : (s.setCur c).setCur d = s.setCur d := by
  have (m : SMap Ctx) (k : Nat) : lset (lset m k c) k d = lset m k d := by
    induction m with
    | nil => simp [lset]
    | cons e m ih =>
      obtain ⟨j, w⟩ := e
      simp only [lset]
      split
      · simp [lset]
      · split
        · subst_vars; simp [lset]
        · simp only [lset, ih]; simp_all
  simp [State.setCur, State.setCtx, this]
@[simp] theorem State.frame_setCur (s : State) (c : Ctx) (j : Nat) : (s.setCur c).frame j = s.frame j := rfl
@[simp] theorem State.tile_setCur (s : State) (c : Ctx) (j : Nat) : (s.setCur c).tile j = s.tile j := rfl
@[simp] theorem State.core_setCur (s : State) (c : Ctx) (j : Nat) : (s.setCur c).core j = s.core j := rfl
@[simp] theorem State.region_setCur (s : State) (c : Ctx) (j : Nat) : (s.setCur c).region j = s.region j := rfl
@[simp] theorem State.part_setCur (s : State) (c : Ctx) (j : Nat) : (s.setCur c).part j = s.part j := rfl
@[simp] theorem State.fab_setCur (s : State) (c : Ctx) (j : Nat) : (s.setCur c).fab j = s.fab j := rfl
@[simp] theorem State.curTile_setCur (s : State) (c : Ctx) : (s.setCur c).curTile = s.curTile := rfl
@[simp] theorem State.curCore_setCur (s : State) (c : Ctx) : (s.setCur c).curCore = s.curCore := rfl
@[simp] theorem State.curDie_setCur (s : State) (c : Ctx) : (s.setCur c).curDie = s.curDie := rfl
@[simp] theorem State.curRegion_setCur (s : State) (c : Ctx) : (s.setCur c).curRegion = s.curRegion := rfl
@[simp] theorem State.curPart_setCur (s : State) (c : Ctx) : (s.setCur c).curPart = s.curPart := rfl

/-! Registers (spec/10 R205). -/

theorem State.rdS_zero (s : State) : s.rdS 0 = 0 := by simp [State.rdS]
theorem State.rdP_zero (s : State) : s.rdP 0 = true := by simp [State.rdP]

theorem State.rdS_wrS (s : State) (d r : SReg) (v : Word) :
    (s.wrS d v).rdS r = if r = d ∧ d ≠ 0 then v else s.rdS r := by
  by_cases hd : d = 0
  · simp [State.wrS, hd]
  · by_cases hr : r = 0
    · subst hr; rw [if_neg (fun h => hd h.1.symm), State.rdS_zero, State.rdS_zero]
    · simp only [State.wrS, hd, if_false, State.rdS, hr, State.cur_setCur, lget?_lset]
      by_cases h : r = d
      · subst h; rw [if_pos (And.intro rfl hd), if_pos rfl]
      · have : r.toNat ≠ d.toNat := fun e => h (BitVec.eq_of_toNat_eq e)
        simp [this, h]

@[simp] theorem State.rdV_wrS (s : State) (d : SReg) (v : Word) (r : VReg) : (s.wrS d v).rdV r = s.rdV r := by
  unfold State.wrS; split <;> simp [State.rdV]
@[simp] theorem State.rdP_wrS (s : State) (d : SReg) (v : Word) (r : PReg) : (s.wrS d v).rdP r = s.rdP r := by
  unfold State.wrS; split <;> simp [State.rdP]
@[simp] theorem State.rdM_wrS (s : State) (d : SReg) (v : Word) (r : MReg) : (s.wrS d v).rdM r = s.rdM r := by
  unfold State.wrS; split <;> simp [State.rdM]

theorem State.rdV_wrV (s : State) (d r : VReg) (v : Vec) : (s.wrV d v).rdV r = if r = d then v else s.rdV r := by
  simp only [State.wrV, State.rdV, State.cur_setCur, lget?_lset]
  by_cases h : r = d
  · subst h; simp
  · have : r.toNat ≠ d.toNat := fun e => h (BitVec.eq_of_toNat_eq e)
    simp [this, h]

@[simp] theorem State.rdS_wrV (s : State) (d : VReg) (v : Vec) (r : SReg) : (s.wrV d v).rdS r = s.rdS r := by
  simp [State.wrV, State.rdS]
@[simp] theorem State.rdP_wrV (s : State) (d : VReg) (v : Vec) (r : PReg) : (s.wrV d v).rdP r = s.rdP r := by
  simp [State.wrV, State.rdP]
@[simp] theorem State.rdM_wrV (s : State) (d : VReg) (v : Vec) (r : MReg) : (s.wrV d v).rdM r = s.rdM r := by
  simp [State.wrV, State.rdM]

theorem State.rdP_wrP (s : State) (d r : PReg) (v : Bool) :
    (s.wrP d v).rdP r = if r = d ∧ d ≠ 0 then v else s.rdP r := by
  by_cases hd : d = 0
  · simp [State.wrP, hd]
  · by_cases hr : r = 0
    · subst hr; rw [if_neg (fun h => hd h.1.symm), State.rdP_zero, State.rdP_zero]
    · simp only [State.wrP, hd, if_false, State.rdP, hr, State.cur_setCur, lget?_lset]
      by_cases h : r = d
      · subst h; rw [if_pos (And.intro rfl hd), if_pos rfl]
      · have : r.toNat ≠ d.toNat := fun e => h (BitVec.eq_of_toNat_eq e)
        simp [this, h]

@[simp] theorem State.rdS_wrP (s : State) (d : PReg) (v : Bool) (r : SReg) : (s.wrP d v).rdS r = s.rdS r := by
  unfold State.wrP; split <;> simp [State.rdS]
@[simp] theorem State.rdV_wrP (s : State) (d : PReg) (v : Bool) (r : VReg) : (s.wrP d v).rdV r = s.rdV r := by
  unfold State.wrP; split <;> simp [State.rdV]
@[simp] theorem State.rdM_wrP (s : State) (d : PReg) (v : Bool) (r : MReg) : (s.wrP d v).rdM r = s.rdM r := by
  unfold State.wrP; split <;> simp [State.rdM]

theorem State.rdM_wrM (s : State) (d r : MReg) (v : Word) : (s.wrM d v).rdM r = if r = d then v else s.rdM r := by
  simp only [State.wrM, State.rdM, State.cur_setCur, lget?_lset]
  by_cases h : r = d
  · subst h; simp
  · have : r.toNat ≠ d.toNat := fun e => h (BitVec.eq_of_toNat_eq e)
    simp [this, h]

@[simp] theorem State.rdS_wrM (s : State) (d : MReg) (v : Word) (r : SReg) : (s.wrM d v).rdS r = s.rdS r := by
  simp [State.wrM, State.rdS]
@[simp] theorem State.rdV_wrM (s : State) (d : MReg) (v : Word) (r : VReg) : (s.wrM d v).rdV r = s.rdV r := by
  simp [State.wrM, State.rdV]
@[simp] theorem State.rdP_wrM (s : State) (d : MReg) (v : Word) (r : PReg) : (s.wrM d v).rdP r = s.rdP r := by
  simp [State.wrM, State.rdP]

/-! Tile memory (spec/14 R284). -/

theorem State.tread_twrite_same (s : State) (t o n v : Nat) : (s.twrite t o n v).tread t o n = v % 256 ^ n :=
  mread_mwrite_same _ _ _ _

theorem State.tread_twrite_other (s : State) (t o n v u p k : Nat)
    (h : u * 0x80000 + p + k ≤ t * 0x80000 + o ∨ t * 0x80000 + o + n ≤ u * 0x80000 + p) :
    (s.twrite t o n v).tread u p k = s.tread u p k :=
  mread_mwrite_other _ _ _ _ _ _ h

end Sys2Proof.Machine
end

