-- ==== Sys2Proof/Laws/Ops.lean ====
section
/-!
SUPPORT. Laws/Ops.lean: what the wrappers of the meanings answer, once for all instructions: an instruction that is performed, held or
passed over, a privileged one, a vector one; and what lies in the lanes of a vector built from its lanes.
-/

namespace Sys2Proof.Machine
open Sys2Proof

namespace State

/-! The wrapper of every instruction (spec/09 R191, spec/11 R220). -/

theorem perform_ready {s : State} {p : Pred} {rs : List SReg} {vs : List VReg} (a : Act) (h : Ready s p rs vs) :
    s.perform p rs vs a = .next (s.finish a) := by
  simp [perform, h.1, h.2]

theorem perform_off {s : State} {p : Pred} (rs : List SReg) (vs : List VReg) (a : Act) (h : s.holds p = false) :
    s.perform p rs vs a = .next s.advance := by
  simp [perform, h]

theorem perform_pending {s : State} {p : Pred} {rs : List SReg} {vs : List VReg} (a : Act) (h : s.holds p = true)
    (hr : s.srcReady rs vs = false) : s.perform p rs vs a = .next s.holdOn := by
  simp [perform, h, hr]

theorem performPriv_ready {s : State} {p : Pred} {rs : List SReg} (a : Act) (hp : s.priv = true) (h : Ready s p rs []) :
    s.performPriv p rs a = .next (s.finish a) := by
  simp [performPriv, hp, perform_ready a h]

theorem performPriv_off {s : State} (p : Pred) (rs : List SReg) (a : Act) (hp : s.priv = false) :
    s.performPriv p rs a = .next (s.takeTrap (s.faultOf Cause.priv)) := by
  simp [performPriv, hp]

/-- Every wrapped meaning goes on to a next state. -/
theorem perform_next (s : State) (p : Pred) (rs : List SReg) (vs : List VReg) (a : Act) : ∃ t, s.perform p rs vs a = .next t :=
  ⟨_, rfl⟩

/-! The end of a performed instruction. -/

@[simp] theorem advance_cur (s : State) : s.advance.cur =
    { s.cur with ip := s.cur.ip + BitVec.ofNat 32 s.cur.len, issued := s.cur.issued + 1, waitOver := false, kept := none, held := false } := by
  simp [advance]

@[simp] theorem jumpTo_cur (s : State) (ip : BitVec 32) : (s.jumpTo ip).cur =
    { s.cur with ip := ip, issued := s.cur.issued + 1, waitOver := false, kept := none, held := false } := by
  simp [jumpTo]

@[simp] theorem rdS_advance (s : State) (r : SReg) : s.advance.rdS r = s.rdS r := by simp [rdS]
@[simp] theorem rdV_advance (s : State) (r : VReg) : s.advance.rdV r = s.rdV r := by simp [rdV]
@[simp] theorem rdP_advance (s : State) (r : PReg) : s.advance.rdP r = s.rdP r := by simp [rdP]
@[simp] theorem rdM_advance (s : State) (r : MReg) : s.advance.rdM r = s.rdM r := by simp [rdM]
@[simp] theorem rdS_jumpTo (s : State) (ip : BitVec 32) (r : SReg) : (s.jumpTo ip).rdS r = s.rdS r := by simp [rdS]
@[simp] theorem rdV_jumpTo (s : State) (ip : BitVec 32) (r : VReg) : (s.jumpTo ip).rdV r = s.rdV r := by simp [rdV]
@[simp] theorem rdP_jumpTo (s : State) (ip : BitVec 32) (r : PReg) : (s.jumpTo ip).rdP r = s.rdP r := by simp [rdP]
@[simp] theorem rdM_jumpTo (s : State) (ip : BitVec 32) (r : MReg) : (s.jumpTo ip).rdM r = s.rdM r := by simp [rdM]

end State

end Sys2Proof.Machine

namespace Sys2Proof
open Machine

/-! Frames: what changes the context in focus only. -/

theorem OnlyFocus.rfl' (s : State) : OnlyFocus s s := ⟨rfl, fun _ _ => rfl⟩

theorem OnlyFocus.setCur (s : State) (c : Ctx) : OnlyFocus s (s.setCur c) :=
  ⟨rfl, fun _ h => State.ctx_setCur_other s c h⟩

theorem OnlyFocus.trans {s t u : State} (h : OnlyFocus s t) (k : OnlyFocus t u) : OnlyFocus s u := by
  have hf : t.focus = s.focus := by rw [h.1]
  refine ⟨?_, fun j hj => ?_⟩
  · rw [k.1, h.1]
  · rw [k.2 j (by rw [hf]; exact hj), h.2 j hj]

theorem OnlyFocus.advance (s : State) : OnlyFocus s s.advance := OnlyFocus.setCur _ _
theorem OnlyFocus.jumpTo (s : State) (ip : BitVec 32) : OnlyFocus s (s.jumpTo ip) := OnlyFocus.setCur _ _

theorem OnlyFocus.wrS (s : State) (d : SReg) (v : Word) : OnlyFocus s (s.wrS d v) := by
  unfold State.wrS; split
  · exact OnlyFocus.rfl' s
  · exact OnlyFocus.setCur _ _

theorem OnlyFocus.wrP (s : State) (d : PReg) (v : Bool) : OnlyFocus s (s.wrP d v) := by
  unfold State.wrP; split
  · exact OnlyFocus.rfl' s
  · exact OnlyFocus.setCur _ _

theorem OnlyFocus.wrV (s : State) (d : VReg) (v : Vec) : OnlyFocus s (s.wrV d v) := OnlyFocus.setCur _ _
theorem OnlyFocus.wrM (s : State) (d : MReg) (v : Word) : OnlyFocus s (s.wrM d v) := OnlyFocus.setCur _ _

/-! Register writes followed by the next instruction. -/

theorem writesS_finish {s : State} {o : Outcome} {d : SReg} {v : Word} (h : o = .next (s.finish (.ok (s.wrS d v)))) :
    WritesS s o d v := by
  refine ⟨_, h, ?_, ?_, (OnlyFocus.wrS s d v).trans (OnlyFocus.advance _), ?_, ?_⟩
  · simp only [State.finish, State.rdS_advance, State.rdS_wrS]
    by_cases hd : d = 0
    · rw [if_neg (fun h => h.2 hd), if_pos hd, hd, State.rdS_zero]
    · rw [if_pos (And.intro trivial hd), if_neg hd]
  · refine ⟨fun r hr => ?_, fun r _ => by simp [State.finish], fun r _ => by simp [State.finish], fun r _ => by simp [State.finish]⟩
    simp only [State.finish, State.rdS_advance, State.rdS_wrS]
    rw [if_neg]; rintro ⟨rfl, -⟩; simp at hr
  · simp only [StaysOn, State.finish, State.advance_cur]; unfold State.wrS; split <;> simp
  · simp only [NextInstr, State.finish, State.advance_cur]; unfold State.wrS; split <;> simp

theorem writesP_finish {s : State} {o : Outcome} {d : PReg} {v : Bool} (h : o = .next (s.finish (.ok (s.wrP d v)))) :
    WritesP s o d v := by
  refine ⟨_, h, ?_, ?_, (OnlyFocus.wrP s d v).trans (OnlyFocus.advance _), ?_, ?_⟩
  · simp only [State.finish, State.rdP_advance, State.rdP_wrP]
    by_cases hd : d = 0
    · rw [if_neg (fun h => h.2 hd), if_pos hd, hd, State.rdP_zero]
    · rw [if_pos (And.intro trivial hd), if_neg hd]
  · refine ⟨fun r _ => by simp [State.finish], fun r _ => by simp [State.finish], fun r hr => ?_, fun r _ => by simp [State.finish]⟩
    simp only [State.finish, State.rdP_advance, State.rdP_wrP]
    rw [if_neg]; rintro ⟨rfl, -⟩; simp at hr
  · simp only [StaysOn, State.finish, State.advance_cur]; unfold State.wrP; split <;> simp
  · simp only [NextInstr, State.finish, State.advance_cur]; unfold State.wrP; split <;> simp

theorem writesV_finish {s : State} {o : Outcome} {d : VReg} {v : Vec} (h : o = .next (s.finish (.ok (s.wrV d v)))) :
    WritesV s o d v := by
  refine ⟨_, h, ?_, ?_, (OnlyFocus.wrV s d v).trans (OnlyFocus.advance _), ?_, ?_⟩
  · simp [State.finish, State.rdV_wrV]
  · refine ⟨fun r _ => by simp [State.finish], fun r hr => ?_, fun r _ => by simp [State.finish], fun r _ => by simp [State.finish]⟩
    simp only [State.finish, State.rdV_advance, State.rdV_wrV]
    rw [if_neg]; rintro rfl; simp at hr
  · simp [StaysOn, State.finish, State.wrV]
  · simp [NextInstr, State.finish, State.wrV]

theorem writesM_finish {s : State} {o : Outcome} {d : MReg} {v : Word} (h : o = .next (s.finish (.ok (s.wrM d v)))) :
    WritesM s o d v := by
  refine ⟨_, h, ?_, ?_, (OnlyFocus.wrM s d v).trans (OnlyFocus.advance _), ?_, ?_⟩
  · simp [State.finish, State.rdM_wrM]
  · refine ⟨fun r _ => by simp [State.finish], fun r _ => by simp [State.finish], fun r _ => by simp [State.finish], fun r hr => ?_⟩
    simp only [State.finish, State.rdM_advance, State.rdM_wrM]
    rw [if_neg]; rintro rfl; simp at hr
  · simp [StaysOn, State.finish, State.wrM]
  · simp [NextInstr, State.finish, State.wrM]

theorem onlyAdvances_next {s : State} {o : Outcome} (h : o = .next s.advance) : OnlyAdvances s o :=
  ⟨_, h, ⟨fun r _ => by simp, fun r _ => by simp, fun r _ => by simp, fun r _ => by simp⟩, OnlyFocus.advance s,
    by simp [StaysOn], by simp [NextInstr]⟩

theorem jumps_finish {s : State} {o : Outcome} {ip : BitVec 32} (h : o = .next (s.finish (.jump s ip))) : Jumps s o ip :=
  ⟨_, h, by simp [State.finish], ⟨fun r _ => by simp [State.finish], fun r _ => by simp [State.finish],
    fun r _ => by simp [State.finish], fun r _ => by simp [State.finish]⟩, OnlyFocus.jumpTo s ip, by simp [StaysOn, State.finish]⟩

end Sys2Proof

namespace Sys2Proof.Machine
open Sys2Proof

/-! Vectors. -/

theorem foldr_lanes (w : Nat) (l : List Nat) (i : Nat) :
    (l.foldr (fun x acc => x % 2 ^ w + 2 ^ w * acc) 0) / 2 ^ (w * i) % 2 ^ w = l.getD i 0 % 2 ^ w := by
  induction l generalizing i with
  | nil => simp
  | cons x l ih =>
    simp only [List.foldr_cons]
    have hp : 0 < 2 ^ w := Nat.two_pow_pos w
    cases i with
    | zero => simp
    | succ i =>
      rw [Nat.mul_succ, Nat.pow_add, Nat.mul_comm (2 ^ (w * i)), ← Nat.div_div_eq_div_mul, Nat.add_mul_div_left _ _ hp,
        Nat.div_eq_of_lt (Nat.mod_lt _ hp), Nat.zero_add, ih]
      simp

/-- Lane i of a vector built from its lanes (spec/04 R81). -/
theorem lane_ofLanes (w i : Nat) (l : List Nat) (h : w * i + w ≤ 512) : lane w (ofLanes w l) i = l.getD i 0 % 2 ^ w := by
  unfold lane ofLanes
  rw [BitVec.toNat_ofNat, Nat.shiftRight_eq_div_pow, mod_lane w i _ h, foldr_lanes]
where
  mod_lane (w i v : Nat) (h : w * i + w ≤ 512) : v % 2 ^ 512 / 2 ^ (w * i) % 2 ^ w = v / 2 ^ (w * i) % 2 ^ w := by
    obtain ⟨k, hk⟩ := Nat.exists_eq_add_of_le h
    rw [hk, show w * i + w + k = w * i + (w + k) by omega, Nat.pow_add, Nat.mod_mul_right_div_self, Nat.pow_add,
      Nat.mod_mul_right_mod]

/-- A result whose lanes are given. -/
theorem lanesAre_ofLanes (w n : Nat) (f : Nat → Nat) (h : w * n ≤ 512) : LanesAre w n (ofLanes w ((List.range n).map f)) f := by
  intro i hi
  rw [lane_ofLanes w i _ (by calc w * i + w = w * (i + 1) := by rw [Nat.mul_succ]
      _ ≤ w * n := Nat.mul_le_mul_left _ hi
      _ ≤ 512 := h)]
  simp [List.getD_eq_getElem?_getD, hi]

theorem Ty.lanes_le (ty : Ty) : ty.width * ty.lanes ≤ 512 := by cases ty <;> decide

/-- Flags that lie in no lane lie in none of them (spec/04 R90). -/
theorem orAll_and {l : List (Nat × Flags)} {en : Flags} (h : State.orAll l &&& en = 0) : ∀ x ∈ l, x.2 &&& en = 0 := by
  suffices H : ∀ (l : List (Nat × Flags)) (a : Flags), l.foldl (fun a x => a ||| x.2) a &&& en = 0 →
      a &&& en = 0 ∧ ∀ x ∈ l, x.2 &&& en = 0 from (H l 0 h).2
  intro l
  induction l with
  | nil => intro a ha; exact ⟨ha, by simp⟩
  | cons x l ih =>
    intro a ha
    obtain ⟨h1, h2⟩ := ih _ ha
    have h3 : (a &&& en) ||| (x.2 &&& en) = 0 := by rw [← h1]; ext i; simp; cases a[i] <;> cases x.2[i] <;> cases en[i] <;> rfl
    have h4 : a &&& en = 0 ∧ x.2 &&& en = 0 := by
      constructor <;> (ext i hi; have := congrArg (fun v => v[i]) h3; simp at this ⊢; first | exact this.1 | exact this.2)
    exact ⟨h4.1, fun y hy => (List.mem_cons.mp hy).elim (fun e => e ▸ h4.2) (h2 y)⟩

theorem fpDone_ok {s : State} {l : List (Nat × Flags)} (f : State → State) (h : NoTrap s (State.orAll l)) :
    s.fpDone l f = .ok (f (s.addFlags (State.orAll l))) := by
  have : l.filter (fun x => x.2 &&& s.enabled != 0) = [] := by
    rw [List.filter_eq_nil_iff]; intro x hx; simp [orAll_and h x hx]
  have h0 : s.fpFault l = none := by unfold State.fpFault; simp only []; rw [this]
  rw [State.fpDone, h0]

theorem withChans_ready {s : State} {srcs : List VSrc} {d : Option VDst} (a : Act) (h : ChansReady s srcs d) :
    s.withChans srcs d a = a := by
  have h1 : (srcs.filterMap VSrc.chan?).all s.srcOk = true := List.all_eq_true.mpr fun c hc => (h.1 c hc).1
  have h2 : (d.bind VDst.chan?).toList.all s.dstOk = true := List.all_eq_true.mpr fun c hc => (h.2 c hc).1
  have h3 : (srcs.filterMap VSrc.chan?).find? (fun c => !s.slotPresent c) = none := by
    rw [List.find?_eq_none]; intro c hc; simp [(h.1 c hc).2]
  simp only [State.withChans, h1, h2, h3]
  rcases hd : d.bind VDst.chan? with _ | c
  · simp
  · have := (h.2 c (by simp [hd])).2; simp; omega

theorem performV_ready {s : State} {p : Pred} {rs : List SReg} {srcs : List VSrc} {old : List VReg} {d : Option VDst} (a : Act)
    (h : Ready s p rs (State.regsOf srcs ++ old)) (hc : ChansReady s srcs d) :
    s.performV p rs srcs old d a = .next (s.finish a) := by
  rw [State.performV, withChans_ready a hc, State.perform_ready a h]

end Sys2Proof.Machine
end

