-- ==== Sys2Proof/Laws/Trip.lean ====
section
/-!
SUPPORT. Laws/Trip.lean: what the operations on what rides the fabric can do: what a message, a request and its answers change, and how one who
asks goes on, each case once.
-/

namespace Sys2Proof
open Machine

/-! What is sent changes what rides the fabric and nothing else. -/

theorem OnFabric.refl (s : State) : OnFabric s s := rfl

theorem OnFabric.trans {s t u : State} (h : OnFabric s t) (k : OnFabric t u) : OnFabric s u := by
  rw [OnFabric] at h k ⊢
  have e := congrArg (fun x : State => ({ x with trips := u.trips, fabric := u.fabric, flights := u.flights, nextId := u.nextId } : State)) h
  exact k.trans e

theorem OnFabric.sendMsg (s : State) (x : Msg) : OnFabric s (s.sendMsg x) := rfl

theorem OnFabric.sendLegs (t : Trip) (ctl out : Bool) (w : What) (ls : List Leg) :
    ∀ s : State, OnFabric s (s.sendLegs t ctl out w ls).2 := by
  induction ls with
  | nil => exact OnFabric.refl
  | cons l ls ih => exact fun s => (OnFabric.sendMsg s _).trans (ih _)

theorem OnFabric.startTrip (s : State) (t : Trip) (ctl : Bool) (ls : List Leg) : OnFabric s (s.startTrip t ctl ls) :=
  (OnFabric.sendLegs t ctl true .request ls s).trans rfl

theorem OnFabric.turnTrip (s : State) (t : Trip) (ctl : Bool) (ls : List Leg) : OnFabric s (s.turnTrip t ctl ls) :=
  (OnFabric.sendLegs t ctl false .reply ls s).trans rfl

/-- What asking and answering leave alone: the contexts and memory among it. -/
theorem OnFabric.keeps {s t : State} (h : OnFabric s t) :
    t.ctxs = s.ctxs ∧ t.focus = s.focus ∧ t.mem = s.mem ∧ t.accesses = s.accesses ∧ t.replies = s.replies ∧ t.now = s.now := by
  rw [OnFabric] at h; rw [h]; exact ⟨rfl, rfl, rfl, rfl, rfl, rfl⟩

namespace Machine.State

/-! The numbers of what is sent. -/

@[simp] theorem sendMsg_nextId (s : State) (x : Msg) : (s.sendMsg x).nextId = s.nextId + 1 := rfl
@[simp] theorem sendMsg_trips (s : State) (x : Msg) : (s.sendMsg x).trips = s.trips := rfl

theorem sendLegs_nums (t : Trip) (ctl out : Bool) (w : What) (ls : List Leg) :
    ∀ s : State, (s.sendLegs t ctl out w ls).1 = List.range' s.nextId ls.length := by
  induction ls with
  | nil => exact fun _ => rfl
  | cons l ls ih => intro s; simp only [sendLegs, ih, sendMsg_nextId, List.length_cons, List.range'_succ]

@[simp] theorem sendLegs_trips (t : Trip) (ctl out : Bool) (w : What) (ls : List Leg) :
    ∀ s : State, (s.sendLegs t ctl out w ls).2.trips = s.trips := by
  induction ls with
  | nil => exact fun _ => rfl
  | cons l ls ih => intro s; simp only [sendLegs, ih, sendMsg_trips]

/-- A message stands at its source with the number it got. -/
theorem sendMsg_stands (s : State) (x : Msg) : ∃ m ∈ ((s.sendMsg x).fab (x.src / 512)).msgs,
    m.num = s.nextId ∧ m.done = x.done ∧ m.src = x.src ∧ m.dst = x.dst ∧ m.what = x.what := by
  simp only [sendMsg, sendFrags, fab, setFab, lget_lset_same]
  exact ⟨_, List.mem_append_right _ (List.mem_singleton.mpr rfl), rfl, rfl, rfl, rfl, rfl⟩

/-- Sending takes no message away. -/
theorem sendMsg_keeps (s : State) (x : Msg) (d : Nat) {m : Msg} (h : m ∈ (s.fab d).msgs) : m ∈ ((s.sendMsg x).fab d).msgs := by
  by_cases hd : d = x.src / 512
  · subst hd
    simp only [sendMsg, sendFrags, fab, setFab, lget_lset_same]
    exact List.mem_append_left _ h
  · simpa only [sendMsg, sendFrags, fab, setFab, lget_lset_other _ _ _ hd] using h

theorem sendLegs_keeps (t : Trip) (ctl out : Bool) (w : What) (ls : List Leg) (d : Nat) {m : Msg} :
    ∀ s : State, m ∈ (s.fab d).msgs → m ∈ ((s.sendLegs t ctl out w ls).2.fab d).msgs := by
  induction ls with
  | nil => exact fun _ h => h
  | cons l ls ih => exact fun s h => ih _ (sendMsg_keeps s _ d h)

/-- Each of the messages of a request, or of its answers, stands at its source. -/
theorem sendLegs_stand (t : Trip) (ctl out : Bool) (w : What) (ls : List Leg) :
    ∀ (s : State) (i h n : Nat), (ls.map (fun l => l.node))[i]? = some h → (s.sendLegs t ctl out w ls).1[i]? = some n →
      ∃ m ∈ ((s.sendLegs t ctl out w ls).2.fab ((if out then t.src else h) / 512)).msgs, m.num = n ∧ m.done = false ∧
        m.src = (if out then t.src else h) ∧ m.dst = (if out then h else t.src) ∧ m.what = w := by
  induction ls with
  | nil => intro s i h n hi; simp at hi
  | cons l ls ih =>
    intro s i h n hi hn
    cases i with
    | zero =>
      simp only [List.map_cons, List.getElem?_cons_zero, Option.some.injEq] at hi
      simp only [sendLegs, List.getElem?_cons_zero, Option.some.injEq] at hn
      subst hi hn
      obtain ⟨m, hm, e⟩ := sendMsg_stands s
        { cls := classBetween (if out then t.src else l.node) (if out then l.node else t.src) ctl,
          src := if out then t.src else l.node, dst := if out then l.node else t.src, region := t.region, aid := t.aid, col := t.col,
          wave := t.wave, rtag := t.rtag, payload := l.payload, bytes := l.bytes, what := w }
      exact ⟨m, sendLegs_keeps t ctl out w ls _ _ hm, e⟩
    | succ i =>
      simp only [List.map_cons, List.getElem?_cons_succ] at hi
      simp only [sendLegs, List.getElem?_cons_succ] at hn
      exact ih _ i h n hi hn

/-! An engine's request: the four cases. -/

theorem viaFabric_busy {s : State} {t x : Trip} (ps : List Machine.Piece) (act : State → State) (h : s.tripOfKey t.who = some x)
    (hb : (x.back || !s.tripDone x) = true) : s.viaFabric t ps act = s := by
  simp [viaFabric, h, hb]

theorem viaFabric_come {s : State} {t x : Trip} (ps : List Machine.Piece) (act : State → State) (h : s.tripOfKey t.who = some x)
    (hb : x.back = false) (hd : s.tripDone x = true) : s.viaFabric t ps act = (act s).turnTrip x false (s.replyLegs ps) := by
  simp [viaFabric, h, hb, hd]

theorem viaFabric_near {s : State} {t : Trip} {ps : List Machine.Piece} (act : State → State) (h : s.tripOfKey t.who = none)
    (hn : s.homesOf ps = []) : s.viaFabric t ps act = act s := by
  simp [viaFabric, h, hn]

theorem viaFabric_asks {s : State} {t : Trip} {ps : List Machine.Piece} (act : State → State) (h : s.tripOfKey t.who = none)
    (hn : s.homesOf ps ≠ []) : s.viaFabric t ps act = s.startTrip t false (s.requests ps) := by
  simp [viaFabric, h, hn]

/-! An instruction's request: the same. -/

theorem heldLegs_busy {s : State} {x : Trip} (ctl : Bool) (req ans : List Leg) (a : Act) (h : s.tripOfKey s.tripHere.who = some x)
    (hb : (x.back || !s.tripDone x) = true) : s.heldLegs ctl req ans a = .hold s false := by
  simp [heldLegs, h, hb]

theorem heldLegs_come {s : State} {x : Trip} (ctl : Bool) (req ans : List Leg) (a : Act) (h : HasCome s x) :
    s.heldLegs ctl req ans a = s.turned x ctl ans a := by
  obtain ⟨h, -, hb, hd⟩ := h
  simp [heldLegs, h, hb, hd]

theorem heldLegs_near {s : State} (ctl : Bool) (ans : List Leg) (a : Act) (h : NotAsked s) : s.heldLegs ctl [] ans a = a := by
  rw [NotAsked] at h
  simp [heldLegs, h]

theorem heldLegs_asks {s : State} {ctl : Bool} {req : List Leg} (ans : List Leg) (a : Act) (h : NotAsked s) (hn : req ≠ []) :
    s.heldLegs ctl req ans a = .hold (s.startTrip s.tripHere ctl req) false := by
  rw [NotAsked] at h
  simp [heldLegs, h, hn]

/-! What stands after a request or its answers have left. -/

theorem requests_nodes (s : State) (ps : List Machine.Piece) : (s.requests ps).map (fun l => l.node) = s.homesOf ps := by
  have e : ∀ (h : Nat) (l : List Byte) (f : Nat), (legOf h l f).node = h := by
    intro h l f; unfold legOf; split <;> rfl
  have g : ((fun l : Leg => l.node) ∘ fun h => legOf h (((s.piecesAt h ps).filter (fun p => p.wr)).flatMap (fun p => toBytes p.n p.v)) s.nextId)
      = id := funext (fun h => e h _ _)
  rw [requests, List.map_map, g, List.map_id]

theorem startTrip_stands {s : State} {t : Trip} (ctl : Bool) (ls : List Leg) (h : s.tripOfKey t.who = none) (hb : t.back = false)
    (hl : t.lost = false) : Stands (s.startTrip t ctl ls) t.who t.src false (ls.map (fun l => l.node)) := by
  have hf : ∀ x : Trip, x.who = t.who → (s.startTrip t ctl ls).tripOfKey t.who = (s.trips ++ [{ t with
      nums := (s.sendLegs t ctl true .request ls).1 }]).find? (fun y => y.who == t.who) := by
    intro _ _; simp [startTrip, tripOfKey]
  refine ⟨{ t with nums := (s.sendLegs t ctl true .request ls).1 }, ?_, rfl, hb, hl, ?_, ?_⟩
  · rw [hf t rfl, List.find?_append, show s.trips.find? (fun y => y.who == t.who) = none from h]
    simp
  · simp [sendLegs_nums]
  · intro i k n hk hn
    exact sendLegs_stand t ctl true .request ls s i k n hk hn

end Machine.State

end Sys2Proof
end

