-- ==== Sys2Proof/Tests/Slice0.lean ====
section
/-!
SUPPORT. Tests/Slice0.lean: the model's own tests: words written out from the encodings of the spec, an ill-formed term for each check,
worked values of the spec, and for each statement a state and operands that meet its hypotheses. Expected values come from the rules named.
-/

namespace Sys2Proof.Tests
open Machine

set_option Elab.async false

/-! Words written out from the encoding tables (spec/09 R186 and the families' tables). -/

/-- The predicate p0, not negated. -/
abbrev p0 : Pred := ⟨0, false⟩
/-- Layout M at its defaults: width double, plain. -/
abbrev mD : MemF := ⟨.d, false, false, .plain, .region, 0, 0, 0⟩
/-- Layout M of width word. -/
abbrev mW : MemF := ⟨.w, false, false, .plain, .region, 0, 0, 0⟩
/-- Layout M of width byte. -/
abbrev mB : MemF := ⟨.b, false, false, .plain, .region, 0, 0, 0⟩
/-- No mask. -/
abbrev mk0 : Mask := ⟨0, false, false⟩

theorem test_decode_nop : decodeWord 0x4000000000000000#64 = some (.nop p0) := by decide +kernel
theorem test_decode_add : decodeWord 0x4080030102000000#64 = some (.add p0 3 1 2) := by decide +kernel
theorem test_decode_predicate : decodeWord 0x4083830102000000#64 = some (.add ⟨3, true⟩ 3 1 2) := by decide +kernel
theorem test_decode_sel : decodeWord 0x4680010203010000#64 = some (.sel p0 1 2 3 1) := by decide +kernel
theorem test_decode_fadd : decodeWord 0x4C2C040102000000#64 = some (.fadd p0 .f32 4 1 2 .none .rne) := by decide +kernel
theorem test_decode_fcmp : decodeWord 0x4DAC010203000001#64 = some (.fcmp p0 .f32 1 2 3 .lt) := by decide +kernel
theorem test_decode_vmax : decodeWord 0x516C000008000000#64 = some (.vmax p0 .f32 (.reg 0) (.reg 0) (.reg 8) mk0) := by decide +kernel
theorem test_decode_vcmp : decodeWord 0x53AC010001000040#64 = some (.vcmp p0 .f32 1 (.reg 0) (.reg 1) mk0 .lt) := by decide +kernel
theorem test_decode_vcvt : decodeWord 0x542C040100000340#64 = some (.vcvt p0 .f32 (.reg 4) (.reg 1) mk0 1 .bf16 .none .rne) := by decide +kernel
theorem test_decode_vtopk_reset : decodeWord 0x5640000000003F00#64 = some (.vtopkReset p0 15 3) := by decide +kernel
theorem test_decode_mmat : decodeWord 0x6860010405000000#64 = some (.mmat p0 .e4m3 1 4 5 false) := by decide +kernel
theorem test_decode_mmat_cb2 : decodeWord 0x6860010405000020#64 = some (.mmat p0 .e4m3 1 4 5 true) := by decide +kernel
theorem test_decode_mzero : decodeWord 0x6800010000000000#64 = some (.mzero p0 1) := by decide +kernel
theorem test_decode_mrdr : decodeWord 0x68A8020100000060#64 = some (.mrdr p0 .bf16 (.reg 2) 1 false 3 .none .rne) := by decide +kernel
theorem test_decode_msta : decodeWord 0x6968000106000000#64 = some (.msta p0 .bf16 1 6 .none .rne) := by decide +kernel
theorem test_decode_mlda : decodeWord 0x6980030600000000#64 = some (.mlda p0 3 6) := by decide +kernel
theorem test_decode_vldf : decodeWord 0xC2A0010103000800#64 = some (.vldf p0 mW 1 1 3) := by decide +kernel
theorem test_decode_stf : decodeWord 0xC260000900020800#64 = some (.stf p0 mW 9 0 2) := by decide +kernel
theorem test_decode_ld_ts : decodeWord 0xC034050807000400#64 = some (.ld p0 ⟨.d, false, true, .plain, .core, 0, 0, 0⟩ 5 8 7) := by decide +kernel
theorem test_decode_fence : decodeWord 0xC5C0000000004400#64 = some (.fence p0 ⟨.b, false, false, .rel, .core, 0, 0, 0⟩) := by decide +kernel
theorem test_decode_osclm : decodeWord 0xC6C0030200000800#64 = some (.osclm p0 mB 3 2) := by decide +kernel
theorem test_decode_emit : decodeWord 0xD400410000000000#64 = some (.emit p0 1) := by decide +kernel
theorem test_decode_pres : decodeWord 0xD4C001C200000000#64 = some (.pres p0 1 2) := by decide +kernel
theorem test_decode_pops : decodeWord 0xD500018200000000#64 = some (.pops p0 1 2) := by decide +kernel
theorem test_decode_ttenq : decodeWord 0xD580030200000003#64 = some (.ttenq p0 3 2 1 true) := by decide +kernel
theorem test_decode_purge : decodeWord 0xF180010203000000#64 = some (.purge p0 1 2 3) := by decide +kernel
theorem test_decode_sqnew : decodeWord 0xDC00010203000000#64 = some (.sqnew p0 1 2 3) := by decide +kernel
theorem test_decode_waitc : decodeWord 0xD240000000010000#64 = some (.waitc p0 1 0 0 0) := by decide +kernel
theorem test_decode_barinit : decodeWord 0xD300000000020003#64 = some (.barinit p0 2 3) := by decide +kernel
theorem test_decode_li : decodeWord 0x8000010040000000#64 = some (.li p0 1 0x40000000) := by decide +kernel
theorem test_decode_vbcasti : decodeWord 0x8368020000003F80#64 = some (.vbcasti p0 .bf16 2 0x3F80) := by decide +kernel
theorem test_decode_fli : decodeWord 0x83B003003F000000#64 = some (.fli p0 .f64 3 0x3F000000) := by decide +kernel
theorem test_decode_call : decodeWord 0xD0800F0000000014#64 = some (.call p0 15 0x14) := by decide +kernel
theorem test_decode_ret : decodeWord 0xD0C0000F00000000#64 = some (.ret p0 15) := by decide +kernel
theorem test_decode_trap : decodeWord 0xD1C0000000000007#64 = some (.trap p0 7) := by decide +kernel
theorem test_decode_tret : decodeWord 0xD200000500000001#64 = some (.tret p0 5 true) := by decide +kernel
theorem test_decode_code : decodeCode 0x03FF#16 = some (.dictionaryCode 0x3FF) := by decide +kernel
/-- A code with a reserved field is none (spec/09 R183). -/
theorem test_decode_code_reserved : decodeCode 0x0400#16 = none := by decide +kernel

/-! An ill-formed term for each check of WellFormed, and words that the decoder refuses (spec/09 R200). -/

/-- Field and selector checks: a field past bit 63, an empty one, an unnumbered special register, AUX beside another register than LAPN, a
read-only register, an expected count of 0. -/
theorem test_wf_scalar_fields :
    (Instr.bfx p0 .i64 1 2 4 61).wf = false ∧ (Instr.bfi p0 1 2 3 0 0).wf = false ∧ (Instr.bfx p0 .i32 1 2 4 0).wf = false ∧
    (Instr.mfs p0 1 15 0).wf = false ∧ (Instr.mfs p0 1 14 1).wf = false ∧ (Instr.mts p0 8 1).wf = false ∧ (Instr.mts p0 13 1).wf = false ∧
    (Instr.barinit p0 0 3).wf = false ∧ (Instr.sext p0 .n8 1 2).wf = false ∧ (Instr.zext p0 .i8 1 2).wf = false := by decide +kernel

/-- Type, ROUND and SAT checks. -/
theorem test_wf_types :
    (Instr.fadd p0 .fp16 1 2 3 .none .rne).wf = false ∧ (Instr.fadd p0 .f32 1 2 3 .nan .rne).wf = false ∧
    (Instr.fcvt p0 .f32 1 2 .f32 .none .rne).wf = false ∧ (Instr.fcvt p0 .i32 1 2 .i64 .none .rne).wf = false ∧
    (Instr.fcvt p0 .i32 1 2 .f32 .sat .rne).wf = false ∧ (Instr.fli p0 .i64 1 0).wf = false ∧
    (Instr.vadd p0 .e4m3 (.reg 0) (.reg 1) (.reg 2) mk0 .none .rne).wf = false ∧
    (Instr.vadd p0 .i32 (.reg 0) (.reg 1) (.reg 2) mk0 .none .rz).wf = false ∧
    (Instr.vmulh p0 .f32 (.reg 0) (.reg 1) (.reg 2) mk0).wf = false ∧ (Instr.vmov p0 .f64 (.reg 0) (.reg 1) mk0).wf = false ∧
    (Instr.vabs p0 .f32 (.reg 0) (.reg 1) mk0 .sat .rne).wf = false ∧ (Instr.vcmp p0 .i8 0 (.reg 1) (.reg 2) mk0 .un).wf = false ∧
    (Instr.vcmp p0 .f32 0 (.reg 1) (.reg 2) ⟨0, false, true⟩ .lt).wf = false ∧ (Instr.vrcp p0 .i8 (.reg 0) (.reg 1) mk0 .none).wf = false ∧
    (Instr.vbcasti p0 .i8 0 0x100).wf = false ∧ (Instr.vbcasti p0 .f64 0 0).wf = false := by decide +kernel

/-- Conversion, lane and register group checks. -/
theorem test_wf_vectors :
    (Instr.vcvt p0 .f32 (.reg 0) (.reg 1) mk0 2 .bf16 .none .rne).wf = false ∧
    (Instr.vcvt p0 .e4m3 (.reg 0) (.reg 1) mk0 0 .f32 .none .rne).wf = false ∧
    (Instr.vcvt p0 .f32 (.reg 0) (.reg 1) mk0 0 .bf16 .nan .rne).wf = false ∧
    (Instr.vcvt p0 .i8 (.reg 0) (.reg 1) mk0 0 .f32 .sat .rne).wf = false ∧
    (Instr.vqnt p0 (.reg 0) 29 1 .sat .rne).wf = false ∧ (Instr.vqnt p0 (.reg 0) 0 1 .none .rne).wf = false ∧
    (Instr.vscale p0 .f32 (.reg 0) (.reg 1) 0 mk0 true .none .rne).wf = false ∧ (Instr.vbcast p0 .f32 (.reg 0) (.reg 1) 16).wf = false ∧
    (Instr.vins p0 .i8 0 1 63).wf = true ∧ (Instr.vext p0 .n16 1 (.reg 0) 32).wf = false ∧ (Instr.viota p0 .bf16 (.reg 0) 1).wf = false ∧
    (Instr.vsum p0 .f32 (.reg 0) (.reg 1) ⟨0, true, true⟩ .none .rne).wf = false ∧
    (Instr.vdot p0 .i8 (.reg 0) (.reg 1) (.reg 2) mk0 .nan .rne).wf = false := by decide +kernel

/-- The tile array's checks. -/
theorem test_wf_matrix :
    (Instr.mmat p0 .bf16 0 1 2 true).wf = false ∧ (Instr.mmat p0 .f32 0 1 2 false).wf = false ∧
    (Instr.mrdr p0 .bf16 (.reg 0) 0 true 0 .none .rne).wf = false ∧ (Instr.mrdr p0 .e4m3 (.reg 0) 0 true 0 .none .rne).wf = false ∧
    (Instr.mrdc p0 .f32 (.reg 0) 0 false 0 .sat .rne).wf = false ∧ (Instr.mwrr p0 .i16 0 (.reg 0) true 0).wf = false ∧
    (Instr.msta p0 .i8 0 1 .none .rne).wf = false := by decide +kernel

/-- Layout M's checks: order, links, TS, scope, SX and width. -/
theorem test_wf_memory :
    (Instr.ld p0 { mD with mo := .rel } 1 2 3).wf = false ∧ (Instr.st p0 { mD with mo := .acq } 1 2 3).wf = false ∧
    (Instr.ld p0 { mD with sx := true } 1 2 3).wf = false ∧ (Instr.st p0 { mW with sx := true } 1 2 3).wf = false ∧
    (Instr.ld p0 { mD with pd := 1 } 1 2 3).wf = false ∧ (Instr.ld p0 { mD with seq := 2, pd := 2 } 1 2 3).wf = false ∧
    (Instr.ld p0 { mD with seq := 63, sd := 1 } 1 2 3).wf = false ∧ (Instr.ld p0 { mD with ts := true, sc := .region } 1 2 3).wf = false ∧
    (Instr.ldf p0 { mD with ts := true, sc := .core } 1 2 3).wf = false ∧ (Instr.ldf p0 { mD with wd := .h } 1 2 3).wf = false ∧
    (Instr.fence p0 { mB with seq := 1 }).wf = false ∧ (Instr.fence p0 mW).wf = false ∧ (Instr.feget p0 mD 1 2 3).wf = false ∧
    (Instr.aadd p0 { mD with sx := true } 1 2 3 4).wf = false ∧ (Instr.aadd p0 mB 1 2 3 4).wf = false := by decide +kernel

/-- What the decoder refuses: an unassigned opcode, a nonzero unused field, a K bit on a scalar register, a reserved TY, a reserved ROUND. -/
theorem test_decode_refuses :
    decodeWord 0x5BC0000000000000#64 = none ∧ decodeWord 0x4000000000000001#64 = none ∧ decodeWord 0x4080034102000000#64 = none ∧
    decodeWord 0x46E8010203000000#64 = none ∧ decodeWord 0xFF40000000000000#64 = none ∧ decodeWord 0x4C2C040102000005#64 = none := by
  decide +kernel

/-! Small states. -/

/-- Tile 0, context 0, with two scalar registers. -/
def sc (x y : Word) : State := (State.reset.wrS 1 x).wrS 2 y

/-- Two vector registers, each with the same word in every 64 bits. -/
def vv (x y : Vec) : State := (State.reset.wrV 0 x).wrV 1 y

/-- What a scalar register, a predicate, a mask, a vector register holds after an instruction. -/
def gotS (o : Outcome) (r : SReg) : Option Word := match o with
  | .next t => some (t.rdS r)
  | _ => none
def gotP (o : Outcome) (r : PReg) : Option Bool := match o with
  | .next t => some (t.rdP r)
  | _ => none
def gotM (o : Outcome) (r : MReg) : Option Word := match o with
  | .next t => some (t.rdM r)
  | _ => none
def gotV (o : Outcome) (r : VReg) : Option Vec := match o with
  | .next t => some (t.rdV r)
  | _ => none
/-- What some part of the state is after an instruction. -/
def gotF {α : Type} (o : Outcome) (f : State → α) : Option α := match o with
  | .next t => some (f t)
  | _ => none

/-- The cause that a trap recorded, at the frame's offset 0x700. -/
def cause (o : Outcome) : Option Nat := gotF o (fun t => if (t.frame 0).cont = .trapped then mread t.tmem 0x700 1 else 0)
/-- An activation that runs, with nothing outstanding. -/
def quiet (x y : Word) : State := (sc x y).setCur { (sc x y).cur with busy := true, aid := 5 }

/-- The request of the instruction in focus has come to its homes. -/
def came (s : State) : State := { s with trips := [{ s.tripHere with nums := [] }] }

/-- The request of an engine has come to its homes. -/
def cameFor (who : List Nat) (s : State) : State := { s with trips := [{ who := who, nums := [] }] }

/-! Scalar instructions (spec/11 R222 to R234). -/

/-- Every scalar statement's hypotheses: the predicate holds and no source waits. -/
theorem test_meets_scalar : Ready (sc 5 3) p0 [1, 2, 3] [] ∧ Ready State.reset p0 [] [] ∧ WF.fieldOk 63 1 = true ∧
    WF.fieldOk 0 64 = true ∧ WF.vbcastiOk .i8 0xFF = true ∧ WF.vbcastiOk .i64 0xFFFFFFFF = true := by
  simp only [Ready]; decide +kernel

theorem test_add_wraps : gotS (exec (.add p0 3 1 2) (sc (-1) 1)) 3 = some 0 := by decide +kernel
theorem test_sub : gotS (exec (.sub p0 3 1 2) (sc 0 1)) 3 = some (-1) := by decide +kernel
theorem test_mul_low : gotS (exec (.mul p0 3 1 2) (sc (-1) 2)) 3 = some (-2) := by decide +kernel
theorem test_mulh_signed : gotS (exec (.mulh p0 3 1 2) (sc (-1) 2)) 3 = some (-1) := by decide +kernel
theorem test_mulhu : gotS (exec (.mulhu p0 3 1 2) (sc (-1) 2)) 3 = some 1 := by decide +kernel
theorem test_div_truncates : gotS (exec (.div p0 3 1 2) (sc (-7) 2)) 3 = some (-3) := by decide +kernel
theorem test_div_by_zero : gotS (exec (.div p0 3 1 2) (sc 7 0)) 3 = some (-1) ∧ gotS (exec (.divu p0 3 1 2) (sc 7 0)) 3 = some (-1) := by
  decide +kernel
theorem test_div_overflow : gotS (exec (.div p0 3 1 2) (sc (1 <<< 63) (-1))) 3 = some (1 <<< 63) := by decide +kernel
theorem test_rem_sign : gotS (exec (.rem p0 3 1 2) (sc (-7) 2)) 3 = some (-1) := by decide +kernel
theorem test_rem_overflow : gotS (exec (.rem p0 3 1 2) (sc (1 <<< 63) (-1))) 3 = some 0 := by decide +kernel
theorem test_remu_by_zero : gotS (exec (.remu p0 3 1 2) (sc 7 0)) 3 = some 7 := by decide +kernel
theorem test_divu : gotS (exec (.divu p0 3 1 2) (sc (-1) 2)) 3 = some ((1 <<< 63) - 1) := by decide +kernel
theorem test_and_or_xor_andn : gotS (exec (.and p0 3 1 2) (sc 12 10)) 3 = some 8 ∧ gotS (exec (.or p0 3 1 2) (sc 12 10)) 3 = some 14 ∧
    gotS (exec (.xor p0 3 1 2) (sc 12 10)) 3 = some 6 ∧ gotS (exec (.andn p0 3 1 2) (sc 12 10)) 3 = some 4 := by decide +kernel
theorem test_shift_count : gotS (exec (.shl p0 3 1 2) (sc 1 65)) 3 = some 2 ∧ gotS (exec (.shr p0 3 1 2) (sc (1 <<< 63) 63)) 3 = some 1 ∧
    gotS (exec (.sra p0 3 1 2) (sc (1 <<< 63) 63)) 3 = some (-1) ∧ gotS (exec (.rol p0 3 1 2) (sc (1 <<< 63) 65)) 3 = some 1 := by decide +kernel
theorem test_min_max : gotS (exec (.min p0 3 1 2) (sc (-1) 1)) 3 = some (-1) ∧ gotS (exec (.max p0 3 1 2) (sc (-1) 1)) 3 = some 1 ∧
    gotS (exec (.minu p0 3 1 2) (sc (-1) 1)) 3 = some 1 ∧ gotS (exec (.maxu p0 3 1 2) (sc (-1) 1)) 3 = some (-1) := by decide +kernel
theorem test_clz : gotS (exec (.clz p0 3 1) (sc 0 0)) 3 = some 64 ∧ gotS (exec (.clz p0 3 1) (sc 1 0)) 3 = some 63 := by decide +kernel
theorem test_popc_brev : gotS (exec (.popc p0 3 1) (sc (-1) 0)) 3 = some 64 ∧ gotS (exec (.brev p0 3 1) (sc 1 0)) 3 = some (1 <<< 63) := by
  decide +kernel
theorem test_sel : gotS (exec (.sel p0 3 1 2 0) (sc 5 6)) 3 = some 5 ∧ gotS (exec (.sel p0 3 1 2 1) (sc 5 6)) 3 = some 6 := by decide +kernel
theorem test_lea : gotS (exec (.lea p0 3 1 2 7) (sc 1 2)) 3 = some 257 := by decide +kernel
theorem test_bfx : gotS (exec (.bfx p0 .i64 3 1 4 60) (sc (8 <<< 60) 0)) 3 = some (-8) ∧
    gotS (exec (.bfx p0 .n64 3 1 4 60) (sc (8 <<< 60) 0)) 3 = some 8 := by decide +kernel
theorem test_bfi : gotS (exec (.bfi p0 3 1 2 8 4) (sc (-1) 0)) 3 = some 0xFFFFFFFFFFFFF00F := by decide +kernel
theorem test_ext : gotS (exec (.sext p0 .i8 3 1) (sc 0x180 0)) 3 = some (-128) ∧ gotS (exec (.zext p0 .n8 3 1) (sc 0x180 0)) 3 = some 128 := by
  decide +kernel
theorem test_mov_to_s0 : gotS (exec (.mov p0 0 1) (sc 5 0)) 0 = some 0 := by decide +kernel
theorem test_cmp : gotP (exec (.cmp p0 .lt 1 1 2) (sc (-1) 0)) 1 = some true ∧ gotP (exec (.cmp p0 .ltu 1 1 2) (sc (-1) 0)) 1 = some false ∧
    gotP (exec (.cmpi p0 .eq 1 1 0xFFFFFFFF) (sc (-1) 0)) 1 = some true := by decide +kernel
theorem test_pand_inverts : gotP (exec (.pand p0 true false 1 0 0) State.reset) 1 = some false ∧
    gotP (exec (.por p0 true false 1 0 0) State.reset) 1 = some true ∧ gotP (exec (.pxor p0 true false 1 0 0) State.reset) 1 = some true ∧
    gotP (exec (.pnot p0 1 1) State.reset) 1 = some true := by decide +kernel
theorem test_imm : gotS (exec (.li p0 3 0x80000000) State.reset) 3 = some 0xFFFFFFFF80000000 ∧
    gotS (exec (.lih p0 3 1 7) (sc (-1) 0)) 3 = some 0x7FFFFFFFF ∧ gotS (exec (.addi p0 3 1 0xFFFFFFFF) (sc 1 0)) 3 = some 0 ∧
    gotS (exec (.andi p0 3 1 0xFFFFFFF0) (sc (-1) 0)) 3 = some (-16) ∧ gotS (exec (.ori p0 3 1 1) (sc 2 0)) 3 = some 3 ∧
    gotS (exec (.xori p0 3 1 0xFFFFFFFF) (sc 0 0)) 3 = some (-1) ∧ gotS (exec (.muli p0 3 1 0xFFFFFFFF) (sc 2 0)) 3 = some (-2) ∧
    gotS (exec (.mini p0 3 1 0xFFFFFFFF) (sc 2 0)) 3 = some (-1) ∧ gotS (exec (.maxi p0 3 1 0xFFFFFFFF) (sc 2 0)) 3 = some 2 ∧
    gotS (exec (.shli p0 3 1 63) (sc 1 0)) 3 = some (1 <<< 63) ∧ gotS (exec (.shri p0 3 1 63) (sc (-1) 0)) 3 = some 1 ∧
    gotS (exec (.srai p0 3 1 63) (sc (-1) 0)) 3 = some (-1) := by decide +kernel
/-- spec/11 R234: 0x3F000000 is 0.5 in either type. -/
theorem test_fli : gotS (exec (.fli p0 .f64 3 0x3F000000) State.reset) 3 = some 0x3FE0000000000000 ∧
    gotS (exec (.fli p0 .f32 3 0x3F000000) State.reset) 3 = some 0x3F000000 := by decide +kernel
theorem test_vbcasti : gotV (exec (.vbcasti p0 .i8 2 0x7F) State.reset) 2 = some (BitVec.ofNat 512 (0x7F * ((2 ^ 512 - 1) / 255))) := by
  decide +kernel
/-- A false predicate: only IP and the issue count move (spec/09 R202). -/
theorem test_meets_false_predicate : (State.reset).holds ⟨1, false⟩ = false ∧
    gotS (exec (.add ⟨1, false⟩ 3 1 2) (sc 5 6)) 3 = some 0 ∧ gotF (exec (.add ⟨1, false⟩ 3 1 2) (sc 5 6)) (·.cur.ip) = some 4 := by decide +kernel

/-! Floating point (spec/11 R226 to R230, the worked results of R230). -/

theorem test_meets_scalar_float : NoTrap State.reset 0x1F ∧ WF.scalarFloat .f64 = true ∧ WF.fcvtOk .f32 .i64 .sat = true ∧
    State.enabled ({ State.reset with tiles := [(0, { fctl := [(0, 0xF00)] })] } : State) = 0x17 := by
  simp only [NoTrap]; decide +kernel
theorem test_fadd_tie : gotS (exec (.fadd p0 .f32 3 1 2 .none .rne) (sc 0x3F800000 0x33800000)) 3 = some 0x3F800000 ∧
    gotS (exec (.fadd p0 .f32 3 1 2 .none .ru) (sc 0x3F800000 0x33800000)) 3 = some 0x3F800001 ∧
    gotF (exec (.fadd p0 .f32 3 1 2 .none .rne) (sc 0x3F800000 0x33800000)) (·.fstat) = some 4 := by decide +kernel
theorem test_fmul_overflow : gotS (exec (.fmul p0 .f32 3 1 2 .none .rne) (sc 0x71800000 0x71800000)) 3 = some 0x7F800000 ∧
    gotF (exec (.fmul p0 .f32 3 1 2 .none .rne) (sc 0x71800000 0x71800000)) (·.fstat) = some 5 := by decide +kernel
theorem test_fsub_fma : gotS (exec (.fsub p0 .f64 3 1 1 .none .rne) (sc 0x3FF0000000000000 0)) 3 = some 0 ∧
    gotS (exec (.ffma p0 .f64 3 0 1 2 .none .rne) (sc 0x7FF0000000000000 0x3FF0000000000000)) 3 = some 0x7FF8000000000000 := by decide +kernel
theorem test_fmin_fmax_zero : gotS (exec (.fmin p0 .f32 3 1 2) (sc 0 0x80000000)) 3 = some 0x80000000 ∧
    gotS (exec (.fmax p0 .f32 3 1 2) (sc 0x80000000 0)) 3 = some 0 := by decide +kernel
theorem test_fcmp_zero : gotP (exec (.fcmp p0 .f32 1 1 2 .eq) (sc 0 0x80000000)) 1 = some true ∧
    gotP (exec (.fcmp p0 .f32 1 1 2 .ne) (sc 0x7FC00000 0)) 1 = some true ∧
    gotP (exec (.fcmp p0 .f32 1 1 2 .un) (sc 0x7FC00000 0)) 1 = some true := by decide +kernel
theorem test_fcvt : gotS (exec (.fcvt p0 .i32 3 1 .f32 .none .rz) (sc 0xC0200000 0)) 3 = some (-2) ∧
    gotS (exec (.fcvt p0 .i32 3 1 .f32 .none .rne) (sc 0x4FC00000 0)) 3 = some 0x7FFFFFFF ∧
    gotS (exec (.fcvt p0 .n32 3 1 .f32 .none .rne) (sc 0xBF800000 0)) 3 = some 0 := by decide +kernel

/-- A tile whose FCTL enables NX (INE, bit 10): an inexact sum traps INV before any effect (spec/04 R90). -/
def ine : State := ((sc 0x3F800000 0x33800000).setTile 0 { fctl := [(0, 0x400)] })
theorem test_meets_enabled_exception : Ready ine p0 [1, 2] [] ∧
    (fAdd .f32 (ine.rmode .rne) .none 0x3F800000 0x33800000).fl &&& ine.enabled ≠ 0 ∧
    gotF (exec (.fadd p0 .f32 3 1 2 .none .rne) ine) (fun t => decide ((t.frame 0).cont = .trapped)) = some true ∧
    gotF (exec (.fadd p0 .f32 3 1 2 .none .rne) ine) (fun t => mread t.tmem 0x700 1) = some 0x0E := by
  simp only [Ready]; decide +kernel

/-! Special registers (spec/10 R212 to R217). -/

/-- An activation of frame 3, slot 2, colour 1, wave 0x100, request tag 7 on context 1 of tile 33, whose colour has SYS. -/
def act : State :=
  ({ State.reset with focus := 133, cores := [(1, { region := some 1 })], regions := [(1, { cores := [1], colours := [(1, 0xD)] })] } : State).setCur
    { busy := true, aid := 9, frame := 3, ip := 0x40, col := 1, wave := 0x100, rtag := 7, opsl := 2, sregs := [(1, 0xF03), (2, 0)] }
theorem test_mfs : gotS (exec (.mfs p0 3 0 0) act) 3 = some 0x1800 ∧ gotS (exec (.mfs p0 3 6 0) act) 3 = some 1 ∧
    gotS (exec (.mfs p0 3 7 0) act) 3 = some 1 ∧ gotS (exec (.mfs p0 3 12 0) act) 3 = some 0x2000 := by decide +kernel
theorem test_meets_mts : Ready act p0 [1, 2] [] ∧ act.priv = true ∧ gotF (exec (.mts p0 9 1) act) (·.fctl) = some 0xF03 ∧
    gotF (exec (.mts p0 12 2) act) (fun t => (t.tile 33).hbudget) = some 0x2000 ∧
    gotF (exec (.mts p0 11 1) act) (fun t => (t.tile 33).hmask) = some 0xF03 ∧
    gotF (exec (.mts p0 10 1) act) (·.fstat) = some 3 := by
  simp only [Ready]; decide +kernel
/-- Without SYS and outside trap-operator mode HMASK is not written (spec/09 R203). -/
theorem test_meets_privilege : kSys (State.reset.colourEntry 0 0 0) = false ∧ hTrapOp (lget 0 (State.reset.tile 0).handlers 0) = false ∧
    gotF (exec (.mts p0 11 1) (sc 5 0)) (fun t => ((t.tile 0).hmask, decide ((t.frame 0).cont = .trapped))) = some (0, true) := by decide +kernel

/-! Every instruction of the opcode map, its word written out from spec/09 R186, R187, R193 to R199 and the field tables of its chapter. -/

theorem test_words_scalar : [
      0x4000000000000000, 0x4040010200000000, 0x40803F0203000000, 0x40C03F0203000000, 0x41003F0203000000, 0x41403F0203000000, 0x41803F0203000000,
      0x41C03F0203000000, 0x42003F0203000000, 0x42403F0203000000, 0x42803F0203000000, 0x42C03F0203000000, 0x43003F0203000000, 0x43403F0203000000,
      0x43803F0203000000, 0x43C03F0203000000, 0x44003F0203000000, 0x44403F0203000000, 0x44803F0203000000, 0x44C03F0203000000, 0x45003F0203000000,
      0x45403F0203000000, 0x45803F0203000000].map (fun x => decodeWord (BitVec.ofNat 64 x)) =
    ([.nop p0, .mov p0 1 2, .add p0 63 2 3,
      .sub p0 63 2 3, .mul p0 63 2 3, .mulh p0 63 2 3,
      .mulhu p0 63 2 3, .div p0 63 2 3, .divu p0 63 2 3,
      .rem p0 63 2 3, .remu p0 63 2 3, .and p0 63 2 3,
      .or p0 63 2 3, .xor p0 63 2 3, .andn p0 63 2 3,
      .shl p0 63 2 3, .shr p0 63 2 3, .sra p0 63 2 3,
      .rol p0 63 2 3, .min p0 63 2 3, .max p0 63 2 3,
      .minu p0 63 2 3, .maxu p0 63 2 3] : List Instr).map some := by decide +kernel
theorem test_words_scalar_more : [
      0x45C0013F00000000, 0x4600013F00000000, 0x4640013F00000000, 0x4680010203020000, 0x46E4030102000000, 0x4700010203000007, 0x474C010200000108,
      0x4780010203001000, 0x47C4010200000000, 0x4814010200000000, 0x4840010D00000005, 0x4880090200000000, 0x4C3001020300000A, 0x4C7001020300000A,
      0x4CB001020300000A, 0x4CEC01020304001F, 0x4D30010203000000, 0x4D70010203000000, 0x4DB0010203000004, 0x4DC8010200000161, 0x4E04010203000000,
      0x4E48010203000000, 0x4E8C010203000000, 0x4EC0010200000000].map (fun x => decodeWord (BitVec.ofNat 64 x)) =
    ([.clz p0 1 63, .popc p0 1 63, .brev p0 1 63,
      .sel p0 1 2 3 2, .cmp p0 .gtu 3 1 2, .lea p0 1 2 3 7,
      .bfx p0 .i64 1 2 4 8, .bfi p0 1 2 3 64 0, .sext p0 .i16 1 2,
      .zext p0 .n16 1 2, .mfs p0 1 13 5, .mts p0 9 2,
      .fadd p0 .f64 1 2 3 .sat .ru, .fsub p0 .f64 1 2 3 .sat .ru, .fmul p0 .f64 1 2 3 .sat .ru,
      .ffma p0 .f32 1 2 3 4 .nosat .dyn, .fmin p0 .f64 1 2 3, .fmax p0 .f64 1 2 3,
      .fcmp p0 .f64 1 2 3 .ne, .fcvt p0 .i32 1 2 .f32 .none .rz, .pand p0 true false 1 2 3,
      .por p0 false true 1 2 3, .pxor p0 true true 1 2 3, .pnot p0 1 2] : List Instr).map some := by decide +kernel
theorem test_words_vector : [
      0x50284280C1007809, 0x50684280C1007809, 0x50A84280C1007809, 0x50C40102031F0008, 0x51100102BF00F000, 0x51500102BF00F000, 0x5A100102BF00F000,
      0x52D00102BF00F000, 0x53100102BF00F000, 0x53500102BF00F000, 0x52100102BF00F000, 0x52500102BF00F000, 0x52900102BF00F000, 0x5184010200000008,
      0x51C4010200000008, 0x53AC0102030000C0, 0x53E0010203070000, 0x5A98010203000000, 0x5AD8010203000000, 0x5B18010203000000, 0x5B58010200000000,
      0x5B98090200000000].map (fun x => decodeWord (BitVec.ofNat 64 x)) =
    ([.vadd p0 .bf16 (.chan 2) (.chan false 0) (.chan true 1) ⟨3, true, true⟩ .sat .rz, .vsub p0 .bf16 (.chan 2) (.chan false 0) (.chan true 1) ⟨3, true, true⟩ .sat .rz, .vmul p0 .bf16 (.chan 2) (.chan false 0) (.chan true 1) ⟨3, true, true⟩ .sat .rz,
      .vfma p0 .i16 (.reg 1) (.reg 2) (.reg 3) (.reg 31) mk0 .sat .rne, .vmin p0 .n8 (.reg 1) (.reg 2) (.chan false 63) ⟨7, true, false⟩, .vmax p0 .n8 (.reg 1) (.reg 2) (.chan false 63) ⟨7, true, false⟩,
      .vmulh p0 .n8 (.reg 1) (.reg 2) (.chan false 63) ⟨7, true, false⟩, .vshl p0 .n8 (.reg 1) (.reg 2) (.chan false 63) ⟨7, true, false⟩, .vshr p0 .n8 (.reg 1) (.reg 2) (.chan false 63) ⟨7, true, false⟩,
      .vsra p0 .n8 (.reg 1) (.reg 2) (.chan false 63) ⟨7, true, false⟩, .vand p0 .n8 (.reg 1) (.reg 2) (.chan false 63) ⟨7, true, false⟩, .vor p0 .n8 (.reg 1) (.reg 2) (.chan false 63) ⟨7, true, false⟩,
      .vxor p0 .n8 (.reg 1) (.reg 2) (.chan false 63) ⟨7, true, false⟩, .vabs p0 .i16 (.reg 1) (.reg 2) mk0 .sat .rne, .vneg p0 .i16 (.reg 1) (.reg 2) mk0 .sat .rne,
      .vcmp p0 .f32 1 (.reg 2) (.reg 3) mk0 .un, .vsel p0 .e4m3 (.reg 1) (.reg 2) (.reg 3) 7, .mand p0 .n32 1 2 3,
      .mor p0 .n32 1 2 3, .mxor p0 .n32 1 2 3, .mnot p0 .n32 1 2,
      .mcnt p0 .n32 9 2] : List Instr).map some := by decide +kernel
theorem test_words_vector_more : [
      0x542C040100000340, 0x596801820000002B, 0x59A0431C09000008, 0x59280102000000E0, 0x546C010200003008, 0x54AC010200003008, 0x54EC010200003008,
      0x552C010200003008, 0x556C01020000300C, 0x55A4010200003000, 0x55E4010200003000, 0x58C0010203000008, 0x562C010200000022, 0x564000000000FE00,
      0x5644000102000300, 0x5648010000000900, 0x564C450000000C00, 0x5690010203000000, 0x56D00102000007E0, 0x5710012800000000, 0x57400128000007E0,
      0x5780280200000020, 0x57C8010203000020, 0x5808010203000020, 0x5848010200030000, 0x5888010200030000, 0x59C8010200000000, 0x5A60010200007800].map
      (fun x => decodeWord (BitVec.ofNat 64 x)) =
    ([.vcvt p0 .f32 (.reg 4) (.reg 1) mk0 1 .bf16 .none .rne, .vscale p0 .bf16 (.reg 1) (.chan false 2) 0 mk0 true .sat .rd, .vqnt p0 (.chan 3) 28 9 .sat .rne,
      .vcbd p0 (.reg 1) (.reg 2) 7, .vrcp p0 .f32 (.reg 1) (.reg 2) ⟨1, true, false⟩ .sat, .vrsq p0 .f32 (.reg 1) (.reg 2) ⟨1, true, false⟩ .sat,
      .vexp2 p0 .f32 (.reg 1) (.reg 2) ⟨1, true, false⟩ .sat, .vlog2 p0 .f32 (.reg 1) (.reg 2) ⟨1, true, false⟩ .sat, .vsum p0 .f32 (.reg 1) (.reg 2) ⟨1, true, false⟩ .sat .rna,
      .vrmax p0 .fp16 (.reg 1) (.reg 2) ⟨1, true, false⟩, .vrmin p0 .fp16 (.reg 1) (.reg 2) ⟨1, true, false⟩, .vdot p0 .i8 (.reg 1) (.reg 2) (.reg 3) mk0 .sat .rne,
      .vscan p0 .f32 (.reg 1) (.reg 2) true .none .ru, .vtopkReset p0 63 2, .vtopkFeed p0 (.reg 1) (.reg 2) 3,
      .vtopkDrainv p0 (.reg 1) 2 1, .vtopkDraini p0 (.chan 5) 3 0, .vperm p0 .n8 (.reg 1) (.reg 2) (.reg 3),
      .vbcast p0 .n8 (.reg 1) (.reg 2) 63, .vsplat p0 .n8 (.reg 1) 40, .vins p0 .i8 1 40 63,
      .vext p0 .i8 40 (.reg 2) 1, .vzip p0 .i32 (.reg 1) (.reg 2) (.reg 3) true, .vunzip p0 .i32 (.reg 1) (.reg 2) (.reg 3) true,
      .vcomp p0 .i32 (.reg 1) (.reg 2) 3, .vexpd p0 .i32 (.reg 1) (.reg 2) 3, .viota p0 .i32 (.reg 1) 2,
      .vmov p0 .e4m3 (.reg 1) (.reg 2) ⟨3, true, true⟩] : List Instr).map some := by decide +kernel
theorem test_words_matrix_immediate : [
      0x6800030000000000, 0x6860010405000020, 0x68A04201000007E9, 0x69204201000007E9, 0x68C003C100000440, 0x6960000206000010, 0x6980030600000000,
      0x8000010080000001, 0x80400102FFFFFFF8, 0x80800102FFFFFFF8, 0x80C00102FFFFFFF8, 0x81000102FFFFFFF8, 0x81400102FFFFFFF8, 0x82400102FFFFFFF8,
      0x82C00102FFFFFFF8, 0x83000102FFFFFFF8, 0x818001020000003F, 0x81C001020000003F, 0x820001020000003F, 0x8298020100000005, 0x83541F000000FFFF,
      0x83B003003F000000].map (fun x => decodeWord (BitVec.ofNat 64 x)) =
    ([.mzero p0 3, .mmat p0 .e4m3 1 4 5 true, .mrdr p0 .e4m3 (.chan 2) 1 true 31 .sat .rz,
      .mrdc p0 .e4m3 (.chan 2) 1 true 31 .sat .rz, .mwrr p0 .i8 3 (.chan true 1) true 2, .msta p0 .e4m3 2 6 .nan .rne,
      .mlda p0 3 6, .li p0 1 0x80000001, .lih p0 1 2 0xFFFFFFF8,
      .addi p0 1 2 0xFFFFFFF8, .andi p0 1 2 0xFFFFFFF8, .ori p0 1 2 0xFFFFFFF8,
      .xori p0 1 2 0xFFFFFFF8, .muli p0 1 2 0xFFFFFFF8, .mini p0 1 2 0xFFFFFFF8,
      .maxi p0 1 2 0xFFFFFFF8, .shli p0 1 2 63, .shri p0 1 2 63,
      .srai p0 1 2 63, .cmpi p0 .ltu 2 1 5, .vbcasti p0 .n16 31 0xFFFF,
      .fli p0 .f64 3 0x3F000000] : List Instr).map some := by decide +kernel
theorem test_words_memory : [
      0xC028070405003037, 0xC044000405064411, 0xC0901F04050037FB, 0xC0F00004051F4C00, 0xC13001041F00089C, 0xC17400041E1F0000, 0xC1A8010203002800,
      0xC1E8010203002800, 0xC230000203044800, 0xC270000203044800, 0xC2B0010203000800, 0xC2E0000203040800, 0xC320010203000800, 0xC360000203040800,
      0xC3A8010203047026, 0xC3E8010203047026, 0xC428010203047026, 0xC468010203047026, 0xC4A8010203047026, 0xC4E8010203047026, 0xC528010203047026,
      0xC568010203047026, 0xC5B4010203046400, 0xC5C0000000007400, 0xC600000203000800, 0xC640000203000800, 0xC680000203000800, 0xC6C0030200000800,
      0xC700030200000800].map (fun x => decodeWord (BitVec.ofNat 64 x)) =
    ([.ld p0 ⟨.w, true, false, .acq, .device, 3, 1, 3⟩ 7 4 5, .st p0 ⟨.b, false, true, .rel, .core, 1, 0, 1⟩ 4 5 6, .vld p0 ⟨.h, false, false, .acq, .system, 63, 2, 3⟩ 31 4 5,
      .vst p0 ⟨.d, false, false, .rel, .stack, 0, 0, 0⟩ 4 5 31, .vldg p0 ⟨.d, false, false, .plain, .region, 9, 3, 0⟩ 1 4 31, .vsts p0 ⟨.d, false, true, .plain, .op, 0, 0, 0⟩ 4 30 31,
      .ldf p0 ⟨.w, true, false, .acq, .region, 0, 0, 0⟩ 1 2 3, .ldfe p0 ⟨.w, true, false, .acq, .region, 0, 0, 0⟩ 1 2 3, .stef p0 ⟨.d, false, false, .rel, .region, 0, 0, 0⟩ 2 3 4,
      .stf p0 ⟨.d, false, false, .rel, .region, 0, 0, 0⟩ 2 3 4, .vldf p0 ⟨.d, false, false, .plain, .region, 0, 0, 0⟩ 1 2 3, .vstf p0 ⟨.w, false, false, .plain, .region, 0, 0, 0⟩ 2 3 4,
      .feget p0 ⟨.w, false, false, .plain, .region, 0, 0, 0⟩ 1 2 3, .feset p0 ⟨.w, false, false, .plain, .region, 0, 0, 0⟩ 2 3 4, .aadd p0 ⟨.w, true, false, .ar, .device, 2, 1, 2⟩ 1 2 3 4,
      .amin p0 ⟨.w, true, false, .ar, .device, 2, 1, 2⟩ 1 2 3 4, .amax p0 ⟨.w, true, false, .ar, .device, 2, 1, 2⟩ 1 2 3 4, .aand p0 ⟨.w, true, false, .ar, .device, 2, 1, 2⟩ 1 2 3 4,
      .aor p0 ⟨.w, true, false, .ar, .device, 2, 1, 2⟩ 1 2 3 4, .axor p0 ⟨.w, true, false, .ar, .device, 2, 1, 2⟩ 1 2 3 4, .aswp p0 ⟨.w, true, false, .ar, .device, 2, 1, 2⟩ 1 2 3 4,
      .acas p0 ⟨.w, true, false, .ar, .device, 2, 1, 2⟩ 1 2 3 4, .afadd p0 ⟨.d, false, true, .ar, .core, 0, 0, 0⟩ 1 2 3 4, .fence p0 ⟨.b, false, false, .ar, .system, 0, 0, 0⟩ ,
      .cwb p0 ⟨.b, false, false, .plain, .region, 0, 0, 0⟩ 2 3, .cinv p0 ⟨.b, false, false, .plain, .region, 0, 0, 0⟩ 2 3, .pref p0 ⟨.b, false, false, .plain, .region, 0, 0, 0⟩ 2 3,
      .osclm p0 ⟨.b, false, false, .plain, .region, 0, 0, 0⟩ 3 2, .osrel p0 ⟨.b, false, false, .plain, .region, 0, 0, 0⟩ 3 2] : List Instr).map some := by decide +kernel
theorem test_words_control_queue : [
      0xD0000000FFFFFFF0, 0xD040000200000010, 0xD0800F0000000014, 0xD0C0000F00000000, 0xD1000102FFFFFFFC, 0xD140000000000000, 0xD180000000000000,
      0xD1C000000000FFFF, 0xD200000500000001, 0xD24000000081FFA1, 0xD28000000000001F, 0xD2C001000000001E, 0xD30000000FFF0003, 0xD4007F0000000000,
      0xD4407F0000000000, 0xD4807F0000000000, 0xD4C001C200000000, 0xD500018200000000, 0xD540410400000003, 0xD58003020000001F, 0xD5C0410200000000,
      0xD600010200000000, 0xD640010200000000, 0xD6C0010200000000, 0xF300010200000000, 0xD680000203000000, 0xF200000203000000, 0xF240000200000000,
      0xF280000200000000, 0xF180010203000000].map (fun x => decodeWord (BitVec.ofNat 64 x)) =
    ([.br p0 0xFFFFFFF0, .brr p0 2 16, .call p0 15 20,
      .ret p0 15, .loop p0 1 2 0xFFFFFFFC, .endh p0,
      .park p0, .trap p0 0xFFFF, .tret p0 5 true,
      .waitc p0 0x81 15 62 33, .barw p0 31, .bara p0 1 30,
      .barinit p0 4095 3, .emit p0 63, .drop p0 63,
      .skipe p0 63, .pres p0 1 2, .pops p0 1 2,
      .hdr p0 1 4 3, .ttenq p0 3 2 15 true, .xsend p0 1 2,
      .board p0 1 2, .unbrd p0 1 2, .rstat p0 1 2,
      .qflush p0 1 2, .rhold p0 2 3, .snap p0 2 3,
      .freeze p0 2, .thaw p0 2, .purge p0 1 2 3] : List Instr).map some := by decide +kernel
theorem test_words_sequence_config : [
      0xDC00010203000000, 0xDC40010203000001, 0xDC80010203000000, 0xDCC0000203000C00, 0xDD40000203000C00, 0xDE80000203000C00, 0xDD00010200001400,
      0xDD80010203040000, 0xDDC0010200000000, 0xDE00010200000000, 0xDEC0010200000000, 0xDF00010200000000, 0xF040010200000000, 0xF080010200000000,
      0xDE40010203040000, 0xF1C0000203000000, 0xF2C0000203000000, 0xF140000203000000, 0xF000010203000000, 0xF0C0010203000000, 0xF100010203000000].map
      (fun x => decodeWord (BitVec.ofNat 64 x)) =
    ([.sqnew p0 1 2 3, .sqrsv p0 1 2 3 true, .sqadr p0 1 2 3,
      .sqcmt p0 2 3 .stack, .sqwait p0 2 3 .stack, .sqvoid p0 2 3 .stack,
      .sqlen p0 1 2 .system, .sqfork p0 1 2 3 4, .sqref p0 1 2,
      .sqrel p0 1 2, .cntrd p0 1 2, .owcrd p0 1 2,
      .cfgarm p0 1 2, .cfgdis p0 1 2, .sqld p0 1 2 3 4 .op,
      .qset p0 2 3, .cntset p0 2 3, .tlbinv p0 2 3,
      .cfgld p0 1 2 3, .dictld p0 1 2 3, .cbld p0 1 2 3] : List Instr).map some := by decide +kernel

/-! Vectors (spec/12). -/

/-- Lane i, of a width, of a vector register after an instruction. -/
def gotL (o : Outcome) (r : VReg) (w i : Nat) : Option Nat := (gotV o r).map (fun v => lane w v i)

/-- v0 and v1 from their lanes. -/
def lanes2 (w : Nat) (x y : List Nat) : State := vv (ofLanes w x) (ofLanes w y)

theorem test_meets_vector : Ready (lanes2 8 [1] [2]) p0 [] (State.regsOf [.reg 0, .reg 1] ++ oldOf (.reg 2) ⟨1, true, false⟩) ∧
    ChansReady State.reset [.reg 0, .reg 1] (some (.reg 2)) ∧ NoTrap State.reset (State.orAll [(0, flNX), (1, flNV)]) ∧
    WF.isVec .e4m3 = true ∧ WF.isInt .n8 = true ∧ WF.vcvtOk .f32 .bf16 1 .rne .none = true ∧ WF.vcvtOk .i8 .i32 3 .rne .sat = true := by
  simp only [Ready, ChansReady, NoTrap]; decide +kernel

/-- v0 has 200 in lane 0 and 127 in lane 63. -/
def bytes01 : State := lanes2 8 (200 :: List.replicate 62 0 ++ [127]) (100 :: List.replicate 62 0 ++ [1])
theorem test_vadd_wraps_and_clamps : gotL (exec (.vadd p0 .n8 (.reg 2) (.reg 0) (.reg 1) mk0 .none .rne) bytes01) 2 8 0 = some 44 ∧
    gotL (exec (.vadd p0 .n8 (.reg 2) (.reg 0) (.reg 1) mk0 .sat .rne) bytes01) 2 8 0 = some 255 ∧
    gotL (exec (.vadd p0 .i8 (.reg 2) (.reg 0) (.reg 1) mk0 .sat .rne) bytes01) 2 8 63 = some 127 ∧
    gotL (exec (.vadd p0 .i8 (.reg 2) (.reg 0) (.reg 1) mk0 .none .rne) bytes01) 2 8 63 = some 128 := by decide +kernel
theorem test_vsub_vmul : gotL (exec (.vsub p0 .n8 (.reg 2) (.reg 1) (.reg 0) mk0 .sat .rne) bytes01) 2 8 0 = some 0 ∧
    gotL (exec (.vmul p0 .n8 (.reg 2) (.reg 1) (.reg 0) mk0 .none .rne) bytes01) 2 8 0 = some 32 ∧
    gotL (exec (.vmulh p0 .n8 (.reg 2) (.reg 1) (.reg 0) mk0) bytes01) 2 8 0 = some 78 := by decide +kernel
theorem test_vfma_one_rounding : gotL (exec (.vfma p0 .i8 (.reg 2) (.reg 0) (.reg 0) (.reg 1) mk0 .sat .rne) bytes01) 2 8 0 = some 127 := by
  decide +kernel
/-- Inactive lanes: unchanged, or zero under MZ (spec/12 R244). -/
theorem test_mask : gotL (exec (.vadd p0 .n8 (.reg 1) (.reg 0) (.reg 1) ⟨0, true, false⟩ .none .rne) bytes01) 1 8 0 = some 100 ∧
    gotL (exec (.vadd p0 .n8 (.reg 1) (.reg 0) (.reg 1) ⟨0, true, true⟩ .none .rne) bytes01) 1 8 0 = some 0 := by decide +kernel
theorem test_vmin_vmax : gotL (exec (.vmin p0 .i8 (.reg 2) (.reg 0) (.reg 1) mk0) bytes01) 2 8 0 = some 200 ∧
    gotL (exec (.vmax p0 .n8 (.reg 2) (.reg 0) (.reg 1) mk0) bytes01) 2 8 0 = some 200 ∧
    gotL (exec (.vmin p0 .n8 (.reg 2) (.reg 0) (.reg 1) mk0) bytes01) 2 8 0 = some 100 := by decide +kernel
theorem test_vabs_vneg : gotL (exec (.vabs p0 .i8 (.reg 2) (.reg 0) mk0 .none .rne) bytes01) 2 8 0 = some 56 ∧
    gotL (exec (.vneg p0 .i8 (.reg 2) (.reg 1) mk0 .none .rne) bytes01) 2 8 63 = some 255 ∧
    gotL (exec (.vneg p0 .f32 (.reg 2) (.reg 0) mk0 .none .rne) State.reset) 2 32 15 = some 0x80000000 := by decide +kernel
theorem test_vbits : gotL (exec (.vand p0 .n8 (.reg 2) (.reg 0) (.reg 1) mk0) bytes01) 2 8 0 = some 64 ∧
    gotL (exec (.vor p0 .n8 (.reg 2) (.reg 0) (.reg 1) mk0) bytes01) 2 8 0 = some 236 ∧
    gotL (exec (.vxor p0 .n8 (.reg 2) (.reg 0) (.reg 1) mk0) bytes01) 2 8 0 = some 172 := by decide +kernel
theorem test_vshift_at_width : gotL (exec (.vshl p0 .n8 (.reg 2) (.reg 0) (.reg 1) mk0) (lanes2 8 [129] [7])) 2 8 0 = some 128 ∧
    gotL (exec (.vshr p0 .n8 (.reg 2) (.reg 0) (.reg 1) mk0) (lanes2 8 [129] [8])) 2 8 0 = some 0 ∧
    gotL (exec (.vsra p0 .i8 (.reg 2) (.reg 0) (.reg 1) mk0) (lanes2 8 [129] [200])) 2 8 0 = some 255 := by decide +kernel
theorem test_vcmp : gotM (exec (.vcmp p0 .i8 1 (.reg 0) (.reg 1) mk0 .lt) bytes01) 1 = some 1 ∧
    gotM (exec (.vcmp p0 .n8 1 (.reg 0) (.reg 1) mk0 .ge) bytes01) 1 = some (-1) ∧
    gotM (exec (.vcmp p0 .n32 1 (.reg 0) (.reg 1) mk0 .eq) State.reset) 1 = some 0xFFFF := by decide +kernel
theorem test_mask_instructions : gotM (exec (.mnot p0 .f32 1 0) State.reset) 1 = some 0xFFFF ∧
    gotM (exec (.mand p0 .i8 2 0 1) ((State.reset.wrM 0 12).wrM 1 10)) 2 = some 8 ∧
    gotM (exec (.mor p0 .i8 2 0 1) ((State.reset.wrM 0 12).wrM 1 10)) 2 = some 14 ∧
    gotM (exec (.mxor p0 .i8 2 0 1) ((State.reset.wrM 0 12).wrM 1 10)) 2 = some 6 ∧
    gotS (exec (.mcnt p0 .f32 3 0) (State.reset.wrM 0 (-1))) 3 = some 16 := by decide +kernel
theorem test_vsel : gotL (exec (.vsel p0 .n8 (.reg 2) (.reg 0) (.reg 1) 0) (bytes01.wrM 0 1)) 2 8 0 = some 200 ∧
    gotL (exec (.vsel p0 .n8 (.reg 2) (.reg 0) (.reg 1) 0) (bytes01.wrM 0 1)) 2 8 63 = some 1 := by decide +kernel
theorem test_movement : gotL (exec (.vperm p0 .n8 (.reg 2) (.reg 0) (.reg 1)) (lanes2 8 [5, 6] [1, 64])) 2 8 0 = some 6 ∧
    gotL (exec (.vperm p0 .n8 (.reg 2) (.reg 0) (.reg 1)) (lanes2 8 [5, 6] [1, 64])) 2 8 1 = some 0 ∧
    gotL (exec (.vbcast p0 .n8 (.reg 2) (.reg 0) 63) bytes01) 2 8 5 = some 127 ∧
    gotL (exec (.vsplat p0 .n8 (.reg 2) 1) (sc 0x1FF 0)) 2 8 63 = some 255 ∧
    gotL (exec (.vins p0 .n8 0 1 63) (sc 0x1FE 0)) 0 8 63 = some 254 ∧ gotL (exec (.vmov p0 .n8 (.reg 2) (.reg 0) mk0) bytes01) 2 8 63 = some 127 ∧
    gotS (exec (.vext p0 .i8 3 (.reg 0) 0) bytes01) 3 = some (-56) ∧ gotS (exec (.vext p0 .n8 3 (.reg 0) 0) bytes01) 3 = some 200 := by
  decide +kernel
theorem test_zip : gotL (exec (.vzip p0 .n8 (.reg 2) (.reg 0) (.reg 1) false) bytes01) 2 8 1 = some 100 ∧
    gotL (exec (.vzip p0 .n8 (.reg 2) (.reg 0) (.reg 1) true) bytes01) 2 8 63 = some 1 ∧
    gotL (exec (.vunzip p0 .n8 (.reg 2) (.reg 0) (.reg 1) false) bytes01) 2 8 32 = some 100 ∧
    gotL (exec (.vunzip p0 .n8 (.reg 2) (.reg 0) (.reg 1) true) bytes01) 2 8 31 = some 127 := by decide +kernel
theorem test_compress_expand : gotL (exec (.vcomp p0 .n8 (.reg 2) (.reg 0) 0) (bytes01.wrM 0 (1 <<< 63))) 2 8 0 = some 127 ∧
    gotL (exec (.vexpd p0 .n8 (.reg 2) (.reg 0) 0) (bytes01.wrM 0 (1 <<< 63))) 2 8 63 = some 200 ∧
    gotL (exec (.viota p0 .n8 (.reg 2) 1) (sc 250 0)) 2 8 6 = some 0 := by decide +kernel
theorem test_vcvt_parts : gotL (exec (.vcvt p0 .f32 (.reg 2) (.reg 0) mk0 1 .bf16 .none .rne) (lanes2 16 (List.replicate 31 0 ++ [0x3F80]) [])) 2 32 15 =
    some 0x3F800000 ∧
    gotL (exec (.vcvt p0 .i8 (.reg 1) (.reg 0) mk0 3 .i32 .sat .rne) (lanes2 32 [300] [7])) 1 8 48 = some 127 ∧
    gotL (exec (.vcvt p0 .i8 (.reg 1) (.reg 0) mk0 3 .i32 .sat .rne) (lanes2 32 [300] [7])) 1 8 0 = some 7 := by decide +kernel
theorem test_vqnt : gotS (exec (.vqnt p0 (.reg 8) 0 3 .sat .rne) (lanes2 32 [0x43E00000] [])) 3 = some 0x3F80 ∧
    gotL (exec (.vqnt p0 (.reg 8) 0 3 .sat .rne) (lanes2 32 [0x43E00000] [])) 8 8 0 = some 0x7E := by decide +kernel
theorem test_vscale : gotL (exec (.vscale p0 .f32 (.reg 2) (.reg 0) 1 mk0 false .none .rne) ((lanes2 32 [0x3F800000] []).wrS 1 0x4000)) 2 32 0 =
    some 0x40000000 := by decide +kernel
theorem test_functions : gotL (exec (.vrcp p0 .f32 (.reg 2) (.reg 0) mk0 .none) (lanes2 32 [0x40000000] [])) 2 32 0 = some 0x3F000000 ∧
    gotL (exec (.vrsq p0 .f32 (.reg 2) (.reg 0) mk0 .none) (lanes2 32 [0x40800000] [])) 2 32 0 = some 0x3F000000 := by decide +kernel
theorem test_reductions : gotL (exec (.vsum p0 .i8 (.reg 2) (.reg 0) mk0 .none .rne) bytes01) 2 32 0 = some 71 ∧
    gotL (exec (.vrmax p0 .i8 (.reg 2) (.reg 0) mk0) bytes01) 2 8 0 = some 127 ∧
    gotL (exec (.vrmin p0 .i8 (.reg 2) (.reg 0) mk0) bytes01) 2 8 0 = some 200 ∧
    gotL (exec (.vdot p0 .n8 (.reg 2) (.reg 0) (.reg 1) mk0 .none .rne) bytes01) 2 32 0 = some 20127 ∧
    gotL (exec (.vscan p0 .n8 (.reg 2) (.reg 0) true .none .rne) bytes01) 2 8 63 = some 200 ∧
    gotL (exec (.vscan p0 .n8 (.reg 2) (.reg 0) false .none .rne) bytes01) 2 8 63 = some 71 := by decide +kernel

/-- The tile's channel 3 comes in at slot 0, base 2, one beat; channel 4 goes out from slot 0 in records of two beats. A beat stands at the
cursor of channel 3. -/
def chans : State :=
  { State.reset with
    tiles := [(0, { chans := [(3, 0x800004000FF00000), (4, 0x040020000FF00000)] })]
    frames := [(0, { alloc := true, present := 4, hdrs := [(3, 0)] })]
    tmem := mwrite [] 0x80 64 77 }
theorem test_meets_channels : ChansReady chans [.chan false 3] (some (.chan 4)) ∧ Ready chans p0 [] [] ∧ chans.openOn 4 = none ∧
    cBeats (chans.chanCur 4) = 2 ∧ chans.srcOk 4 = false ∧ chans.dstOk 3 = false := by
  simp only [Ready, ChansReady]; decide +kernel
/-- The beat is read and popped once, and a beat is appended (spec/09 R190). -/
theorem test_channel_operands :
    gotF (exec (.vmov p0 .n8 (.chan 4) (.chan false 3) mk0) chans) (fun t => ((t.frame 0).present, (t.tile 0).pool.map (fun o => (o.ch, o.beats)))) =
      some (0, [(4, [77])]) ∧
    gotF (exec (.vmov p0 .n8 (.reg 1) (.chan true 3) mk0) chans) (fun t => ((t.frame 0).present, t.rdV 1)) = some (4, 77) := by decide +kernel
/-- An absent slot parks with pcause 5, and an unconfigured channel traps CHAN (spec/09 R190). -/
theorem test_channel_waits :
    gotF (exec (.vmov p0 .n8 (.reg 1) (.chan false 3) mk0) (chans.popSlot 3)) (fun t => (decide ((t.frame 0).cont = .parked), mread t.tmem 0x69D 1)) =
      some (true, 5) ∧
    gotF (exec (.vmov p0 .n8 (.reg 1) (.chan false 5) mk0) chans) (fun t => (decide ((t.frame 0).cont = .trapped), mread t.tmem 0x700 1)) =
      some (true, 0x13) := by decide +kernel

/-! Top-k units (spec/12 R260 to R263). -/

def topk1 : State := (lanes2 32 [0x3F800000, 0x40000000, 0x7FC00000] [10, 11, 12]).setTopk 3 { k := 1, owner := State.reset.ownTag }
theorem test_meets_topk : State.reset.topkFree 3 = true ∧ topk1.topkMine 3 = true ∧ Ready topk1 p0 [] (State.regsOf [.reg 0, .reg 1]) ∧
    (topk1.setTopk 3 { owner := { valid := true, slot := 1 } }).topkFree 3 = false ∧
    ([] : List (BitVec 32 × BitVec 32)).length ≤ 0 := by
  simp only [Ready]; decide +kernel
theorem test_vtopk : gotF (exec (.vtopkReset p0 63 3) State.reset) (fun t => ((t.topkOf 3).k, (t.topkOf 3).owner.valid)) = some (64, true) ∧
    gotF (exec (.vtopkFeed p0 (.reg 0) (.reg 1) 3) topk1) (fun t => ((t.topkOf 3).entries, t.fstat)) = some ([(0x40000000, 11)], 8) ∧
    gotL (exec (.vtopkDrainv p0 (.reg 2) 3 3) topk1) 2 32 15 = some 0xFF800000 ∧
    gotL (exec (.vtopkDraini p0 (.reg 2) 0 3) topk1) 2 32 0 = some 0xFFFFFFFF := by decide +kernel

/-! The tile array (spec/13 R265 to R274). -/

/-- Accumulator 1 is the activation's; s1 and s2 name panels of 16-bit ones at 0x40000 and 0x41000. -/
def arr : State :=
  { (sc 0x40000 0x41000).setTile 0 { handlers := [(0, 0x8C00000000000000)], accTag := [(1, State.reset.ownTag)], acc := [(1024, 5)] } with tmem := mwrite (mwrite [] 0x40000 2 0x3F80) 0x41000 2 0x4000 }
theorem test_meets_array : arr.accMine 1 = true ∧ (arr.accOf 0 1).valid = true ∧ (arr.accOf 0 1).col = arr.cur.col ∧ (arr.accOf 0 1).poisoned = false ∧
    (arr.tile 0).mmats = [] ∧ arr.accMine 0 = true ∧ arr.otoCount arr.cur.aid < 15 ∧ PanelOk arr 0x7F000 4096 ∧
    PanelOk arr (arr.rdS 1).toNat (mmatMode .bf16 false).shape.2.1 ∧ PanelOk arr (arr.rdS 2).toNat (mmatMode .bf16 false).shape.2.2 := by
  simp only [PanelOk]; decide +kernel
theorem test_array : gotF (exec (.mzero p0 1) arr) (fun t => t.accEl 0 1 0 0) = some 0 ∧
    gotF (exec (.mlda p0 1 1) arr) (fun t => t.accEl 0 1 0 0) = some 0x3F80 ∧
    gotF (exec (.mmat p0 .bf16 1 1 2 false) arr) (fun t => (t.tile 0).mmats.map (fun m => (m.acc, m.pa, m.pb))) = some [(1, 0x40000, 0x41000)] ∧
    gotL (exec (.mrdr p0 .i32 (.reg 2) 1 false 0 .none .rne) arr) 2 32 0 = some 5 ∧
    gotL (exec (.mrdc p0 .i32 (.reg 2) 1 true 0 .none .rne) arr) 2 32 0 = some 0 ∧
    gotF (exec (.mwrr p0 .i32 1 (.reg 0) true 31) (arr.wrV 0 9)) (fun t => (t.accEl 0 1 31 16, t.accEl 0 1 0 0)) = some (9, 5) := by decide +kernel
theorem test_meets_msta : NoTrap arr (State.orAll ((List.range 1024).map (fun k => (k, (accConv .i32 .rne .none (arr.accEl 0 1 (k / 32) (k % 32))).fl)))) ∧
    Ready arr p0 [1] [] := by
  simp only [NoTrap, Ready]; decide +kernel
/-- Every element's product is 1 × 2 in the first of 32 steps (spec/13 R269). -/
theorem test_mmat_complete : (arr.setTile 0 { arr.tile 0 with acc := [], mmats := [{ acc := 1, ty := .bf16, pa := 0x40000, pb := 0x41000 }] }).mmatUce 0
      { acc := 1, ty := .bf16, pa := 0x40000, pb := 0x41000 } = false ∧
    gotF (exec (.mmatComplete 0) (arr.setTile 0 { arr.tile 0 with acc := [], mmats := [{ acc := 1, ty := .bf16, pa := 0x40000, pb := 0x41000 }] }))
      (fun t => (t.accEl 0 1 0 0, t.accEl 0 1 1 1, (t.tile 0).mmats.length)) = some (0x40000000, 0, 0) := by decide +kernel
/-- Another colour's accumulator traps SLOT; a poisoned one POISON (spec/13 R268). -/
theorem test_array_traps : gotF (exec (.mzero p0 1) (arr.setTile 0 { handlers := [(0, 0x8C00000000000000)], accTag := [(1, { valid := true, col := 1 })] })) (fun t => mread t.tmem 0x700 1) =
      some 0x12 ∧
    gotF (exec (.mzero p0 1) (arr.setTile 0 { handlers := [(0, 0x8C00000000000000)], accTag := [(1, { valid := true, poisoned := true })] })) (fun t => mread t.tmem 0x700 1) =
      some 0x11 ∧
    gotF (exec (.mmat p0 .bf16 0 1 2 false) arr) (fun t => mread t.tmem 0x700 1) = some 0x12 := by decide +kernel

/-! Memory (spec/15). -/

/-- A page of scratchpad of core 0 at 0x10000, one of HBM at 0x20000, one read-only at 0x30000, all translated; s1 names one of them and s2 an
offset or a value. -/
def mst (x y : Word) : State :=
  { (sc x y).setTile 0 { tlb := [{ gva := 0x10000, pa := 0x200000000000, dirty := true, sysatom := true }, { gva := 0x20000, pa := 0x50000, dirty := true },
                                 { gva := 0x30000, pa := 0x60000, ro := true }] } with
    mem := mwrite (mwrite [] 0x50008 8 0x8877665544332211) 0x200000000000 8 41, fe := [(0x80000000000, 1), (0x80000000001, 1)] }

/-- What stands last among the outstanding accesses. -/
def last (o : Outcome) : Option (AccKind × List (Nat × Nat) × Nat × Nat) :=
  (gotF o (fun t => (t.accesses.getLast?).map (fun a => (a.kind, a.elems.map (fun e => (e.gva, e.pa)), a.bytes, lane 64 a.data 0)))).join

theorem test_meets_issue : Ready (mst 0x20008 0) p0 [1, 2, 0] [] ∧
    (mst 0x20008 0).check { kind := .ld, mf := mD, bytes := 8, elems := [(0, 0x20008)], dst := 3 } = .ok [{ gva := 0x20008, pa := 0x50008 }] ∧
    (mst 0x20008 0).countFull ((mst 0x20008 0).mkAccess { kind := .ld, mf := mD, bytes := 8 } []) = false ∧ mD.seq = 0 ∧ mD.ts = false := by
  simp only [Ready]; decide +kernel
theorem test_ld_issues : last (exec (.ld p0 mD 3 1 2) (mst 0x20000 8)) = some (.ld, [(0x20008, 0x50008)], 8, 0) ∧
    gotF (exec (.ld p0 mD 3 1 2) (mst 0x20000 8)) (fun t => t.cur.pendS) = some [(3, [1])] ∧
    last (exec (.st p0 mW 1 0 2) (mst 0x20008 7)) = some (.st, [(0x20008, 0x50008)], 4, 7) := by decide +kernel
theorem test_vector_access_issues :
    (last (exec (.vld p0 mD 3 1 2) (mst 0x20000 0))).map (fun x => (x.2.1.length, x.2.1.getLast?)) = some (8, some (0x20038, 0x50038)) ∧
    (last (exec (.vst p0 mB 1 0 0) (mst 0x20000 0))).map (fun x => x.2.1.length) = some 64 ∧
    (last (exec (.vldg p0 mW 3 1 0) (mst 0x20000 0))).map (fun x => x.2.1.length) = some 16 ∧
    (last (exec (.vsts p0 mD 1 0 1) (mst 0x20000 0))).map (fun x => x.2.1.length) = some 8 := by decide +kernel
theorem test_full_empty_issues :
    (last (exec (.stef p0 mW 1 0 2) (mst 0x10000 9))).map (fun x => x.1) = some .stef ∧
    (last (exec (.stf p0 mW 1 0 2) (mst 0x10000 9))).map (fun x => x.1) = some .stf ∧
    (last (exec (.vstf p0 mW 1 0 0) (mst 0x10000 9))).map (fun x => x.1) = some .vstf ∧
    (last (exec (.feget p0 mW 3 1 0) (mst 0x10000 9))).map (fun x => x.1) = some .feget ∧
    (last (exec (.feset p0 mW 1 0 2) (mst 0x10000 9))).map (fun x => x.1) = some .feset := by decide +kernel


/-- ALIGN, PAGE, PERM, ATTR in the order of spec/15 R300. -/
theorem test_access_checks : cause (exec (.ld p0 mD 3 1 2) (mst 0x20004 0)) = some 0x04 ∧ cause (exec (.ld p0 mD 3 1 0) (mst (1 <<< 56) 0)) = some 0x06 ∧
    cause (exec (.ld p0 mD 3 1 0) (mst 0x40000 0)) = some 0x07 ∧ cause (exec (.st p0 mD 1 0 2) (mst 0x30000 0)) = some 0x08 ∧
    cause (exec (.stf p0 mW 1 0 2) (mst 0x20000 0)) = some 0x05 := by decide +kernel
theorem test_meets_checks : (match (mst 0x40000 0).findXlate false 0x40000 with
      | .error c => some c
      | .ok _ => none) = some 0x07 ∧ ((mst 0 0).findXlate true 0x30000).toOption.map (fun e => e.1.ro) = some true ∧
    (mst 0 0).halting = false := by decide +kernel

/-- Tile memory (spec/14 R284): alignment, the own frame, the continuation word. -/
theorem test_ts_checks :
    cause (exec (.ld p0 { mD with ts := true, sc := .core } 3 1 0) (sc 0x7FFFC 0)) = some 0x08 ∧
    cause (exec (.ld p0 { mD with ts := true, sc := .core } 3 1 0) (sc 0x40004 0)) = some 0x04 ∧
    cause (exec (.ld p0 { mD with ts := true, sc := .core } 3 1 0) (sc 0x800 0)) = some 0x08 ∧
    cause (exec (.st p0 { mD with ts := true, sc := .core } 1 0 0) (sc 0x698 0)) = some 0x08 := by decide +kernel
theorem test_meets_ts : Quiet (quiet 0x40000 7) ∧ (List.range 8).all (fun i => (quiet 0x40000 7).frameByte true (0x4F8 + i)) = true ∧
    (quiet 0 0).hasUce (2 ^ 48 + 0x7FFF8) 8 = false := by
  simp only [Quiet]; decide +kernel
theorem test_ts_at_once : gotF (exec (.st p0 { mD with ts := true, sc := .core } 1 0 2) (quiet 0x7FFF8 7)) (fun t => (mread t.tmem 0x7FFF8 8, t.accesses.length)) =
      some (7, 0) ∧
    gotF (exec (.ld p0 { mB with ts := true, sc := .core, sx := true } 3 1 0) ({ quiet 0x40000 0 with tmem := [(0x40000, 0x80)] } : State)) (fun t => t.rdS 3) =
      some (-128) := by decide +kernel

/-- A load and a store on their way: performed at their homes (spec/15 R305). -/
def onWay (k : AccKind) (bytes : Nat) (e : Elem) (d : Vec) : State :=
  { quiet 0 0 with
    ctxs := [(0, { busy := true, aid := 5, pendS := [(3, [1])] })], nextId := 2,
    accesses := [{ id := 1, aid := 5, part := 16, kind := k, bytes := bytes, elems := [e], dst := 3, data := d }]
    mem := mwrite [] 0x50008 8 0x8877665544332211, fe := [(0x80000000000, 1)] }
theorem test_meets_performed : (onWay .ld 8 { gva := 0x20008, pa := 0x50008 } 0).mayPerform (onWay .ld 8 { gva := 0x20008, pa := 0x50008 } 0).accesses[0] = true ∧
    (onWay .ld 8 { gva := 0x20008, pa := 0x50008 } 0).homeBad (onWay .ld 8 { gva := 0x20008, pa := 0x50008 } 0).accesses[0] { gva := 0x20008, pa := 0x50008 } =
      none ∧
    (onWay .ld 8 { gva := 0x20008, pa := 0x50008 } 0).runningOn 5 = some 0 ∧
    (onWay .stef 4 { gva := 0x10004, pa := 0x200000000004 } 9).allEmpty (onWay .stef 4 { gva := 0x10004, pa := 0x200000000004 } 9).accesses[0] = true ∧
    (onWay .stef 4 { gva := 0x10000, pa := 0x200000000000 } 9).allEmpty (onWay .stef 4 { gva := 0x10000, pa := 0x200000000000 } 9).accesses[0] = false := by
  decide +kernel
theorem test_access_response : gotF (exec (.accessResponse 0) (onWay .ld 8 { gva := 0x20008, pa := 0x50008 } 0)) (fun t => (t.rdS 3, t.cur.pendS.length,
      t.accesses.length)) = some (0x8877665544332211, 0, 0) ∧
    gotF (exec (.accessResponse 0) (onWay .feget 4 { gva := 0x10000, pa := 0x200000000000 } 0)) (fun t => t.rdS 3) = some 1 := by decide +kernel
theorem test_store_performed : gotF (exec (.storePerformed 0) (onWay .st 4 { gva := 0x20008, pa := 0x5000C } 9)) (fun t => (mread t.mem 0x50008 8,
      t.accesses.length)) = some (0x955443322 / 0x100000000 * 0x100000000 + 0x44332211, 0) ∧
    gotF (exec (.storePerformed 0) (onWay .stf 4 { gva := 0x10004, pa := 0x200000000004 } 9)) (fun t => (mread t.mem 0x200000000004 4,
      t.feOf 0x200000000004)) = some (9, 1) ∧
    gotF (exec (.storePerformed 0) (onWay .feset 4 { gva := 0x10000, pa := 0x200000000000 } 2)) (fun t => t.feOf 0x200000000000) = some 2 := by
  decide +kernel
/-- A STEF that waits at its home for words that have become EMPTY. -/
def waitingStef : State := { quiet 0 0 with accesses := [{ id := 1, aid := 5, part := 16, kind := .stef, bytes := 4, elems := [{ gva := 0x10000, pa := 0x200000000000 }], data := 9, waiting := true }] }
/-- A STEF waits for EMPTY words, and is performed once they are (spec/15 R308). -/
theorem test_stef_waits : gotF (exec (.storePerformed 0) (onWay .stef 4 { gva := 0x10000, pa := 0x200000000000 } 9)) (fun t => t.accesses.map (·.waiting)) =
      some [true] ∧
    gotF (exec (.stefWake 0) waitingStef)
      (fun t => (mread t.mem 0x200000000000 4, t.feOf 0x200000000000, t.accesses.length)) = some (9, 1, 0) ∧
    gotF (exec (.stefResend 0) ({ quiet 0 0 with now := 300, accesses := [{ id := 1, kind := .stef, resendAt := 300 }] } : State)) (fun t =>
      t.accesses.map (·.resendAt)) = some [0] := by decide +kernel

/-- LDF, LDFE, VLDF (spec/15 R306). -/
def mq (x y : Word) : State := (mst x y).setCur { (mst x y).cur with busy := true, aid := 5 }
theorem test_meets_full_empty : MaySync (mq 0x10000 0) { kind := .ld, mf := mD, fe := true, bytes := 8, elems := [(0, 0x10000)] }
      [{ gva := 0x10000, pa := 0x200000000000 }] ∧ (mq 0x10000 0).waitUsed 0 < 512 ∧ (mq 0x10000 0).feOf 0x200000000000 = 1 ∧
    (mq 0x10000 0).feOf 0x200000000004 = 1 ∧ (mq 0x10008 0).feOf 0x200000000008 = 0 := by
  simp only [MaySync]; decide +kernel
theorem test_ldfe : gotF (exec (.ldfe p0 mD 3 1 0) (mq 0x10000 0)) (fun t => (t.rdS 3, t.feOf 0x200000000000, t.feOf 0x200000000004)) = some (41, 0, 0) ∧
    gotF (exec (.ldf p0 mD 3 1 0) (mq 0x10000 0)) (fun t => (t.rdS 3, t.feOf 0x200000000000)) = some (41, 1) ∧
    gotF (exec (.ldf p0 mD 3 1 0) (mq 0x10008 0)) (fun t => (decide ((t.frame 0).cont = .parked), mread t.tmem 0x69D 1)) = some (true, 6) ∧
    gotF (exec (.vldf p0 mD 3 1 0) (mq 0x10000 0)) (fun t => decide ((t.frame 0).cont = .parked)) = some true := by decide +kernel

/-- Atomics (spec/15 R310). -/
theorem test_meets_atomic : MaySync (mq 0x10000 1) { kind := .ld, mf := mD, write := true, bytes := 8, elems := [(0, 0x10000)] }
      [{ gva := 0x10000, pa := 0x200000000000 }] ∧
    (mq 0x10000 1).atomBad ((mq 0x10000 1).mkAccess { kind := .ld, mf := mD, write := true, bytes := 8 } []) { gva := 0x10000, pa := 0x200000000000 } true = none := by
  simp only [MaySync]; decide +kernel
/-- The old value, and the new byte at the home. -/
def atom (o : Outcome) : Option (Word × Nat) := gotF o (fun t => (t.rdS 3, mread t.mem 0x200000000000 8))
theorem test_atomics : atom (exec (.aadd p0 mD 3 1 0 2) (mq 0x10000 2)) = some (41, 43) ∧ atom (exec (.amin p0 mD 3 1 0 2) (mq 0x10000 (-1))) =
      some (41, 2 ^ 64 - 1) ∧ atom (exec (.amax p0 mD 3 1 0 2) (mq 0x10000 (-1))) = some (41, 41) ∧
    atom (exec (.aand p0 mD 3 1 0 2) (mq 0x10000 9)) = some (41, 9) ∧ atom (exec (.aor p0 mD 3 1 0 2) (mq 0x10000 6)) = some (41, 47) ∧
    atom (exec (.axor p0 mD 3 1 0 2) (mq 0x10000 41)) = some (41, 0) ∧ atom (exec (.aswp p0 mD 3 1 0 2) (mq 0x10000 7)) = some (41, 7) := by decide +kernel
theorem test_acas : atom (exec (.acas p0 mD 3 1 0 2) ((mq 0x10000 7).wrS 3 41)) = some (41, 7) ∧
    atom (exec (.acas p0 mD 3 1 0 2) ((mq 0x10000 7).wrS 3 40)) = some (41, 41) ∧
    atom (exec (.afadd p0 mD 3 1 0 2) (mq 0x10000 0)) = some (41, 41) := by decide +kernel

/-- Fences, cache operations, claims (spec/15 R311 to R313). -/
def claims : State := { (sc 0x10 0).setCur { (sc 0x10 0).cur with col := 3, rtag := 8 } with
  cores := [(0, { region := some 0 })], regions := [(0, { cores := [0] })] }
theorem test_meets_claims : (claims.region claims.curRegion).coreAt 0 = some 0 ∧ (claims.claimsAt (0, 1, 0)).length < 16 ∧ Ready claims p0 [1] [] ∧
    (quiet 0 0).pendingOf 5 = [] ∧ ({ quiet 0 0 with accesses := [{ id := 1, aid := 5, kind := .st }] } : State).pendingOf 5 ≠ [] ∧
    ({ quiet 0 0 with accesses := [{ id := 1, aid := 5, kind := .null }] } : State).pendingOf 5 = [] := by
  simp only [Ready]; decide +kernel
theorem test_claims : gotF (exec (.osclm p0 mB 3 1) claims) (fun t => (t.rdS 3, t.claimsAt (0, 1, 0))) = some (1, [(3, 8)]) ∧
    gotF (exec (.osrel p0 mB 3 1) (claims.setClaims (0, 1, 0) [(2, 8), (3, 8)])) (fun t => (t.rdS 3, t.claimsAt (0, 1, 0))) = some (1, [(2, 8)]) ∧
    cause (exec (.osrel p0 mB 3 1) claims) = some 0x12 ∧ cause (exec (.osclm p0 mB 3 1) (claims.wrS 1 0x200)) = some 0x12 := by decide +kernel
theorem test_fence : gotF (exec (.fence p0 mB) ({ quiet 0 0 with accesses := [{ id := 1, aid := 5, kind := .st }] } : State)) (fun t => (t.cur.held, t.cur.ip)) = some (true, 0) ∧
    gotF (exec (.fence p0 mB) ({ quiet 0 0 with accesses := [{ id := 1, aid := 5 }] } : State)) (fun t => t.cur.ip) = some 4 ∧
    gotF (exec (.fence p0 mB) (quiet 0 0)) (fun t => t.cur.ip) = some 4 ∧ gotF (exec (.cwb p0 mB 1 2) (came (mst 0x20000 0))) (fun t => t.cur.ip) = some 4 ∧
    gotF (exec (.cinv p0 mB 1 2) (came (mst 0x20000 0))) (fun t => t.cur.ip) = some 4 ∧
    gotF (exec (.pref p0 mB 1 2) (mst (1 <<< 56) 0)) (fun t => t.cur.ip) = some 4 := by decide +kernel
/-- A chain access whose predicate is 0 sends a null entry (spec/09 R192). -/
theorem test_null_entry : gotF (exec (.ld ⟨1, false⟩ { mD with seq := 5 } 3 1 2) (mst 0x20000 0)) (fun t => t.accesses.map (fun a => (a.seq, a.kind))) =
    some [(5, .null)] := by decide +kernel

/-- Chains (spec/05 R104 to R106): access 7 of a chain whose predecessor 6 has been performed. -/
def chain1 (arrived performed : Bool) : State :=
  { quiet 0 0 with
    accesses := [{ id := 1, aid := 5, kind := .st, seq := 7, pd := 1, freed := false }]
    regions := [(0, { cores := [0], chains := [{ items := { seq := 6, performed := performed } :: (if arrived then [{ seq := 7, acc := 1 }] else []) }] })] }
theorem test_meets_chain : (chain1 false true).chainOf (chain1 false true).accesses[0] = some { items := [{ seq := 6, performed := true }] } ∧
    (chain1 false true).chainUsed 0 < 256 ∧ (chain1 true true).chainReady (chain1 true true).accesses[0] = true := by decide +kernel
theorem test_chain_release : gotF (exec (.chainAccessRelease 0) (chain1 false true)) (fun t => (t.region 0).chains.map (fun c => c.items.map (·.seq))) = some [[6, 7]] ∧
    gotF (exec (.chainAccessRelease 0) (chain1 true true)) (fun t => t.accesses.map (·.freed)) = some [true] ∧
    gotF (exec (.chainAccessRelease 0) (chain1 true false)) (fun t => t.accesses.map (·.freed)) = some [false] := by decide +kernel

/-! Control (spec/11 R235 to R240). -/

theorem test_branches : gotF (exec (.br p0 0xFFFFFFFC) (sc 0 0)) (fun t => t.cur.ip) = some 0xFFFFFFFC ∧
    gotF (exec (.brr p0 1 4) (sc 0x1FFFFFFFC 0)) (fun t => t.cur.ip) = some 0 ∧
    gotF (exec (.call p0 15 0x14) (sc 0 0)) (fun t => (t.cur.ip, t.rdS 15)) = some (0x14, 4) ∧
    gotF (exec (.ret p0 1) (sc 0x40 0)) (fun t => t.cur.ip) = some 0x40 ∧
    gotF (exec (.loop p0 1 1 0x10) (sc 1 0)) (fun t => (t.cur.ip, t.rdS 1)) = some (4, 0) ∧
    gotF (exec (.loop p0 1 1 0x10) (sc 0 0)) (fun t => (t.cur.ip, t.rdS 1)) = some (0x10, -1) := by decide +kernel

/-- An activation with an open record, in a frame with a present slot that fires its handler again. -/
def ending (present : BitVec 16) : State :=
  { (quiet 0 0).setTile 0 { handlers := [(0, 0x8000000080000000)], pool := [{ aid := 5, ch := 9 }, { aid := 6, ch := 9 }] } with
    frames := [(0, { alloc := true, present := present, cont := .running, gen := 3 })] }
theorem test_meets_endh : (ending 2).oldCount (ending 2).cur.aid = 0 ∧ ((ending 2).region (ending 2).curRegion).marks = [] ∧
    (ending 2).curFrame.alloc = true ∧ 0 ≤ waveDiff (ending 2).curFrame.wave (((ending 2).colour 0 0).owc) ∧
    ({ quiet 0 0 with accesses := [{ id := 1, aid := 5, kind := .ld }] } : State).oldCount 5 ≠ 0 := by decide +kernel
theorem test_endh : gotF (exec (.endh p0) (ending 0)) (fun t => (t.frame 0, t.cur.busy, (t.tile 0).pool.map (·.aid))) = some ({ gen := 3 }, false, [6]) ∧
    gotF (exec (.endh p0) (ending 2)) (fun t => ((t.frame 0).cont, (t.frame 0).present)) = some (.fresh, 2) ∧
    gotF (exec (.endh p0) (ending 4)) (fun t => ((t.frame 0).cont, (t.frame 0).present)) = some (.none, 4) := by decide +kernel

/-- TRAP: the record's fields (spec/21 R414), the continuation word (spec/02 R40) and the record sent to the trap operator (R417). -/
def trapping : State :=
  { act with frames := [(33 * 128 + 3, { alloc := true, gen := 5, cont := .running })],
             regions := [(1, { cores := [1], trapv := true, trapTile := 4 })] }
theorem test_meets_trap : trapping.trapMode = false ∧ (trapping.region trapping.curRegion).trapv = true ∧ (trapping.region 1).marks = [] ∧
    trapping.oldCount trapping.cur.aid = 0 ∧ (act.region act.curRegion).trapv = false := by decide +kernel
/-- Bytes of the trap record in frame 3 of tile 33. -/
def recAt (t : State) (off n : Nat) : Nat := mread t.tmem (33 * 0x80000 + 3 * 0x800 + 0x700 + off) n
theorem test_trap_record : gotF (exec (.trap p0 0x1234) trapping) (fun t => [recAt t 0 1, recAt t 4 2, recAt t 6 2, recAt t 8 1, recAt t 9 1, recAt t 10 1,
      recAt t 12 4, recAt t 34 2, recAt t 56 1]) = some [0x15, 7, 0x100, 1, 2, 1, 0x40, 0x1234, 3] := by decide +kernel
theorem test_trap_entry : gotF (exec (.trap p0 0x1234) trapping) (fun t => (t.cur.busy, (t.frame (33 * 128 + 3)).cont, (t.transit.map (·.dst)))) =
      some (false, .trapped, [.slot 36 63]) ∧
    gotF (exec (.trap p0 0) trapping) (fun t => (mread t.tmem (33 * 0x80000 + 3 * 0x800 + 0x698) 6, mread t.tmem (33 * 0x80000 + 3 * 0x800 + 0x600) 2)) =
      some (0x70000000040, 0xF03) := by decide +kernel
/-- Without a trap operator the partition log takes the entry (spec/21 R417). -/
theorem test_trap_logged : gotF (exec (.trap p0 7) act) (fun t => ((t.part t.curPart).log.head, t.transit.length)) = some (1, 0) := by decide +kernel
/-- With a load outstanding the trap only waits. -/
theorem test_trap_waits : gotF (exec (.trap p0 7) ({ quiet 0 0 with accesses := [{ id := 1, aid := 5, kind := .ld }] } : State)) (fun t =>
    (t.cur.pend.map (·.cause), t.cur.held, t.cur.busy)) = some (some 0x15, true, true) := by decide +kernel

/-- Tile 0's slot 0 is the trap operator; frame 2 of tile 0 is trapped at 0x80, of generation 9. -/
def handler (late : Bool) : State :=
  { (quiet 0x9000000001001 0).setTile 0 { handlers := [(0, 0xC000000000000000)] } with
    cores := [(0, { region := some 0 })], regions := [(0, { cores := [0] })],
    frames := [(2, { alloc := true, cont := .trapped, gen := 9, trapLen := 4, trapLate := late })], tmem := mwrite [] 0x1698 8 0x70000000080 }
theorem test_meets_tret : (handler false).trapMode = true ∧ (handler false).trappedFrame 0 0x9000000001001 = some 2 ∧ (handler false).trappedFrame 0 0 = none ∧
    (handler false).marked 0 false 0 0 0 0 = false ∧ (sc 0 0).trapMode = false := by decide +kernel
theorem test_tret : gotF (exec (.tret p0 1 true) (handler false)) (fun t => ((t.frame 2).cont, mread t.tmem 0x1698 4)) = some (.runnable, 0x84) ∧
    gotF (exec (.tret p0 1 true) (handler true)) (fun t => ((t.frame 2).cont, mread t.tmem 0x1698 4)) = some (.runnable, 0x80) ∧
    cause (exec (.tret p0 2 true) (handler false)) = some 0x14 ∧ cause (exec (.tret ⟨1, false⟩ 1 true) (sc 0 0)) = some 0x03 := by decide +kernel

/-! Waiting and barriers (spec/20 R393 to R396). -/

/-- Barrier 3 of core 0 expects two; a continuation is filed with it. -/
def barriers (arr : Nat) : State :=
  { quiet 0 0 with cores := [(0, { barriers := [(3, { exp := 2, arr := arr, phase := 0xFFFF })] })], frames := [(5, { alloc := true, cont := .parked, wait := .barrier 3 })] }
theorem test_meets_barriers : ((barriers 1).barrier 0 3).exp ≠ 0 ∧ (barriers 1).pendingOf (barriers 1).cur.aid = [] ∧ (barriers 1).cur.waitOver = false ∧
    (barriers 1).ostCount 5 ≤ 0 ∧ (barriers 1).otoCount 5 ≤ 0 ∧ (barriers 1).oldCount 5 = 0 := by decide +kernel
theorem test_barriers : gotF (exec (.bara p0 3 3) (barriers 1)) (fun t => (t.rdS 3, t.barrier 0 3, (t.frame 5).cont)) =
      some (0xFFFF, { exp := 2, arr := 0, phase := 0 }, .runnable) ∧
    gotF (exec (.barw p0 3) (barriers 0)) (fun t => ((t.barrier 0 3).arr, (t.frame 0).wait, mread t.tmem 0x69D 1)) = some (1, .barrier 3, 2) ∧
    gotF (exec (.barw p0 3) (barriers 1)) (fun t => (t.cur.ip, (t.frame 5).waitOver)) = some (4, true) ∧
    gotF (exec (.barinit p0 7 3) (barriers 1)) (fun t => t.barrier 0 3) = some { exp := 7, arr := 0, phase := 0xFFFF } ∧
    cause (exec (.bara p0 3 4) (barriers 1)) = some 0x14 := by decide +kernel
theorem test_park_waitc : gotF (exec (.park p0) (quiet 0 0)) (fun t => (mread t.tmem 0x698 6, (t.frame 0).wait)) = some (0x30000000004, .nothing) ∧
    gotF (exec (.waitc p0 1 0 0 0) (quiet 0 0)) (fun t => t.cur.ip) = some 4 ∧
    gotF (exec (.waitc p0 1 0 0 0) ((quiet 0 0).setToken 0 0 1)) (fun t => (t.frame 0).wait) = some (.counts 1 0 0) := by decide +kernel
/-- spec/20 R393: a WAITC that parked completes on resume, whatever the token is by then. -/
theorem test_waitc_resumed : (let s := (quiet 0 0).setToken 0 0 1
    gotF (exec (.waitc p0 1 0 0 0) (s.setCur { s.cur with waitOver := true })) (fun t => (t.cur.ip, t.cur.waitOver)) = some (4, false)) := by
  decide +kernel

/-! Channels (spec/17 R331 to R337). -/

/-- The chans state with an open record of one beat on channel 4, which a slot of tile 1 takes. -/
def opened : State :=
  { chans.setTile 0 { chans.tile 0 with pool := [{ aid := 0, ch := 4, beats := [77], scales := [0] }] } with
    cores := [(0, { region := some 0 })], regions := [(0, { cores := [0] })] }
def opened2 : State := opened.setTile 1 { chans := [(4, 0x800000000FF00000)] }
/-- The same in a region with a trap operator. -/
def opened3 : State := opened2.setRegion 0 { opened2.region 0 with trapv := true }
theorem test_meets_emit : opened2.dstOk 4 = true ∧ (opened2.openOn 4).map (·.beats) = some [77] ∧ opened2.destOf 0 4 0 = some (.slot 1 4) ∧
    cSkipz (opened2.chanCur 4) = false ∧ opened2.srcOk 3 = true ∧ opened2.hdrBad 0 2 = none := by decide +kernel
theorem test_emit : gotF (exec (.emit p0 4) opened2) (fun t => t.transit.map (fun x => (x.dst, x.rc.beats))) = some [(.slot 1 4, [77])] ∧
    gotF (exec (.emit p0 4) opened2) (fun t => (t.transit.map (fun x => (rhChan x.rc.hdr, rhParityOk x.rc.hdr)), (t.tile 0).pool.length)) =
      some ([(4, true)], 0) ∧
    gotF (exec (.drop p0 4) opened2) (fun t => (t.transit.length, (t.tile 0).pool.length)) = some (0, 0) ∧
    cause (exec (.skipe p0 4) opened3) = some 0x13 ∧ cause (exec (.emit p0 3) opened3) = some 0x13 := by decide +kernel
theorem test_skipe_hdr : gotF (exec (.skipe p0 4) (opened2.dropOpen 4)) (fun t => t.transit.map (fun x => x.rc.beats)) = some [[0, 0]] ∧
    gotF (exec (.hdr p0 4 1 1) ((opened2.dropOpen 4).wrS 1 (1 <<< 46))) (fun t => (t.tile 0).pool.map (fun o => (o.hdrSet, rhKind o.hdrVal))) = some [(1, 1)] ∧
    cause (exec (.xsend p0 4 1) opened3) = some 0x13 := by decide +kernel
theorem test_pres_pops : gotF (exec (.pres p0 3 3) opened2) (fun t => t.rdS 3) = some 0x200000004 ∧
    gotF (exec (.pops p0 3 3) opened2) (fun t => (t.rdS 3, (t.frame 0).present)) = some (1, 0) ∧
    gotF (exec (.pops p0 3 3) (opened2.popSlot 3)) (fun t => (t.frame 0).wait) = some (.slotOf 3) := by decide +kernel

/-! Queues, sequences, counters and configuration (spec/07 R145, spec/17 R338 to R351, spec/18 R369 to R377, spec/20 R397 to R412). -/

/-- The cause of the fault of an instruction: with a load outstanding its trap waits (spec/21 R413). -/
def fault (i : Instr) (s : State) : Option Nat :=
  gotF (exec i { s with accesses := { id := 99, aid := 5, kind := .ld } :: s.accesses }) (fun t => (t.cur.pend.map (·.cause.toNat)).getD 0)
/-- Guest physical addresses map to themselves; the first 64 MiB of ASID 0 map to themselves, the second level-2 entry is absent. -/
def tables : List Host.Cell :=
  [(0x400000, 0x1), (0x400001, 0x20), (0x400002, 0x40), (0x402000, 0x3), (0x404000, 0x1), (0x404001, 0x60), (0x404002, 0x40), (0x406000, 0x1),
   (0x406001, 0x80), (0x406002, 0x40), (0x408000, 0x1), (0x408001, 0xA0), (0x408002, 0x40), (0x40A000, 0x3)]
/-- Descriptor 0 of partition 0: elements of 8 bytes, CL 4, RL 6, one segment, one open reservation of elements 4 and 5. -/
def seqMem : List Host.Cell := tables ++
  [(0x500000, 0x7), (0x500002, 0x1), (0x500004, 0x1), (0x500008, 0x4), (0x500010, 0x6), (0x50001B, 0x8), (0x500022, 0x60), (0x500028, 0x80),
   (0x500029, 0x24), (0x50002A, 0x60), (0x500031, 0x20), (0x500032, 0x60), (0x600000, 0x23), (0x600002, 0x61), (0x602000, 0x4), (0x602008, 0x2),
   (0x610008, 0x88), (0x610009, 0x77), (0x61000A, 0x66), (0x61000B, 0x55), (0x61000C, 0x44), (0x61000D, 0x33), (0x61000E, 0x22), (0x61000F, 0x11)]
/-- A SYS colour of region 0 on core 0, partition 0; the partition owns slice 0 and has two descriptors and four pool segments. -/
def sys (x y : Word) (m : List Host.Cell) : State :=
  { quiet x y with cores := [(0, { region := some 0, nTasks := 2, tasks := [(0, raw)] })],
                   regions := [(0, { st := 2, cores := [0], colours := [(0, 0x20000000D)] })],
                   ownCore := [(0, 0)], ownSlice := [(0, 0)], vmids := [(0, 0x404000_0000000000400001)], mem := m,
                   parts := [(0, { seqBase := 0x500000, seqCount := 2, poolBase := 0x600000, poolSegs := 4, poolMap := 0x580000,
                                   poolFree := [0x620000, 0x630000] })] }
where
  /-- A task of type REGION without predecessors and successors. -/
  raw : BitVec 512 := BitVec.ofNat 512 (4 + (2 ^ 128 - 1) * 2 ^ 128)
/-- A ring image in force, a claimed B slot, and a boarding that is done, generation 2, under number 1. -/
def ringed (x y : Word) : State :=
  { sys x y [] with
      ring := { images := [(0, 0x1000010000001 + 0x700000 * 2 ^ 64)] },
      cores := [(0, { region := some 0, islands := [(0, { claims := [(8, [(0, 7)])] })], boards := [(1, { st := .done, slice := 3, missw := 2 })],
                      boardGen := [(1, 2)] })] }

theorem test_meets_ttenq : Ready (sys 0 0 []) p0 [1, 2] [] ∧ ((sys 0 0 []).region (sys 0 0 []).curRegion).coreAt 0 = some 0 ∧
    taskOk 2 (sys.raw) = true ∧ (sys 0 0 []).taskNamed ((sys 0 0 []).regionAt 0) (sys 0 0 []).cur.rtag 0 = none ∧
    firstFree ((sys 0 0 []).core 0).tcbs 512 = some 0 ∧ (sys 0 0 []).otoCount 5 < 15 ∧ (sys 0 0 []).priv = true ∧
    ((sys 0 0 []).region 0).coreAt 15 = none := by simp only [Ready]; decide +kernel
theorem test_ttenq : gotF (exec (.ttenq p0 3 1 0 false) (sys 0 0 [])) (fun t => (t.rdS 3, (t.tcb 0 0).st, (t.tcb 0 0).idx, (t.tcb 0 0).cnt)) =
      some (0, .waitin, some 0, 0) ∧
    fault (.ttenq p0 3 1 1 false) (sys 0 0 []) = some 0x14 ∧ fault (.ttenq p0 3 1 0 false) (sys 2 0 []) = some 0x14 := by decide +kernel
theorem test_meets_board : Ready (ringed 0x10000000 0) p0 [1, 2] [] ∧ (ringed 0x10000000 0).boardBad 0x10000000 = none ∧
    firstFree ((ringed 0x10000000 0).core 0).boards 16 = some 0 ∧ (ringed 0 0).boardBad 0 = some Cause.cfg ∧
    ((ringed 0x201 0).boardAt 0x201).map (fun x => x.2.2.col) = some 0 ∧ (ringed 0x101 0).boardAt 0x101 = none := by
  simp only [Ready]; decide +kernel
/-- A fresh number has generation 0; UNBRD frees, RSTAT of DONE frees, a stale handle reads 7 (spec/17 R343, R344, R346). -/
theorem test_boardings : gotF (exec (.board p0 3 1) (ringed 0x10000000 0)) (fun t => (t.rdS 3, (lget? (t.core 0).boards 0).map (·.st))) =
      some (0, some .armed) ∧
    gotF (exec (.rstat p0 3 1) (ringed 0x201 0)) (fun t => (t.rdS 3, (lget? (t.core 0).boards 1).isSome)) = some (0x30000020003, false) ∧
    gotF (exec (.unbrd p0 3 1) (ringed 0x201 0)) (fun t => (t.rdS 3, (lget? (t.core 0).boards 1).isSome)) = some (3, false) ∧
    gotS (exec (.unbrd p0 3 1) (ringed 0x101 0)) 3 = some 7 ∧ gotF (exec (.rhold p0 1 2) (ringed 0x201 9)) (fun t => t.ring.want) = some [] := by
  decide +kernel

/-- A purge of request tag 9 of colour 0, while a copy and a record of it wait. -/
theorem test_meets_purge : Ready (sys 9 0x100 []) p0 [1, 2] [] ∧ (sys 9 0x100 []).priv = true ∧ kSys (sys 9 0x100 []).curColour = true ∧
    (sys 9 0x100 []).stillRuns true 0 = false ∧ ((sys 9 0x100 []).part 0).snap = none := by simp only [Ready]; decide +kernel
theorem test_purge : gotF (exec (.purge p0 3 1 2) { sys 9 0x3000 [] with transit := [{ rc := { hdr := 9 <<< 21 }, dst := .slot 0 3 },
                                                                                      { rc := { hdr := 8 <<< 21 }, dst := .slot 0 3 }] })
      (fun t => t.transit.map (fun x => (rhRtag x.rc.hdr).toNat)) = some [8] ∧
    fault (.purge p0 3 1 2) (sys 9 0 []) = some 0x14 := by decide +kernel
theorem test_freeze_thaw : gotF (exec (.freeze p0 1) (sys 1 0 [])) (fun t => (t.part 0).wholeFrozen) = some true ∧
    gotF (exec (.freeze p0 1) (sys 0 0 [])) (fun t => ((t.colour 0 0).frozen, (t.part 0).wholeFrozen)) = some (true, false) ∧
    gotF (exec (.thaw p0 1) ((sys 0 0 []).setColour 0 0 { frozen := true })) (fun t => (t.colour 0 0).frozen) = some false ∧
    fault (.freeze p0 1) (sys 64 0 []) = some 0x14 := by decide +kernel
/-- SNAP of a frozen partition: its word is checked as a full/empty store to scratchpad (spec/17 R350). -/
def snapping (x : Word) : State :=
  { sys x 0x10000 [] with parts := [(0, { wholeFrozen := true })], tiles := [(0, { tlb := [{ gva := 0x10000, pa := 0x200000000000, dirty := true }] })] }
theorem test_meets_snap : Ready (snapping 7) p0 [1, 2] [] ∧ ((snapping 7).part 0).snap = none ∧
    (snapping 7).check { fe := true, write := true, bytes := 4, elems := [(0, 0x10000)] } = .ok [{ gva := 0x10000, pa := 0x200000000000 }] := by
  simp only [Ready]; decide +kernel
theorem test_snap : gotF (exec (.snap p0 1 2) (snapping 7)) (fun t => (t.part 0).snap) = some (some (7, 0x200000000000)) ∧
    fault (.snap p0 1 2) (snapping 256) = some 0x14 := by decide +kernel
/-- QFLUSH of a streamer channel, then of one request tag's boardings (spec/17 R351). -/
theorem test_qflush : gotF (exec (.qflush p0 3 1) ((sys 0x80 0 []).setCopies 0 1 [{ id := 1 }, { id := 2, token := some (0, 4) }])) (fun t =>
      (t.rdS 3, (t.copies 0 1).length, t.tokenOf 0 4)) = some (2, 0, 3) ∧
    gotF (exec (.qflush p0 3 1) (ringed 0x402 0)) (fun t => (t.rdS 3, (t.core 0).boards.length)) = some (1, 0) ∧
    fault (.qflush p0 3 1) (sys 3 0 []) = some 0x14 := by decide +kernel

/-- A handle that names a descriptor of the activation's colour; a reservation at 4 and free ones; a bad handle; another owner. -/
theorem test_meets_sequence : Ready (sys 0 4 seqMem) p0 [1, 2, 0] [] ∧ (sys 0 4 seqMem).dV 0x500000 = true ∧ (sys 0 4 seqMem).dOwner 0x500000 = 0 ∧
    (sys 0 4 seqMem).pendingOf 5 = [] ∧ (sys 0 4 seqMem).resAt 0 0x500000 4 = some 0 ∧ (sys 0 4 seqMem).resReady 0 0x500000 0 = false ∧
    (sys 0 4 seqMem).missingSegs 0 0x500000 6 1 = [] ∧ (sys 0 4 seqMem).dCap 0x500000 = 449536 ∧ (sys 0 4 seqMem).dV 0x500040 = false ∧
    (sys 0 4 seqMem).seqPa 0 0x500000 8 = some 0x610008 := by simp only [Ready]; decide +kernel
theorem test_sequence_reads : gotS (exec (.sqlen p0 3 1 .region) (came (sys 0 0 seqMem))) 3 = some 4 ∧
    gotS (exec (.sqadr p0 3 1 2) (came (sys 0 5 seqMem))) 3 = some 0x8000028 ∧ fault (.sqadr p0 3 1 2) (came (sys 0 6 seqMem)) = some 0x0A ∧
    gotS (exec (.sqld p0 3 1 2 0 .region) (came (sys 0 1 seqMem))) 3 = some 0x1122334455667788 ∧
    fault (.sqld p0 3 1 2 0 .region) (came (sys 0 4 seqMem)) = some 0x0A ∧ fault (.sqlen p0 3 1 .region) (came (sys 1 0 seqMem)) = some 0x14 := by
  decide +kernel
theorem test_sequence_references : gotF (exec (.sqref p0 3 1) (came (sys 0 0 seqMem))) (fun t => (t.rdS 3, t.dRefcnt 0x500000)) = some (2, 2) ∧
    gotF (exec (.sqrel p0 3 1) (came (sys 0 0 (mwrite seqMem 0x500004 4 3)))) (fun t => (t.rdS 3, t.dRefcnt 0x500000)) = some (2, 2) := by decide +kernel
theorem test_sqwait : gotF (exec (.sqwait p0 1 2 .region) (came (sys 0 4 seqMem))) (fun t => t.cur.ip) = some 4 ∧
    gotF (exec (.sqwait p0 1 2 .region) (came (sys 0 5 seqMem))) (fun t => decide ((t.frame 0).wait = .seqLen 0x500000 5)) = some true := by
  decide +kernel

/-- No elements asked for; no reservation at the base; CL passes a ready reservation; the bytes and bits of voided elements (spec/20 R400,
R402). -/
theorem test_sqrsv_range : fault (.sqrsv p0 3 1 2 true) (came (sys 0 0 seqMem)) = some 0x0A := by decide +kernel
theorem test_advance : let t := ((sys 0 4 seqMem).homeWrite 0x602000 8 (2 ^ 63 + 4) {}).advanceCl {} 0x500000 64
    [t.dCl 0x500000, t.dNres 0x500000, t.resCount 0 0x500000 0] = [6, 0, 0] := by decide +kernel
theorem test_void : let t := (sys 0 4 seqMem).voidElems {} 0x500000 0
    [mread t.mem 0x610020 8, mread t.mem 0x602480 1] = [0xFFFFFFFFFFFFFFFF, 0x30] := by decide +kernel
/-- SQNEW: descriptor 1, its metadata segment, the level-2 entry (spec/20 R399). -/
theorem test_meets_sqnew : ((sys 3 0x4000000 seqMem).newSeqPlace 0x4000000 0).toOption = some (0x40A008, 1) ∧
    ((sys 3 0x4000000 seqMem).part 0).poolFree = [0x620000, 0x630000] ∧ (sys 3 0x4000000 seqMem).seqAddr 0 1 = 0x500040 := by decide +kernel
theorem test_sqnew : gotF (exec (.sqnew p0 3 1 2) (came (sys 3 0x4000000 seqMem))) (fun t => [(t.rdS 3).toNat, t.dLoges 0x500040, t.dSegt 0x500040,
    t.dResv 0x500040, mread t.mem 0x40A008 8, (t.part 0).poolFree.length]) = some [1, 3, 0x620000, 0x622000, 0x620001, 1] := by decide +kernel
theorem test_sqnew_faults : fault (.sqnew p0 3 1 2) (came (sys 13 0x4000000 seqMem)) = some 0x14 ∧
    fault (.sqnew p0 3 1 2) (came (sys 3 0x4000001 seqMem)) = some 4 := by decide +kernel
/-- SQFORK of two elements: one partial segment to copy (spec/20 R406). -/
theorem test_sqfork : gotF (exec (.sqfork p0 3 1 2 4) (came ((sys 0 2 seqMem).wrS 4 0x4000000))) (fun t => (t.rdS 3, t.dCl 0x500040,
    t.forks.map (fun f => (f.src, f.dst, f.bytes)))) = some (1, 2, [(0x610000, 0x630000, 16)]) := by decide +kernel

/-- Counters: a selector of each kind. -/
def counting (x y : Word) : State :=
  { (sys x y []).setColour 0 0 { livea := 3, q := 9, stalew := 5, owc := 2, nxw := 7 } with
      tiles := [(0, { cherr := [(63, 4)], tokens := [(7, 3)], owc := [(0, 1)] })], accesses := [{ id := 1, aid := 5, kind := .st }] }
theorem test_meets_counters : Ready (counting 0 0) p0 [1, 2] [] ∧ (counting 0 0).priv = true ∧ (counting 0 0).cur.col = 0 := by
  simp only [Ready]; decide +kernel
theorem test_cntrd : [0, 1, 0x3F02, 3, 4, 5, 6, 7].map (fun v => gotS (exec (.cntrd p0 3 1) (counting v 0)) 3) =
    [some 0x100, some 0xC000, some 4, some 3, some 9, some 5, some 0, some 0] := by decide +kernel
theorem test_cntrd_faults : [8, 0x103, 0x10002, 0x2007, 0x10].map (fun v => fault (.cntrd p0 3 1) (counting v 0)) =
    [some 0x14, some 0x14, some 0x14, some 0x14, some 0x14] := by decide +kernel
theorem test_cntset : gotF (exec (.cntset p0 1 2) (counting 0x3F02 6)) (fun t => lget 0 (t.tile 0).cherr 63) = some 6 ∧
    fault (.cntset p0 1 2) (counting 0x3F02 0x10000) = some 0x14 := by decide +kernel
theorem test_owcrd_qset : gotS (exec (.owcrd p0 3 1) (counting 0 0)) 3 = some 0x100070002 ∧
    gotF (exec (.qset p0 1 2) (counting 0 16384)) (fun t => (t.colour 0 0).q) = some 16384 ∧
    fault (.qset p0 1 2) (counting 0 16385) = some 0x14 := by decide +kernel

/-- Two dictionary entries, then two codebook pairs, read through the translation (spec/18 R375, R376). -/
def loading (x y : Word) : State := came (sys x y (mwrite tables 0x700000 16 0x40000000000000018000000000000002))
theorem test_meets_configuration : Ready (loading 0x700000 0) p0 [1, 2] [] ∧ (loading 0x700000 0).priv = true ∧
    (loading 0x700000 0).pendingOf 5 = [] ∧ ((loading 0x700000 0).region 0).coreAt 0 = some 0 ∧
    (loading 0x700000 0).partOf 0 = (loading 0x700000 0).curPart := by simp only [Ready]; decide +kernel
theorem test_dictld : gotF (exec (.dictld p0 3 1 2) (loading 0x700000 (2 * 2 ^ 19 + 1022 * 2 ^ 9))) (fun t => (t.rdS 3, (t.tile 0).dictSize,
      lget 0 (t.tile 0).dict 1023)) = some (1024, 1024, 0x4000000000000001) ∧
    cause (exec (.dictld p0 3 1 2) (loading 0x700000 (2 * 2 ^ 19 + 1023 * 2 ^ 9))) = some 0x14 := by decide +kernel
theorem test_cbld : gotF (exec (.cbld p0 3 1 2) (loading 0x700000 0x2FE)) (fun t => (t.rdS 3, lget 0 (t.region 0).codebook 0xFE,
      lget 0 (t.region 0).codebook 0xFF)) = some (2, 2, 0x80000000) ∧
    cause (exec (.cbld p0 3 1 2) (loading 0x700000 0x2FF)) = some 0x14 := by decide +kernel
/-- One page of an address space is dropped, another stays (spec/18 R377). -/
theorem test_tlbinv : gotF (exec (.tlbinv p0 1 2) ((sys 2 0x1FFFF []).setTile 0 { tlb := [{ gva := 0x10000 }, { gva := 0x20000 }] })) (fun t =>
      (t.tile 0).tlb.map (·.gva)) = some [0x20000] ∧
    cause (exec (.tlbinv p0 1 2) (sys 5 0 [])) = some 0x14 ∧ cause (exec (.tlbinv p0 1 2) (sys 0x100 0 [])) = some 8 := by decide +kernel
/-- An image without a magic; a colour that is armed already; a colour disarmed (spec/18 R371 to R374). -/
theorem test_configuration_status : gotS (exec (.cfgld p0 3 1 2) (loading 0x700000 1)) 3 = some 0x0A ∧
    gotS (exec (.cfgarm p0 3 1) (loading 0x200 0)) 3 = some 0x0C ∧
    gotF (exec (.cfgdis p0 3 1) (loading 0x200 0)) (fun t => (t.rdS 3, kArmed (lget 0 (t.region 0).colours 0))) = some (0, false) := by decide +kernel
/-- A loaded region with one colour that asks to be armed (spec/18 R372). -/
theorem test_cfgarm : gotF (exec (.cfgarm p0 3 1) ({ sys 0 0 [] with regions := [(0, { st := 1, cores := [0], spill := 0xFFFF_00000000, heap := 0xFFFFFF_00000000, colours := [(0, 0x1000100000007)] })] } : State))
    (fun t => (t.rdS 3, kArmed (lget 0 (t.region 0).colours 0), (t.region 0).st)) = some (0, true, 2) := by decide +kernel

/-! Encoding, fetch and step. -/

/-- A well-formed instruction and its word; the word of the format's highest register numbers; a word that decodes. -/
theorem test_meets_encoding : (Instr.add p0 3 1 2).wf = true ∧ encode (.add p0 3 1 2) = some 0x4080030102000000 ∧
    (Instr.vmov p0 .i8 (.reg 31) (.reg 31) mk0).wf = true ∧ decodeWord 0x4080030102000000 = some (.add p0 3 1 2) ∧
    decodeWord (0x4080#16 ++ 0x0301#16 ++ 0x0200#16 ++ 0x0000#16) = some (.add p0 3 1 2) := by decide +kernel
/-- Code of one full word, one dictionary code, one code with a reserved field; the last word is cut off. -/
def coded (ip : BitVec 32) : State :=
  { State.reset with
      tiles := [(0, { code := [(0, 0x4080), (1, 0x0301), (2, 0x0200), (3, 0), (4, 0x0001), (5, 0x0401), (6, 0x4000)], codeLen := 7, dictSize := 2,
                      dict := [(1, 0x4080030102000000)] })],
      ctxs := [(0, { busy := true, aid := 1, ip := ip, sregs := [(1, 5), (2, 6)] })] }
theorem test_meets_fetch : (coded 0).fetch = .word 0x4080030102000000 ∧ (coded 4).fetch = .code 1 ∧ (coded 5).fetch = .badCode 0x0401 ∧
    (coded 6).fetch = .beyond ∧ (coded 7).fetch = .beyond ∧ ((coded 0).parcel 4).extractLsb' 14 2 = 0 ∧
    ((coded 0).parcel 0).extractLsb' 14 2 ≠ 0 := by decide +kernel
theorem test_meets_step : (coded 0).agenda = [] ∧ (coded 0).turn = false ∧ (coded 0).pick = some 0 ∧
    (({ coded 0 with turn := true } : State).focusOn 0).cur.issued < ((({ coded 0 with turn := true } : State).focusOn 0).tile 0).hbudget := by
  decide +kernel
/-- A step runs the decoded word, and the word that a code names, whose length is one parcel. -/
theorem test_step : gotF (step (coded 0)) (fun t => (t.rdS 3, t.cur.ip)) = some (11, 4) ∧ gotF (step (coded 4)) (fun t => (t.rdS 3, t.cur.ip)) = some (11, 5) := by
  decide +kernel
theorem test_run_nop : ∃ t, step (State.reset.withFetchWord 64 0x4000) = .next t := ⟨_, rfl⟩
/-- A spent budget, a fetch beyond the code, codes that are none (spec/02 R53, spec/09 R200, R201). -/
theorem test_fetch_faults : cause (issue ((coded 0).setTile 0 { (coded 0).tile 0 with hbudget := 0 })) = some 0x10 ∧
    cause (issue (coded 7)) = some 1 ∧ cause (issue (coded 5)) = some 2 ∧ cause (exec .budget (coded 0)) = some 0x10 ∧
    gotF (exec (.dictionaryCode 1) (coded 4)) (fun t => (t.cur.word, t.cur.len)) = some (0x4080030102000000, 1) := by decide +kernel
theorem test_meets_code : (1 : BitVec 10).toNat < ((coded 4).tile 0).dictSize ∧ ((coded 5).tile 0).dictSize ≤ (2 : BitVec 10).toNat ∧
    decodeWord (lget 0 ((coded 4).tile 0).dict 1) = some (.add p0 3 1 2) := by decide +kernel
/-- Fields of a privileged instruction, of MTS to HMASK, of TRET, of an access without a chain. -/
theorem test_meets_fields : (∃ f, (Instr.freeze p0 1).fields = some f ∧ f.form = 3 ∧ 0xC0 ≤ f.op.toNat) ∧
    (∃ f, (Instr.mts p0 11 1).fields = some f ∧ f.form = 1 ∧ f.op = 0x22 ∧ f.d = 11) ∧
    (∃ f, (Instr.tret p0 1 false).fields = some f ∧ f.form = 3 ∧ f.op = 0x48) ∧
    (∃ f, (Instr.ld ⟨1, false⟩ mD 1 2 3).fields = some f ∧ f.form = 3 ∧ f.op.toNat < 0x40 ∧ f.aux.extractLsb' 4 6 = 0 ∧
      State.reset.holds f.pred = false) :=
  ⟨⟨_, rfl, by decide +kernel⟩, ⟨_, rfl, by decide +kernel⟩, ⟨_, rfl, by decide +kernel⟩, ⟨_, rfl, by decide +kernel⟩⟩
/-- A state in canonical form that is not the state after reset, and its step. -/
theorem test_meets_invariant : Safe { coded 0 with mem := [(5, 1)], tmem := [(7, 2)] } ∧
    ∃ t, step { coded 0 with mem := [(5, 1)], tmem := [(7, 2)] } = .next t := by
  refine ⟨?_, _, rfl⟩
  simp only [Safe]; decide +kernel
theorem test_meets_narrowing : WF.isInt .i8 = true ∧ tyLo .i8 ≤ -128 ∧ (127 : Int) ≤ tyHi .i8 ∧ (-129 : Int) < tyLo .i8 ∧ tyHi .i8 < 128 := by decide +kernel

/-! Translation, pages and ownership (spec/14 R290 to R296). -/

/-- A walk in flight through `tables`. -/
def walking (write : Bool) (m : List Host.Cell) : State := { sys 0 0 m with walks := [{ gva := 0x30000, write := write }], trips := [{ who := [6, 0, 0, 0, 0x30000], src := 80, nums := [] }] }
/-- What a walk gives, as numbers. -/
def walked (s : State) : Option (Nat × Nat × Nat) := (s.walk 0 0 0x30000).toOption.map (fun x => (x.1.pa, x.2.1.1, x.2.2))
theorem test_meets_walk : walked (walking true tables) = some (0, 0x40A000, 0x402000) ∧ walked (walking true []) = none ∧
    (walking true tables).walks[0]?.isSome = true := by decide +kernel
/-- A, and D on a write, are set in both leaves (spec/14 R292). -/
theorem test_table_walk : gotF (exec (.tableWalk 0) (walking true tables)) (fun t => [(mget t.mem 0x40A000).toNat, (mget t.mem 0x402000).toNat,
      (t.tile 0).tlb.length, (t.core 0).tlb.length, t.walks.length]) = some [0xC3, 0xC3, 1, 1, 0] ∧
    gotF (exec (.tableWalk 0) (walking false tables)) (fun t => (mget t.mem 0x40A000).toNat) = some 0x43 ∧
    gotF (exec (.tableWalk 0) (walking true [])) (fun t => ((t.tile 0).tlb.length, t.walks.length)) = some (0, 0) := by decide +kernel
/-- Refused waiters whose time has come at 5, and not before. -/
def waiters (now : Nat) : State :=
  { State.reset with now := now,
                     frames := [(3, { cont := .parked, wait := .wordsRetry 0 [] 5 }), (4, { cont := .parked, wait := .seqRetry 0 0 5 })],
                     accesses := [{ id := 1, kind := .stef, resendAt := 5 }] }
theorem test_retries : gotF (exec (.waitEntryRetry 0 3) (waiters 5)) (fun t => (t.frame 3).cont) = some .runnable ∧
    gotF (exec (.waitEntryRetry 0 3) (waiters 4)) (fun t => (t.frame 3).cont) = some .parked ∧
    gotF (exec (.seqWaitRetry 0 4) (waiters 5)) (fun t => (t.frame 4).cont) = some .runnable ∧
    gotF (exec (.stefResend 0) (waiters 5)) (fun t => t.accesses.map (·.resendAt)) = some [0] ∧
    gotF (exec (.stefResend 0) (waiters 4)) (fun t => t.accesses.map (·.resendAt)) = some [5] := by decide +kernel
theorem test_meets_retries : ((waiters 5).frame 3).cont = .parked ∧ ((waiters 5).frame 3).lateMark = false ∧
    ((waiters 5).accesses.map (·.kind)) = [.stef] := by decide +kernel
/-- At REPL_TH = 256 a page that is only read is replicated (spec/14 R295). -/
theorem test_page_mode : gotF (exec .pageModeInterval { State.reset with pages := [(1, { reads := 256 }), (2, { reads := 255 }), (3, { reads := 300, writes := 1 })] })
    (fun t => [1, 2, 3].map (fun k => (lget {} t.pages k).replicated)) = some [true, false, false] := by decide +kernel
/-- Stage 2 of VMID 1 maps guest page 5 to 0x800000. -/
def migrating : State :=
  { State.reset with
      vmids := [(1, 0x410001)], ownSlice := [(0, 0)],
      mem := [(0x410000, 0x01), (0x410001, 0x20), (0x410002, 0x41), (0x412000, 0x01), (0x412001, 0x40), (0x412002, 0x41), (0x414000, 0x01), (0x414001, 0x60),
              (0x414002, 0x41), (0x416028, 0x03), (0x41602A, 0x80), (0x800080, 9)],
      migs := [{ vmid := 1, gpa := 0x50000, src := 0x800000, dst := 0x900000 }, { vmid := 1, src := 0xA00000, dst := 0xB00000, dirty := [511] }] }
theorem test_meets_migration : (migrating.stage2 1 0x50000).toOption.map (fun x => (x.1.size, x.2)) = some (0x10000, 0x800000) ∧
    migrating.ownerOf 0x800000 = 0 ∧ migrating.ownerOf 0x900000 = 0 ∧ migrating.lines = [] ∧
    (∀ i ∈ ((migrating.migs.getD 1 {}).dirty), i < 512) ∧ (migrating.migs.getD 0 {}).dirty = [] ∧ (migrating.migs.getD 0 {}).committed = false ∧
    ({ migrating with migs := [] } : State).migs = [] ∧ migrating.accesses = [] ∧ lget? migrating.ownCore 3 = none := by decide +kernel
theorem test_meets_safe_migration : Safe migrating := by simp only [Safe]; decide +kernel
theorem test_migration : gotF (exec (.sliceMigration (.commit 0)) migrating) (fun t => (mread t.mem 0x416028 8, (t.migs.map (·.committed)))) =
      some (0x900003, [true, false]) ∧
    gotF (exec (.sliceMigration (.recopy 1)) migrating) (fun t => t.migs.map (fun m => m.dirty.length)) = some [0, 0] := by decide +kernel
/-- A core that changes hands is scrubbed (spec/14 R290). -/
theorem test_ownership : gotF (exec (.ownershipSet (.core 1) (some 2)) { State.reset with ownCore := [(1, 0)], mem := [(0x200001000008, 7), (0x200002000008, 8)] })
    (fun t => (lget? t.ownCore 1, t.mem)) = some (some 2, [(0x200002000008, 8)]) := by decide +kernel

/-! Firmware registers (spec/07 R143, spec/08 R166, spec/06 R135, spec/22 R435). -/

theorem test_ring_registers : [3, 4, 16, 17].map (fun v => gotF (exec (.ringPaceWrite v) State.reset) (fun t => t.ring.pace)) = [some 16, some 4, some 16, some 16] ∧
    [0, 16].map (fun v => gotF (exec (.ringPaceMinWrite v) State.reset) (fun t => t.ring.minPace)) = [some 4, some 16] ∧
    [0, 7].map (fun v => gotF (exec (.ringLeadWrite v) State.reset) (fun t => t.ring.lead)) = [some 2, some 7] ∧
    gotF (exec (.ringImageEntryWrite 7 5) State.reset) (fun t => (t.image 7, lget? t.ring.pending 7)) = some (0, some 5) := by decide +kernel
theorem test_coderate : gotF (exec (.coderateWrite 0 7 0x0001_3839) State.reset) (fun t => t.coderate 0 7) = some 0x0001_3804 ∧
    gotF (exec (.coderateWrite 0 7 0x0000_3908) State.reset) (fun t => t.coderate 0 7) = some 0x00C8_1008 := by decide +kernel
theorem test_thresholds : gotF (exec (.throtThWrite 106) State.reset) (fun t => (t.hub.throtTh, t.hub.placeTh)) = some (105, 85) ∧
    gotF (exec (.throtThWrite 80) State.reset) (fun t => (t.hub.throtTh, t.hub.placeTh)) = some (80, 80) ∧
    gotF (exec (.placeThWrite 96) State.reset) (fun t => t.hub.placeTh) = some 95 ∧ gotF (exec (.timingThWrite 0) State.reset) (fun t => t.hub.timingTh) = some 64 ∧
    gotF (exec (.wdogThWrite 0) State.reset) (fun t => t.hub.wdogTh) = some 0 ∧
    gotF (exec (.tileGatingWrite true 0) (State.reset.setTile 5 { gate := .power })) (fun t => (t.tile 5).gate) = some (.powering 5400) := by decide +kernel
theorem test_more_registers : gotF (exec (.portLinkChange 11 true) State.reset) (fun t => t.hub.portup) = some 0x800 ∧
    gotF (exec (.vmidTableWrite 255 7) State.reset) (fun t => lget 0 t.vmids 255) = some 7 ∧
    gotF (exec (.firmwareRegisterWrite (.share 3) 0x1FF) State.reset) (fun t => (t.part 3).share) = some 0xFF ∧
    gotF (exec (.firmwareRegisterWrite (.seqPool 0 2 0x1000) 0x20000) { State.reset with mem := [(0x1010, 1)] }) (fun t => (t.part 0).poolFree) = some [0x20000] := by
  decide +kernel
/-- Clear on read. -/
theorem test_clear_on_read : gotF (exec (.corrt 2) { State.reset with ring := { corrt := [(2, 9)] } }) (fun t => (t.fwRead, lget 0 t.ring.corrt 2)) = some (9, 0) ∧
    gotF (exec (.underrunRead 2) { State.reset with ring := { under := [(2, 9)] } }) (fun t => (t.fwRead, lget 0 t.ring.under 2)) = some (9, 0) ∧
    gotF (exec (.nacks 1) { State.reset with fabric := [(1, { nacks := 9 })] }) (fun t => (t.fwRead, (t.fab 1).nacks)) = some (9, 0) ∧
    gotF (exec (.latedrop 1) { State.reset with fabric := [(1, { latedrop := 9 })] }) (fun t => (t.fwRead, (t.fab 1).latedrop)) = some (9, 0) ∧
    gotF (exec (.fragerr 1) { State.reset with fabric := [(1, { fragerr := 9 })] }) (fun t => (t.fwRead, (t.fab 1).fragerr)) = some (9, 0) ∧
    gotF (exec (.decfull 1) { State.reset with fabric := [(1, { decfull := 9 })] }) (fun t => (t.fwRead, (t.fab 1).decfull)) = some (9, 0) ∧
    gotF (exec (.retxn 1) { State.reset with fabric := [(1, { retxn := 9 })] }) (fun t => (t.fwRead, (t.fab 1).retxn)) = some (9, 0) ∧
    gotF (exec (.msglossRead 1) { State.reset with fabric := [(1, { msgloss := 9 })] }) (fun t => (t.fwRead, (t.fab 1).msgloss)) = some (9, 0) ∧
    gotF (exec (.portdropRead 1) { State.reset with hub := { portdrop := [(1, 9)] } }) (fun t => (t.fwRead, lget 0 t.hub.portdrop 1)) = some (9, 0) := by
  decide +kernel
theorem test_meets_firmware : 7 < 8 ∧ 11 < 12 ∧ 255 < 256 ∧ (16 : BitVec 5).toNat ≤ 16 ∧ State.reset.ring.minPace ≤ (4 : BitVec 5).toNat := by decide +kernel

/-! Messages of the fabric (spec/08 R163 to R175). -/

/-- A fragment header of message 1 of class 0 from node 0 to node 0: k = 1, m = 1, its index, its parity bit set so that the whole is even. -/
def frag (index : Nat) : BitVec 128 := BitVec.ofNat 128 (1 + index * 2 ^ 116 + (if index % 2 = 0 then 1 else 0) * 2 ^ 127)
/-- A header with k = 2, the stripes of a message of class 0. -/
def frag2 (index : Nat) : BitVec 128 := BitVec.ofNat 128 (1 + 2 ^ 108 + index * 2 ^ 116 + index % 2 * 2 ^ 127)
def fabric (f : Fabric) : State := { State.reset with fabric := [(0, f)], now := 9000 }
theorem test_meets_fragment : parity (frag 0).toNat 128 = false ∧ parity (frag 1).toNat 128 = false ∧ parity (frag2 1).toNat 128 = false ∧
    parity (1#128).toNat 128 = true ∧ State.isNode 0 = true ∧ State.isNode 2066 = true ∧ State.isNode 2067 = false ∧
    (((fabric {}).coderate 0 0).extractLsb' 8 8).toNat = 2 ∧ (fabric {}).hub.ready = false := by decide +kernel
theorem crc_off (c : BitVec 32) : (c != c ^^^ 1) = true := by
  have h : c ≠ c ^^^ 1 := fun h => by
    have e := congrArg (fun x => x.getLsbD 0) h
    simp at e
  simpa using h
/-- The one data fragment, or the parity fragment, of a message of one: delivered, retired and acknowledged (spec/08 R165, R172, R173). -/
theorem test_fragment_arrival : gotF (exec (.fragmentArrival 0 (frag 0) 77 (fragCrc (frag 0) 77)) (fabric {})) (fun t => ((t.fab 0).inbox.map (fun x => (x.id, x.data)), (t.fab 0).acks)) =
      some ([(1, [77])], [{ id := 1, since := 9000 }]) ∧
    gotF (exec (.fragmentArrival 0 (frag 1) 77 (fragCrc (frag 1) 77)) (fabric {})) (fun t => (t.fab 0).inbox.map (fun x => (x.id, x.data))) = some [(1, [77])] ∧
    gotF (exec (.fragmentArrival 0 (frag2 0) 5 (fragCrc (frag2 0) 5)) (fabric {})) (fun t => (t.fab 0).entries.map (fun e => (e.k, e.frags.length))) = some [(2, 1)] ∧
    gotF (exec (.fragmentArrival 0 (frag 0) 77 (fragCrc (frag 0) 77 ^^^ 1)) (fabric {})) (fun t => (t.fab 0).fragerr) = some 1 := by
  simp only [exec, execFragmentArrival, bne_self_eq_false, crc_off]
  decide +kernel
/-- Late, while the id is in the retired filter; before READY a port drops it (spec/08 R171, spec/22 R437). -/
theorem test_fragment_dropped : gotF (exec (.fragmentArrival 0 (frag 0) 77 (fragCrc (frag 0) 77)) (fabric { retired := [(0, 0, 1, 9999)] })) (fun t => (t.fab 0).latedrop) = some 1 ∧
    gotF (exec (.fragmentArrival 4 (frag 0) 77 (fragCrc (frag 0) 77)) (fabric {})) (fun t => lget 0 t.hub.portdrop 0) = some 1 := by
  simp only [exec, execFragmentArrival, bne_self_eq_false]
  decide +kernel
/-- An entry, a retired id, acknowledgements and a message, at the instant of their time limits. -/
def timed : State := fabric { entries := [{ id := 1, started := 9000 - 20 * 2700 }, { id := 2, started := 0 }],
                              retired := [(0, 0, 1, 9000), (0, 0, 2, 9001)], acks := [{ id := 1, since := 6300 }, { dst := 1, id := 1, since := 6301 }],
                              sigs := [.ack 0 [(0, 4)]], msgs := [{ num := 1, id := 4, payload := [77] }, { num := 2, id := 5, retx := true, decto := 54000 }] }
theorem test_meets_timeouts : ({ timed with now := 54000 } : State).decto 0 0 = 54000 ∧ timed.now < 0 + timed.decto 0 0 ∧
    timed.now ≤ 9000 ∧ (∃ a ∈ (timed.fab 0).acks, a.dst = 0 ∧ a.src = 0 ∧ a.since + 2700 ≤ timed.now) ∧ (timed.fab 0).msgs.map (·.retx) = [false, true] ∧
    (timed.fab 0).msgs.map (·.region) = [none, none] := by decide +kernel
theorem test_timeouts : gotF (exec (.decodeTimeout 0 1) { timed with now := 54000 }) (fun t => ((t.fab 0).nacks, (t.fab 0).entries.map (·.nacked))) =
      some (1, [false, true]) ∧
    gotF (exec (.retiredFilterExpiry 0 0) timed) (fun t => (t.fab 0).retired.length) = some 1 ∧
    gotF (exec (.retiredFilterExpiry 0 1) timed) (fun t => (t.fab 0).retired.length) = some 2 ∧
    gotF (exec (.ackCoalesce 0 (0, 0)) timed) (fun t => ((t.fab 0).acks.map (·.dst), (t.fab 0).sigs)) = some ([1], [.ack 0 [(0, 4)], .ack 0 [(0, 1)]]) ∧
    gotF (exec (.ackCoalesce 0 (1, 0)) timed) (fun t => (t.fab 0).acks.length) = some 2 ∧
    gotF (exec (.acknowledgement 0 (0, [(0, 4)])) timed) (fun t => ((t.fab 0).msgs.map (·.id), (t.fab 0).sigs)) = some ([5], []) := by decide +kernel
theorem test_nack : gotF (exec (.nack 0 (0, 0, 4) false) timed) (fun t => ((t.fab 0).retxn, (t.fab 0).msgs.map (·.retx), t.flights.length)) = some (1, [true, true], 2) ∧
    gotF (exec (.nack 0 (0, 0, 5) true) timed) (fun t => ((t.fab 0).msgloss, (t.fab 0).msgs.length)) = some (1, 1) ∧
    gotF (exec (.msgloss 0 1) { timed with now := 108000 }) (fun t => (t.fab 0).msgloss) = some 1 ∧
    gotF (exec (.msgloss 0 1) { timed with now := 107999 }) (fun t => (t.fab 0).msgloss) = some 0 := by decide +kernel

/-! Heat, replays, watchdog (spec/06 R134, R136, spec/19 R389, spec/21 R425). -/

def warm (x : Core) : State := { sys 0 0 [] with cores := [(0, { x with region := some 0 })], now := 21600 }
theorem test_throttle : [94, 95, 91, 92].map (fun v => gotF (exec (.throttleSample 0 v 0) (warm { step := 10 })) (fun t => (t.core 0).step)) =
      [some 10, some 9, some 11, some 10] ∧
    gotF (exec (.throttleSample 0 0 99) (warm { step := 4 })) (fun t => (t.core 0).step) = some 4 ∧
    gotF (exec (.throttleSample 0 20 0) (warm { step := 16 })) (fun t => (t.core 0).step) = some 16 ∧
    gotF (exec (.throttleSample 0 99 0) (warm { step := 10, stepAt := 1 })) (fun t => (t.core 0).step) = some 10 ∧
    gotF (exec (.throttleSample 0 110 0) (warm {})) (fun t => ((t.core 0).halted, (t.part 0).log.head)) = some (true, 1) ∧
    gotF (exec (.throttleSample 64 110 0) (warm {})) (fun t => (t.hub.halted, (t.part 15).log.head)) = some (true, 1) := by decide +kernel
theorem test_meets_heat : ((warm {}).core 0).region = some 0 ∧ (warm {}).partOf 0 < 16 ∧ (warm {}).hub.halted = false ∧ ((warm { throttled := [(10, 16)] }).core 0).owes = some 10 := by
  decide +kernel
theorem test_debt : gotF (exec (.debtAccrual 0) (warm { throttled := [(10, 17)] })) (fun t => ((t.part 0).debt, lget 0 (t.core 0).throttled 10)) = some (6, 1) ∧
    gotF (exec (.debtAccrual 0) (warm { throttled := [(10, 15), (9, 15)] })) (fun t => (t.part 0).debt) = some 0 := by decide +kernel
theorem test_replays : gotF (exec (.timingReplay 0) ((sys 0 0 []).setTile 0 { repwin := 63 })) (fun t => ((t.tile 0).replayn, (t.tile 0).repwin, (t.part 0).log.head)) =
      some (1, 0, 1) ∧
    gotF (exec (.timingReplay 0) ((sys 0 0 []).setTile 0 { repwin := 62 })) (fun t => ((t.tile 0).repwin, (t.part 0).log.head)) = some (63, 0) ∧
    gotF (exec (.replayWindowEnd 0) { (sys 0 0 []).setTile 0 { repwin := 62 } with cyc := [(0, 0x100000)] }) (fun t => (t.tile 0).repwin) = some 0 := by
  decide +kernel
theorem test_meets_replays : (({ sys 0 0 [] with cyc := [(0, 0x100000)] } : State).cycOf 0).toNat / 2 ^ 20 ≠ lget 0 (sys 0 0 []).hub.windows 0 ∧
    ((sys 0 0 []).cycOf 0).toNat / 2 ^ 20 = lget 0 (sys 0 0 []).hub.windows 0 := by decide +kernel
/-- The count at WDOG_TH, and one below it. -/
def watched (n : Nat) : State := (sys 0 0 []).setColour 0 0 { livea := 1, wdog := n }
theorem test_meets_watchdog : (watched 0x1000000).hub.wdogTh ≠ 0 ∧ ((watched 0x1000000).colour 0 0).livea ≠ 0 ∧
    (watched 0x1000000).hub.wdogTh ≤ ((watched 0x1000000).colour 0 0).wdog := by decide +kernel
theorem test_watchdog : gotF (exec (.watchdog 0 0) (watched 0x1000000)) (fun t => ((t.colour 0 0).wdog, (t.part 0).log.head, t.purges.length)) = some (0, 1, 1) ∧
    gotF (exec (.watchdog 0 0) (watched 0xFFFFFF)) (fun t => (t.part 0).log.head) = some 0 := by decide +kernel

/-! Pre-emption, reset of a tenant, die drop, bring-up (spec/21 R427 to R431, spec/22 R436 to R438). -/

/-- Core 0 of partition 0 with a parked continuation, bytes of tile memory, a running phase. -/
def tenant (x : Part) : State :=
  { State.reset with ownCore := [(0, 0)], cores := [(0, { region := some 0 })], regions := [(0, { st := 2, cores := [0] })], parts := [(0, x)],
                     frames := [(2, { alloc := true, cont := .parked, wait := .restore })], ctxs := [(1, { sregs := [(1, 7)] })], tmem := [(5, 9)],
                     tiles := [(0, { gate := .clock })], mem := [(0x200000000000, 3), (0x200001000000, 4)] }
theorem test_preemption : gotF (exec (.preemptionRequest 0) (tenant {})) (fun t => ((t.part 0).phase, (t.tile 0).gate)) = some (.halting, .waking 8) ∧
    gotF (exec (.preemptionSave 0) (tenant { phase := .halting })) (fun t => ((t.ctx 1).sregs.length, mget t.tmem 5)) = some (0, 0) ∧
    gotF (exec (.preemptionSave 0) (tenant { phase := .halting })) (fun t => gotF (exec (.preemptionRestore 0) t) (fun u =>
      ((u.ctx 1).sregs.length, mget u.tmem 5, (u.frame 2).cont))) = some (some (1, 9, .runnable)) := by decide +kernel
theorem test_meets_preemption : (tenant { phase := .halting }).haltDone 0 = true ∧ ((tenant {}).part 0).phase = .run ∧ ((tenant {}).part 0).resetting = false ∧
    (tenant {}).coresOf 0 = [0] ∧ ((tenant { phase := .saved, save := some { ctxs := [(1, { ip := 4 })] } }).part 0).save.isSome = true ∧
    ([(1, { ip := 4 })] : SMap Ctx).Pairwise (fun a b => a.1 < b.1) ∧
    ({ tenant { phase := .halting } with ctxs := [(1, { busy := true })] } : State).haltDone 0 = false := by decide +kernel
theorem test_tenant_reset : gotF (exec (.tenantReset 0) (tenant {})) (fun t => ((t.part 0).phase, (t.part 0).wholeFrozen, (t.part 0).resetting)) =
      some (.halting, true, true) := by decide +kernel
/-- A SNAP of partition 0 runs; its word is EMPTY, or in BARRIER. -/
theorem test_snap_end : gotF (exec (.snapEnd 0 2) (tenant { snap := some (7, 0x200000000010) })) (fun t => (mread t.mem 0x200000000010 4, t.feOf 0x200000000010)) =
      some (0x207, 1) ∧
    gotF (exec (.snapEnd 0 2) { tenant { snap := some (7, 0x200000000010) } with fe := [(0x80000000004, 2)] }) (fun t => mread t.mem 0x200000000010 4) = some 0 := by
  decide +kernel
theorem test_meets_snap_end : ((tenant { snap := some (7, 0x200000000010) }).part 0).snap = some (7, 0x200000000010) ∧
    (tenant {}).anyWord 0x200000000010 4 2 = false ∧ (tenant {}).anyWord 0x200000000010 4 3 = false := by decide +kernel
theorem test_die_drop : gotF (exec (.dieDrop 0) (tenant {})) (fun t => (t.dropped, t.mem, t.ownCore)) = some ([0], [], []) ∧
    gotF (exec (.dieDrop 3) (tenant {})) (fun t => (t.dropped, t.mem.length)) = some ([3], 2) ∧ gotF (exec (.dieDrop 4) (tenant {})) (fun t => t.dropped) = some [] := by
  decide +kernel
theorem test_power_on : gotF (exec (.powerOn 0x7FFB true) (tenant {})) (fun t => (t.hub.bootport, t.hub.devnum, t.hub.stage, t.hub.portup)) = some (11, 0x7FF, 2, 0x800) ∧
    gotF (exec (.powerOn 12 false) (tenant {})) (fun t => (t.hub.bootport, t.hub.railerr, t.hub.stage)) = some (0, true, 1) ∧
    gotF (exec (.policyFirmwareImage true) { tenant {} with hub := { stage := 2 } }) (fun t => (t.hub.ready, t.hub.portup, t.mem.length)) = some (true, 0xFFF, 0) ∧
    gotF (exec (.policyFirmwareImage false) { tenant {} with hub := { stage := 2 } }) (fun t => (t.hub.ready, t.mem.length)) = some (false, 2) := by decide +kernel

/-! The weight ring (spec/07 R137 to R155). -/

/-- Bytes that are zero have the CRC 0 (spec/07 R142). -/
theorem crc_of_zeros (l : List Byte) (h : ∀ b ∈ l, b = 0) : crc64 l = 0 := by
  have step : crcByte 0 0 = 0 := by decide
  suffices ∀ l : List Byte, (∀ b ∈ l, b = 0) → l.foldl crcByte 0 = 0 from this l h
  intro l
  induction l with
  | nil => intro _; rfl
  | cons a l ih =>
    intro h
    rw [List.foldl_cons, h a (by simp), step]
    exact ih (fun b hb => h b (by simp [hb]))
theorem crc_empty_memory (s : State) (h : s.mem = []) (pa : Nat) : s.tileCrcOk pa = true := by
  have z : ∀ a, mget s.mem a = 0 := by intro a; rw [h]; rfl
  have m : ∀ a n, ∀ b ∈ s.memBytes a n, b = 0 := by
    intro a n b hb
    simp only [State.memBytes, List.mem_map] at hb
    obtain ⟨i, _, e⟩ := hb
    rw [← e]
    simp [State.rmem, h, mread]
    rfl
  unfold State.tileCrcOk
  rw [crc_of_zeros]
  · simp only [State.rmem, h]
    rfl
  · intro b hb
    simp only [List.mem_append, List.mem_singleton] at hb
    rcases hb with ((hb | hb) | hb) | hb
    · exact m _ _ b hb
    · exact hb
    · exact m _ _ b hb
    · exact m _ _ b hb

/-- A lap of image 0 of 17 tiles, with one boarding of layer 0, slice 0 on core 0. -/
def lap (pos : Nat) (b : Boarding) (claims : List (BitVec 5 × BitVec 16)) : State :=
  { sys 0 0 [] with
      ring := { images := [(0, 0x1100010001 + 0x700000 * 2 ^ 64)], running := true, pos := pos },
      cores := [(0, { region := some 0, islands := [(0, { claims := [(8, claims)] })],
                      boards := [(1, { b with word := 0x10000000, rtag := 7 })] })] }
theorem test_meets_head : State.freeBSlot ((lap 0 { boards := true } [(0, 7)]).rowAt 0) { boards := true, word := 0x10000000, rtag := 7 } = some 0 ∧
    State.freeBSlot ((lap 0 { boards := true } []).rowAt 0) { boards := true, word := 0x10000000, rtag := 7 } = none ∧
    ((lap 0 { boards := true } []).wouldMiss 1 0 { boards := true, word := 0x10000000, rtag := 7 }).2 = false ∧
    ((lap 0 { boards := true } []).wouldMiss 1 0 { boards := true, word := 0x200010000000, rtag := 7 }).2 = true ∧
    riTiles ((lap 0 {} []).image 0) = 17 ∧ bwImage 0x10000000 = 0 ∧ (lap 0 {} []).tileHdr ((lap 0 {} []).image 0) 0 = 0 ∧
    ((lap 0 {} []).core 0).seen = 0 ∧ (lap 0 {} []).lapOver = false ∧ (lap 16384 {} []).ring.hold = none := by decide +kernel
/-- A due head is accepted into the free slot; with no slot it is missed; one that is not there has no effect (spec/07 R148, R149). -/
theorem test_tile_head : gotF (exec (.tileHeadArrival 0 0) (lap 0 { boards := true } [(0, 7)])) (fun t => ((t.core 0).seen, (t.core 0).arriving.map (·.tile),
      (lget? (t.core 0).boards 1).map (fun b => (b.st, b.kblk)))) = some (1, [0], some (.active, 1)) ∧
    gotF (exec (.tileHeadArrival 0 0) (lap 0 { boards := true } [])) (fun t => (lget? (t.core 0).boards 1).map (fun b => (b.st, b.missw))) =
      some (some (.waitlap, 1)) ∧
    gotF (exec (.tileHeadArrival 0 1) (lap 0 { boards := true } [])) (fun t => (t.core 0).seen) = some 0 := by decide +kernel
/-- A tile that has arrived whole, and its check. -/
def arrived (pos : Nat) : State := (lap pos {} [(0, 7)]).setCore 0 { (lap pos {} [(0, 7)]).core 0 with
                                     arriving := [{ slot := 0, board := 1, last := true }], boards := [(1, { word := 0x10000000, rtag := 7, st := .active })] }
theorem test_meets_crc : 544 * (0 / 16 + 1) ≤ (arrived 544).ring.pos ∧ (arrived 543).ring.pos < 544 * (0 / 16 + 1) ∧
    ((arrived 544).core 0).arriving.length = 1 ∧ (lget? ((arrived 544).core 0).boards 1).map (·.st) = some .active ∧
    lget 0 ((arrived 544).core 0).boardGen 1 = 0 := by decide +kernel
theorem test_meets_crc_sound : (arrived 544).tileCrcOk 0x700000 = true := crc_empty_memory _ rfl _
/-- A damaged tile frees its slot and is boarded again in the next lap (spec/07 R155). -/
theorem test_crc_damaged : gotF (exec (.tileCrcCheck 0 0 true) (arrived 544)) (fun t => (lget 0 t.ring.corrt 0, (lget? (t.core 0).boards 1).map (·.st),
      (t.core 0).arriving.length)) = some (1, some .waitlap, 0) ∧
    gotF (exec (.tileCrcCheck 0 0 true) (arrived 543)) (fun t => (t.core 0).arriving.length) = some 1 := by decide +kernel
/-- The end of a lap: one that was due and accepted nothing is missed; a change to the table takes effect (spec/07 R143, R150). -/
def lapEnd : State :=
  { lap 16384 { boards := true, due := true, mlaps := 2, st := .waitlap } [] with
      cores := [(0, { region := some 0, seen := 17, boards := [(1, { word := 0x10000000, due := true, mlaps := 2, st := .waitlap })] })],
      ring := { (lap 16384 {} []).ring with pending := [(3, 0x2200010001)] } }
theorem test_meets_lap : lapEnd.lapOver = true ∧ lapEnd.ring.running = true ∧ lapEnd.enabledEntries = [0] ∧
    ([(3, 1)] : SMap Nat).Pairwise (fun a b => a.1 < b.1) ∧ State.reset.lapOver = true ∧ State.reset.enabledEntries = [] := by decide +kernel
theorem test_lap_boundary : gotF (exec .lapBoundary lapEnd) (fun t => ((lget? (t.core 0).boards 1).map (fun b => (b.st, b.mlaps)), t.ring.cur, t.ring.pending.length)) =
      some (some (.faulted, 3), 3, 0) ∧
    gotF (exec .lapBoundary lapEnd) (fun t => (lget 0 t.ring.lapn 3, t.ring.pos, (t.core 0).seen)) = some (1, 0, 0) := by decide +kernel
/-- Holds and underruns (spec/07 R152, R153). -/
def holding (x : RingSt) : State := { lap 0 {} [] with ring := { x with images := [(0, 0x1100010001)], running := true } }
theorem test_holds : gotF (exec .ringHold (holding { want := [(1, 5), (2, 9)] })) (fun t => t.ring.hold) = some (some 9) ∧
    gotF (exec .ringHold (holding { want := [(1, 5)], pos := 1 })) (fun t => t.ring.hold) = some none ∧
    gotF (exec .ringHold (holding { want := [(1, 5)], holdLeft := [(0, 0)] })) (fun t => t.ring.want) = some [] ∧
    gotF (exec .holdExpiry (holding { want := [(1, 5)], hold := some 0 })) (fun t => t.ring.hold) = some none ∧
    gotF (exec .holdExpiry (holding { want := [(1, 5)], hold := some 3, holders := [1] })) (fun t => t.ring.hold) = some (some 3) ∧
    gotF (exec (.underrun 15) (holding {})) (fun t => (lget 0 t.ring.under 15, t.ring.paceEff)) = some (1, 15) ∧
    gotF (exec (.underrun 16) (holding {})) (fun t => t.ring.paceEff) = some 16 := by decide +kernel
theorem test_meets_holds : (holding { want := [(1, 5)] }).ring.hold = none ∧ lget 256 (holding {}).ring.holdLeft 0 = 256 ∧
    (holding { pos := 544 }).ring.pos % 544 = 0 ∧ (holding {}).ring.running = true := by decide +kernel

/-! Host queues and March (spec/16 R323 to R328, spec/22 R433, spec/06 R119 to R124). -/

/-- A launch record of one admission, request tag 9, one region level, its completion at 0x700800. -/
def launchWord : Nat := 1 + 2 ^ 24 + 9 * 2 ^ 48 + 2 ^ 64 + 0x700800 * 2 ^ 128 + 274 * 2 ^ 384
/-- Queue 0 of partition 0 and VMID 0, mapped, of 64 entries at 0x700000, with one entry to read. -/
def hosted (st : Nat) (mapped : Bool) : State :=
  { sys 0 0 (mwrite tables 0x700000 256 launchWord) with
      hub := { ready := true }, queues := [(0, { desc := BitVec.ofNat 512 (0x700000 + 6 * 2 ^ 64 + 2 ^ 128 + st * 2 ^ 160), mapped := mapped })] }
/-- A reliable packet from port 2 to the first command queue. -/
def pkt : Packet := { port := 2, ep := 1, mode := .reliable }
theorem test_meets_host : (hosted 1 true).hub.halted = false ∧ (hosted 1 true).hub.ready = true ∧ qdState ((hosted 1 true).queue 0).desc = 1 ∧
    (hosted 1 true).queueOk ((hosted 1 true).queue 0).desc = true ∧ (hosted 1 true).queueOk 0 = false ∧ launchWordOk launchWord = true ∧
    (hosted 1 true).launchOk (launchOf launchWord 0 0) = true ∧ launchWordOk 0 = false ∧
    ((hosted 1 true).xlateEng 4 0 0 0x700000 false).toOption.map (fun x => x.2.1) = some 0x700000 ∧
    ((hosted 1 true).hostXlate 0 0 0x700008 8 true).toOption.map (fun x => (x.1.sysatom, x.2.1)) = some (false, 0x700008) ∧
    ((hosted 1 true).hostXlate 0 0 0x4000000 8 true).toOption.isNone = true ∧ (1 : BitVec 16) ≠ 0 ∧ (1023 : Nat) < 1024 := by decide +kernel
theorem test_doorbell : gotF (exec (.doorbell pkt 2) (hosted 1 true)) (fun t => (qdWr (t.queue 0).desc, qdState (t.queue 0).desc)) = some (2, 1) ∧
    gotF (exec (.doorbell pkt 66) (hosted 1 true)) (fun t => (qdState (t.queue 0).desc, (t.part 0).log.head)) = some (2, 1) ∧
    gotF (exec (.doorbell pkt 2) (hosted 1 false)) (fun t => qdPend (t.queue 0).desc) = some true ∧
    gotF (exec (.doorbell pkt (1 <<< 17)) (hosted 1 true)) (fun t => lget 0 t.hub.portdrop 2) = some 1 ∧
    gotF (exec (.doorbell { pkt with mode := .idempotent } 2) (hosted 1 true)) (fun t => lget 0 t.hub.portdrop 2) = some 1 := by decide +kernel
theorem test_queue_map : gotF (exec (.queueMap 0 none) (hosted 0 false)) (fun t => ((t.queue 0).mapped, qdState (t.queue 0).desc)) = some (true, 1) ∧
    gotF (exec (.queueMap 0 (some 0)) (hosted 0 false)) (fun t => ((t.queue 0).mapped, qdState (t.queue 0).desc)) = some (true, 2) ∧
    gotF (exec (.queueUnmap 0) (hosted 1 true)) (fun t => ((t.queue 0).mapped, qdState (t.queue 0).desc)) = some (false, 0) := by decide +kernel
theorem test_command_queue_read : gotF (exec (.commandQueueRead 0) (hosted 1 true)) (fun t => (qdRd (t.queue 0).desc, (t.marchQueue 0 0).map (·.rtag))) = some (1, [9]) ∧
    gotF (exec (.commandQueueRead 0) (hosted 2 true)) (fun t => qdRd (t.queue 0).desc) = some 0 := by decide +kernel
/-- Bytes read and written through VMID 0, ASID 0; an atomic needs SYSATOM (spec/05 R117). -/
theorem test_host_access : gotF (exec (.hostReadWrite pkt 0x700006 (.read 2)) (hosted 1 true)) (fun t => t.answers.map (fun x => (x.2.1, x.2.2))) = some [(0, [9, 0])] ∧
    gotF (exec (.hostReadWrite pkt 0x700010 (.write [5, 6])) (hosted 1 true)) (fun t => mread t.mem 0x700010 2) = some 0x605 ∧
    gotF (exec (.hostAtomic pkt 0x700008 .add true 1 0) (hosted 1 true)) (fun t => t.answers.map (fun x => x.2.1)) = some [0x26] ∧
    gotF (exec (.hostAtomic pkt 0x700009 .add true 1 0) (hosted 1 true)) (fun t => t.answers.map (fun x => x.2.1)) = some [0x26] := by decide +kernel

/-- One launch of partition 0 in class 0 waits at March; the partition has a debt or not. -/
def marching (debt share cost : Nat) : State :=
  { (sys 0 0 []).setColour 0 0 { q := 2 } with
      hub := { queues := [(0, [{ cost := cost, admits := 1, rtag := 9, levels := [(2, 1, 2)] }])] }, parts := [(0, { debt := debt, share := share })] }
theorem test_meets_march : ((marching 0 1 1).headChoice 0 0).map (fun x => (x.1.rtag, x.2)) = some (9, 0) ∧
    ((marching 0 1 1).marchQueue 0 0).length = 1 ∧ (marching 0 1 1).marchQueue 3 15 = [] ∧ ((marching 5 1 1).part 0).debt ≠ 0 ∧
    ((sys 0 0 []).region 0).cols.Pairwise (fun a b => a.1 < b.1) := by decide +kernel
theorem test_march : gotF (exec .marchPlacement (marching 0 1 0)) (fun t => ((t.region 0).launches.length, lget 0 (t.part 0).deficit 0, lget 0 t.hub.live 0)) =
      some (1, 0, 1) ∧
    gotF (exec .marchPlacement (marching 0 1 2)) (fun t => ((t.region 0).launches.length, lget 0 (t.part 0).deficit 0)) = some (0, 1) ∧
    gotF (exec .marchPlacement (marching 3000 0 2)) (fun t => ((t.region 0).launches.length, (t.part 0).debt)) = some (1, 952) ∧
    gotF (exec (.dieReport 0) ((sys 0 0 []).setColour 0 0 { livea := 3 })) (fun t => (t.fab 0).msgs.map (fun m => (m.cls, m.src, m.dst))) = some [(4, 80, 2064)] := by
  decide +kernel

/-! Tasks (spec/06 R125 to R129, spec/13 R277 to R279). -/

/-- Besides `tables`, guest addresses from 0x4000000 map to the scratchpad of core 0. -/
def tables2 : List Host.Cell := mwrite (mwrite tables 0x403000 8 0x200000000003) 0x40A008 8 0x200000000003
/-- A task record without successors. -/
def mkT (ty inlen input oper : Nat) : BitVec 512 := BitVec.ofNat 512 (ty + inlen * 2 ^ 80 + (2 ^ 128 - 1) * 2 ^ 128 + input * 2 ^ 320 + oper * 2 ^ 384)
/-- The engine of core 0 with a task in block 2; the first word of the scratchpad in a state, holding 5. -/
def tasked (raw : BitVec 512) (st : TcbSt) (fe : BitVec 2) : State :=
  { sys 0 0 (mwrite tables2 0x200000000000 4 5) with fe := [(0x80000000000, fe)],
                                                      cores := [(0, { region := some 0, nTasks := 2, tasks := [(0, sys.raw)],
                                                                      tcbs := [(2, { raw := raw, idx := some 1, st := st, rtag := 9 })] })] }
theorem test_meets_task : (((tasked (mkT 4 1 0x4000000 0) .waitin 1).taskWord 0 ((tasked (mkT 4 1 0x4000000 0) .waitin 1).tcb 0 2) 0x4000000).toOption.map (·.1)) =
      some 0x200000000000 ∧
    (tasked (mkT 4 1 0x4000000 0) .waitin 1).feOf 0x200000000000 = 1 ∧ tType (mkT 4 1 0x4000000 0) = 4 ∧ tInlen (mkT 4 1 0x4000000 0) = 1 ∧
    (((tasked (mkT 4 1 0x10000 0) .waitin 1).taskWord 0 {} 0x10000).toOption.map (·.1)) = none ∧
    (tasked (mkT 4 0 0 0) .ready 1).mayIssue 0 ((tasked (mkT 4 0 0 0) .ready 1).tcb 0 2) = true := by decide +kernel
theorem test_task_resident : [0, 1, 3].map (fun f => gotF (exec (.taskResident 0 2) (tasked (mkT 4 1 0x4000000 0) .waitin f)) (fun t => (t.tcb 0 2).st)) =
      [some .waitin, some .ready, some .retired] ∧
    gotF (exec (.taskResident 0 2) (tasked (mkT 4 1 0x10000 0) .waitin 1)) (fun t => ((t.tcb 0 2).status, (t.part 0).log.head)) = some (5, 1) := by decide +kernel
theorem test_task_issue : gotF (exec (.taskIssue 0 2) (tasked (mkT 4 0 0 0) .ready 1)) (fun t => (t.tcb 0 2).st) = some .issued ∧
    gotF (exec (.taskIssue 0 2) ((tasked (mkT 4 0 0 0) .ready 1).setColour 0 0 { frozen := true })) (fun t => (t.tcb 0 2).st) = some .ready := by decide +kernel
/-- REGION: task 0 is enqueued in the lowest free block, then the task retires (spec/18 R362). -/
theorem test_region_task : gotF (exec (.regionTask 0 2) (tasked (mkT 4 0 0 0x400) .issued 1)) (fun t => ((t.tcb 0 2).st, (t.tcb 0 0).idx, (t.tcb 0 0).rtag)) =
      some (.retired, some 0, 9) ∧
    gotF (exec (.regionTask 0 2) (tasked (mkT 4 0 0 0x402) .issued 1)) (fun t => (t.tcb 0 2).status) = some 0x14 := by decide +kernel
theorem test_meets_region_task : ((tasked (mkT 4 0 0 0x400) .issued 1).enqueueTask 0 (sys.raw) (some 0) (State.byTask ((tasked (mkT 4 0 0 0x400) .issued 1).tcb 0 2))).map
      (·.1) = some 0 ∧ bits (tOper (mkT 4 0 0 0x400)) 10 10 = 1 ∧ ((tasked 0 .issued 1).core 0).nTasks = 2 ∧
    ((tasked 0 .issued 1).enqueueTask 0 (sys.raw) (some 0) (State.byTask {})).map (fun x => (x.2.tcb 0 2).idx) = some (some 1) := by decide +kernel
/-- COND reads 5: the first four successors count down, task 1 among the others is skipped; WHILE reads 5 and waits for its body (spec/06 R128, R129). -/
def branching (ty : Nat) (succ : Nat) (v : Nat) : State :=
  let s := tasked (BitVec.ofNat 512 (ty + succ * 2 ^ 128 + 0x4000000 * 2 ^ 384)) .ready 1
  { s with mem := mwrite s.mem 0x200000000000 4 v, cores := [(0, { s.core 0 with tcbs := (s.core 0).tcbs ++ [(3, { idx := some 0, st := .waitpred, cnt := 1, rtag := 9 })] })] }
def skip4 : Nat := 2 ^ 128 - 1 - 0xFFFF * 2 ^ 64
def body0 : Nat := 2 ^ 128 - 1 - 0xFFFF
theorem test_meets_branches : (branching 5 skip4 5).mayRead 0 ((branching 5 skip4 5).tcb 0 2) 5 = true ∧
    ((branching 5 skip4 5).condWord 0 ((branching 5 skip4 5).tcb 0 2)).2.toOption = some (some (5, 0x200000000000)) ∧
    tSuccs (BitVec.ofNat 512 (5 + skip4 * 2 ^ 128)) 4 4 = [0] ∧ (branching 5 skip4 5).taskNamed 0 9 0 = some (0, 3) ∧
    (branching 6 body0 5).mayRead 0 ((branching 6 body0 5).tcb 0 2) 6 = true ∧ tSuccs (BitVec.ofNat 512 (6 + body0 * 2 ^ 128)) 0 4 = [0] ∧
    ((branching 5 skip4 5).tcb 0 3).st ≠ .named ∧ [0].Nodup := by decide +kernel
theorem test_branches_taken : gotF (exec (.condTask 0 2) (branching 5 skip4 5)) (fun t => ((t.tcb 0 2).st, (t.tcb 0 3).st)) = some (.retired, .retired) ∧
    gotF (exec (.condTask 0 2) (branching 5 skip4 0)) (fun t => ((t.tcb 0 2).decs, (t.tcb 0 3).st)) = some ([0], .waitpred) ∧
    gotF (exec (.whileTask 0 2) (branching 6 body0 5)) (fun t => ((t.tcb 0 2).st, (t.tcb 0 3).cnt, t.feOf 0x200000000000)) = some (.waitpred, -1, 0) ∧
    gotF (exec (.whileTask 0 2) (branching 6 body0 0)) (fun t => ((t.tcb 0 2).st, t.feOf 0x200000000000)) = some (.retired, 0) := by decide +kernel
theorem test_retirement : gotF (exec (.taskRetirement 0 2) ((branching 5 0 5).setTcb 0 2 { st := .retired, decs := [0], rtag := 9 })) (fun t =>
      ((lget? (t.core 0).tcbs 2).isSome, (t.tcb 0 3).st, (t.tcb 0 3).cnt)) = some (false, .waitin, 0) := by decide +kernel
theorem test_meets_retirement : tOvf (0 : BitVec 512) = 0 ∧ tCplv (0 : BitVec 512) = false ∧ tCplv 0x400 = true := by decide +kernel

/-- An island whose bank 0 is zeroed for colour 0, with row 0 of A slot 0 and B slot 0 filled, both claimed by (0, 9). -/
def island (raw : BitVec 512) : State :=
  let s := tasked raw .issued 1
  { s with cores := [(0, { s.core 0 with islands := [(0, { claims := [(0, [(0, 9)]), (8, [(0, 9)])], bankTag := [(0, { valid := true })],
                                                           aRows := [(0, { data := [0x3F80] })], banks := [(1, 0x3F800000), (32768, 7)], fill := [(0, 0, 1)],
                                                           bSlots := [(0, { tag := some (0, 0, 0, 0), consumed := false, data := [(0, 0x80), (1, 0x3F)] })] })] })] }
theorem test_meets_imma : let s := island (mkT 0 0 0 2)
    (lget {} (s.island 0 0).bankTag 0).valid = true ∧ s.claimed (0, 0) 0 (s.tcb 0 2) = true ∧ s.claimed (0, 0) 8 (s.tcb 0 2) = true ∧
    State.holdsTile (s.island 0 0) 0 = true ∧ s.taskIsland 0 (mkT 0 0 0 2) = some (0, 0) ∧ s.taskIsland 0 (mkT 0 0 0 0x78) = none ∧
    s.immaResident 0 (mkT 0 0 0 2) = true ∧ s.immaResident 0 (mkT 0 0 0 0x20002) = false := by decide +kernel
/-- One product of 1 × 1 in bfloat16 (spec/13 R278). -/
theorem test_imma_elem : (island 0).immaElem 0 2 { data := [0x3F80] } { data := [(0, 0x80), (1, 0x3F)] } 0 0 = 0x3F800000 := by decide +kernel
theorem test_island_refuses : gotF (exec (.imma 0 2) (island (mkT 0 0 0 0x78))) (fun t => ((t.tcb 0 2).status, (t.part 0).log.head)) = some (0x21, 1) ∧
    gotF (exec (.imma 0 2) (island (mkT 0 0 0 0x100))) (fun t => (t.tcb 0 2).status) = some 0x21 := by decide +kernel
theorem test_izero : gotF (exec (.izero 0 2) (island (mkT 2 0 0 0x200))) (fun t => [((t.island 0 0).banks.length), (t.island 0 0).aRows.length,
      ((t.island 0 0).fill.map (·.2.2)).foldl (· + ·) 0]) = some [1, 0, 0] := by decide +kernel
/-- IDRAIN of one row as E4M3: 64 words (spec/13 R279). -/
def draining : State := island (mkT 1 0 0 (3 + 0x4000000 * 2 ^ 32))
theorem test_meets_idrain : (State.drainWords (draining.island 0 0) (3 + 0x4000000 * 2 ^ 32)).length = 64 ∧
    (draining.drainPlaces 0 (draining.tcb 0 2) 0 (State.drainWords (draining.island 0 0) (3 + 0x4000000 * 2 ^ 32)) draining).map (fun x =>
      (decide (∀ w ∈ x.1, x.2.drainBad 0 w.1 = none ∧ w.1 % 4 = 0), decide (x.1.Pairwise (fun a b => a.1 ≠ b.1)))) = some (true, true) := by decide +kernel
theorem test_idrain : gotF (exec (.idrain 0 2) draining) (fun t => [mread t.mem 0x200000000000 4, (t.tcb 0 2).status.toNat, (t.feOf 0x2000000000FC).toNat]) =
    some [0x3800, 0, 1] := by decide +kernel

/-! Copies (spec/17 R342). -/

/-- Template 0: 65 bytes from 0x700000 to 0x4000000, or into B slot 0 of island 0 of core 0; a copy of it in channel 0. -/
def copying (slot : Bool) (x : Copy) : State :=
  { sys 0 0 (mwrite tables2 0x700000 8 0x55) with
      trips := [{ who := [1, 0, 0], nums := [] }]
      cores := [(0, { region := some 0, nTemplates := 1,
                      templates := [(0, BitVec.ofNat 256 (0x700000 + (if slot then 0x20 else 0x4000000) * 2 ^ 64 + 65 * 2 ^ 192 + (if slot then 2 ^ 227 else 0)))],
                      copies := [(0, [{ x with id := 1, token := some (0, 3) }])] })] }
theorem test_meets_copy : ((copying false {}).copyHead 0 0).map (·.id) = some 1 ∧ (copying false {}).copyHead 0 1 = none ∧
    ((copying false {}).readSpan 0 {} 0x700000 64).toOption.map (·.1) = some 0x55 ∧
    ((copying false {}).writeSpan 0 {} 0x4000000 64 5).toOption.isSome = true ∧ ((copying false {}).readSpan 0 {} 0x8000000 64).toOption.isSome = false ∧
    (copying true {}).copySlot {} ((copying true {}).tplOf 0 {}) = some (0, 0, 0) ∧ (copying true {}).slotOpen {} (0, 0, 0) = true ∧
    ((copying false {}).copyWord 0 {} ((copying false {}).tplOf 0 {})).toOption.isSome = true ∧ State.inBefore ((copying false {}).tplOf 0 {}) 65 2 = 65 := by decide +kernel
theorem test_copy_start : gotF (exec (.copyStart 0 0) (copying false {})) (fun t => (t.copies 0 0).map (fun x => (x.started, x.beats))) = some [(true, 2)] ∧
    gotF (exec (.copyStart 0 0) (copying true {})) (fun t => (lget {} (t.island 0 0).bSlots 0).writing) = some true ∧
    gotF (exec (.copyStart 0 0) (copying false { tpl := 1 })) (fun t => ((t.copies 0 0).length, t.tokenOf 0 3, (t.part 0).log.head)) = some (0, 3, 1) := by decide +kernel
theorem test_copy_beat : gotF (exec (.copyBeat 0 0) (copying false { started := true, beats := 2 })) (fun t => (mread t.mem 0x200000000000 8, t.feOf 0x200000000000,
      (t.copies 0 0).map (·.beat))) = some (0x55, 1, [1]) ∧
    gotF (exec (.copyBeat 0 0) (copying true { started := true, beats := 2, bslot := some (0, 0, 0) })) (fun t => lget 0 (lget {} (t.island 0 0).bSlots 0).data 0) = some 0x55 := by decide +kernel
theorem test_copy_end : gotF (exec (.copyEnd 0 0) (copying false { started := true, beats := 2, beat := 2 })) (fun t => ((t.copies 0 0).length, t.tokenOf 0 3)) =
      some (0, 2) ∧
    gotF (exec (.copyEnd 0 0) (copying true { started := true, beats := 2, beat := 2, bslot := some (0, 0, 0) })) (fun t => ((lget {} (t.island 0 0).bSlots 0).tag, (lget {} (t.island 0 0).bSlots 0).consumed)) =
      some (some (0, 0, 0, 0), false) ∧
    gotF (exec (.copyTask 0 2) (tasked (mkT 3 0 0 0x50002) .issued 1)) (fun t => (t.copies 0 0).map (fun x => (x.tpl, x.count, x.task))) = some [(2, 5, some 2)] := by
  decide +kernel
theorem test_fork_end : gotF (exec (.sqforkCopyEnd 0) { sys 0 0 [(0x610000, 7)] with forks := [{ src := 0x610000, dst := 0x620000, bytes := 8 }] }) (fun t =>
    (mread t.mem 0x620000 8, t.forks.length)) = some (7, 0) := by decide +kernel
theorem test_meets_fork_end : Safe { sys 0 0 [(0x610000, 7)] with forks := [{ src := 0x610000, dst := 0x620000, bytes := 8 }] } := by
  simp only [Safe]; decide +kernel

/-! Selection and gating (spec/06 R131, spec/02 R44, R48, R50, R52, spec/22 R439). -/

/-- Tile 0 with a handler at slot 2 and a continuation on frame 2, its saved set written at 0x1400. -/
def choosing (c : Cont) (g : Gate) : State :=
  { sys 0 0 [] with
      tiles := [(0, { handlers := [(2, 0x8000000000000040)], gate := g, idle := 300 })], frames := [(2, { alloc := true, cont := c, opsl := 2, aid := 6 })],
      tmem := mwrite (mwrite [] 0x1600 8 0x1234) 0x1698 8 0x200000044, now := 300 }
theorem test_meets_selection : (choosing .fresh .awake).mayTake 0 1 = true ∧ (choosing .fresh .awake).selectFor 0 1 = some (0, 2) ∧
    (choosing .runnable .awake).selectFor 0 1 = some (0, 2) ∧ (choosing .parked .awake).selectFor 0 1 = none ∧
    (choosing .fresh .clock).mayTake 0 1 = false ∧ ((choosing .runnable .awake).frame 2).inHeap = false ∧
    hTrapOp (lget 0 ((choosing .runnable .awake).tile 0).handlers 2) = false := by decide +kernel
theorem test_selection : gotF (exec (.contextSelection 0 1) (choosing .fresh .awake)) (fun t => [(t.ctx 1).frame, (t.ctx 1).ip.toNat, (t.ctx 1).aid - t.nextId]) =
      some [2, 0x40, 0] ∧
    gotF (exec (.contextSelection 0 1) (choosing .runnable .awake)) (fun t => [(t.ctx 1).aid, (t.ctx 1).ip.toNat, (lget 0 (t.ctx 1).sregs 1).toNat]) =
      some [6, 0x44, 0x1234] := by decide +kernel
/-- A continuation of the oldest wave, runnable for 256 clk, or for 44. -/
theorem test_promotion : gotF (exec (.oldestWavePromotion 0 2) (choosing .runnable .awake)) (fun t => (t.frame 2).promoted) = some (some 256) ∧
    gotF (exec (.oldestWavePromotion 0 2) { choosing .runnable .awake with now := 255 }) (fun t => (t.frame 2).promoted) = some none := by decide +kernel
theorem test_meets_gating : (choosing .runnable .clock).hasWork 0 = true ∧ (choosing .parked .clock).hasWork 0 = false ∧
    ((choosing .parked (.waking 0)).tile 0).gate = .waking 0 ∧ ((choosing .parked .awake).tile 0).wake = [] := by decide +kernel
theorem test_tile_wake : gotF (exec (.tileWake 0) (choosing .parked (.waking 0))) (fun t => (t.tile 0).gate) = some .awake ∧
    gotF (exec (.tileWake 0) (choosing .runnable .power)) (fun t => (t.tile 0).gate) = some (.powering 5400) ∧
    gotF (exec (.tileWake 0) (choosing .runnable .clock)) (fun t => (t.tile 0).gate) = some (.waking 8) ∧
    gotF (exec (.tileWake 0) (choosing .parked .clock)) (fun t => (t.tile 0).gate) = some .clock := by decide +kernel
theorem test_gating_entry : gotF (exec (.clockGatingEntry 0) { choosing .parked .awake with hub := { tileCg := 300 } }) (fun t => (t.tile 0).gate) = some .clock ∧
    gotF (exec (.clockGatingEntry 0) { choosing .parked .awake with hub := { tileCg := 301 } }) (fun t => (t.tile 0).gate) = some .awake ∧
    gotF (exec (.powerGatingEntry 0) { choosing .parked .clock with hub := { tileCg := 100, tilePg := 300 } }) (fun t => (t.tile 0).gate) = some .power ∧
    gotF (exec (.powerGatingEntry 0) { choosing .parked .clock with hub := { tileCg := 100, tilePg := 301 } }) (fun t => (t.tile 0).gate) = some .clock := by
  decide +kernel
/-- A tile of a core of no region keeps nothing. -/
theorem test_unarmed_gating : gotF (exec (.powerGatingEntry 32) { choosing .parked .clock with
      hub := { tileCg := 100, tilePg := 200 }, tiles := [(32, { gate := .clock, idle := 300, tokens := [(4, 1)], handlers := [(2, 9)] })] })
      (fun t => ((t.tile 32).tokens.length, (t.tile 32).handlers.length)) = some (0, 0) ∧
    ((choosing .parked .clock).core 1).region = none := by decide +kernel
theorem test_owc_broadcast : gotF (exec (.owcBroadcast 0 0) ((choosing .parked .awake).setColour 0 0 { owc := 7 })) (fun t => lget 0 (t.tile 0).owc 0) = some 7 := by
  decide +kernel

/-! Records on their way (spec/02 R43, R45, R48, R59, R60, spec/08 R158, spec/21 R421). -/

/-- Channel 3 ends at slot 2 of frames of handler 0, which fires on it. -/
def coming (l : List Transit) (x : Tile) : State :=
  { sys 0 0 [] with tiles := [(0, { x with chans := [(3, 0x800004000FF00000)], handlers := [(0, 0x8000400100000040)] })], transit := l }
/-- A record of I32 of colour 0, wave 0, request tag 9, with beats. -/
def record (l : List Vec) : Rec := State.mkRec 0 0 9 0 0 false 3 l
def bound : Transit := { rc := record [5], dst := .slot 0 3, cherr := (0, 3) }
theorem test_meets_records : (coming [bound] {}).atPlace 0 bound = true ∧ (coming [{ bound with left := 2 }] {}).atPlace 0 { bound with left := 2 } = false ∧
    (coming [bound] {}).awaitsReconf 0 0 0 = false ∧ rhParityOk bound.rc.hdr = true ∧ (coming [bound] {}).performed [] = true ∧
    (coming [bound, { rc := { beats := [0, 1] }, dst := .reconf 0 }] {}).awaitsReconf 0 0 0 = true := by decide +kernel
theorem test_circuit_beat : gotF (exec (.circuitBeat 0 true) (coming [{ bound with left := 2 }] {})) (fun t => t.transit.map (·.left)) = some [1] ∧
    gotF (exec (.circuitBeat 0 false) (coming [{ bound with left := 2 }] {})) (fun t => t.transit.map (·.left)) = some [2] := by decide +kernel
/-- The record lands in its slot, and the frame's handler fires. -/
theorem test_record_arrival : gotF (exec (.recordArrival 0) (coming [bound] {})) (fun t => [mread t.tmem 0x80 64, (t.frame 0).present.toNat, t.transit.length]) =
      some [5, 4, 0] ∧
    gotF (exec (.recordArrival 0) (coming [bound] {})) (fun t => (t.frame 0).cont) = some .fresh ∧
    gotF (exec (.recordArrival 0) (coming [bound] { gate := .clock })) (fun t => t.transit.length) = some 1 := by decide +kernel
theorem test_wake_buffer : gotF (exec (.wakeBufferArrival 0) (coming [bound] { gate := .clock })) (fun t => ((t.tile 0).gate, (t.tile 0).wake.length)) =
      some (.waking 8, 1) ∧
    gotF (exec (.wakeBufferArrival 0) (coming [bound] { gate := .power, wake := List.replicate 4 bound })) (fun t =>
      [(t.tile 0).wake.length, (t.colour 0 0).spill.length]) = some [4, 1] ∧
    gotF (exec (.tileWake 0) (coming [] { gate := .waking 0, wake := [bound] })) (fun t => (t.frame 0).cont) = some .fresh := by decide +kernel
/-- A control record with a word: POISON of slot 0 of tile 0 is 1, RESUME is 2. -/
def control (v : Nat) : Transit := { rc := record [BitVec.ofNat 512 v], dst := .waveCtl 0, cherr := (0, 3) }
theorem test_meets_control : (coming [control 1] {}).poisonTarget 0 0 0 0 = some { tile := 0, op := 0, col := 0, wave := 0 } ∧
    (coming [control 1] {}).poisonTarget 0 1 0 0 = none ∧ (coming [control 1] {}).atPlace 0 (control 1) = true ∧ (control 2).rc.beats.headD 0 = 2 := by decide +kernel
theorem test_wave_control : gotF (exec (.waveControlRecord 0) (coming [control 1] {})) (fun t => (t.region 0).marks.map (fun m => (m.tile, m.op))) = some [(0, 0)] ∧
    gotF (exec (.waveControlRecord 0) ((coming [control 2] {}).setRegion 0 { (coming [] {}).region 0 with marks := [{ op := 1 }, { op := 1, wave := 3 }] }))
      (fun t => (t.region 0).marks.map (·.wave)) = some [3] ∧
    gotF (exec (.waveControlRecord 0) (coming [control 3] {})) (fun t => lget 0 (t.tile 0).cherr 3) = some 1 := by decide +kernel
/-- A reconfiguration of colour 0's Q to 3 from wave 0 on; one without entries. -/
def change (l : List Vec) : Transit := { rc := record ([0, 1] ++ l), dst := .reconf 0 }
theorem test_meets_reconfiguration : (coming [change [2 + 0x30000000D00000000]] {}).entryOk 0 1 (2 + 0x30000000D00000000) = true ∧
    (coming [] {}).entryOk 0 1 (2 + 0x30000000500000000) = true ∧ (coming [] {}).entryOk 0 0 (2 + 0x30000000D00000000) = false ∧
    (coming [] {}).entryOk 0 1 (1 + 0x30000000D00000000) = false := by decide +kernel
theorem test_reconfiguration : gotF (exec (.reconfigurationRecord 0) (coming [change [2 + 0x30000000D00000000]] {})) (fun t =>
      [(t.region 0).reconfs.length, kQ (t.colourEntry 0 0 0), (t.colour 0 0).q, (t.part 0).log.head.toNat]) = some [1, 3, 3, 0] ∧
    gotF (exec (.reconfigurationRecord 0) (coming [change []] {})) (fun t => [(t.region 0).reconfs.length, (t.part 0).log.head.toNat]) = some [0, 1] := by
  decide +kernel
def spilling (l : List Spill) : State := (coming [] {}).setColour 0 0 { spill := l }
theorem test_meets_replay : (spilling [{ tr := bound }]).landable 0 { tr := bound } = true ∧ (spilling []).landable 0 { tr := bound, frozen := true } = false := by
  decide +kernel
theorem test_spill_replay : gotF (exec (.spillReplay 0 0 0) (spilling [{ tr := bound }])) (fun t => ((t.frame 0).cont, (t.colour 0 0).spill.length)) = some (.fresh, 0) ∧
    gotF (exec (.spillReplay 0 0 0) (spilling [{ tr := { bound with dst := .op 0 1 3 } }])) (fun t => (t.transit.length, (t.colour 0 0).spill.length)) = some (1, 0) ∧
    gotF (exec (.spillReplay 0 0 0) (spilling [{ tr := bound, frozen := true }])) (fun t => (t.colour 0 0).spill.length) = some 1 := by decide +kernel

/-! Fixed operators (spec/02 R26, spec/06 R130, spec/13 R276, spec/22 R441, R442). -/

/-- An entry: kind, the channels of ports 0 to 3, its parameters P0, P1, P2. -/
def opE (kind ports p0 p1 p2 : Nat) : BitVec 256 := BitVec.ofNat 256 (kind + ports * 2 ^ 32 + p0 * 2 ^ 64 + p1 * 2 ^ 96 + p2 * 2 ^ 128)
/-- Operator 1 of the region is the entry; channel 4 ends at a handler, channel 3 carries one record per wave; a record for it has come on channel ch. -/
def atOp (e : BitVec 256) (x : Rec) (ch : Nat) (f : Region → Region) : State :=
  let s := sys 0 0 (mwrite (mwrite tables2 0x700000 8 0x55) 0x200000000000 4 5)
  { s with tiles := [(0, { chans := [(3, 0x040000020FF00000), (4, 0x800004000FF00000)] })], transit := [{ rc := x, dst := .op 0 1 ch, cherr := (0, 3) }],
           regions := [(0, f { s.region 0 with fixed := [(1, e)] })] }
theorem test_meets_operator : (atOp (opE 8 0xFF040503 0 0 0) (record [7]) 3 id).destOf 0 4 0 = some (.slot 0 4) ∧
    opOut (opE 8 0xFF040503 0 0 0) 0 = some 4 ∧ opOut (opE 5 0xFFFFFF03 0 0 0) 0 = none ∧
    ((atOp (opE 8 0xFF040503 0 0 0) (record [7]) 3 id).transit[0]?).map (fun x => (atOp (opE 8 0xFF040503 0 0 0) (record [7]) 3 id).atPlace 0 x) = some true ∧
    kArmed ((atOp 8 (record [7]) 3 id).colourEntry 0 0 0) = true ∧ waveDiff 0 ((atOp 8 (record [7]) 3 id).colour 0 0).owc = 0 ∧
    (atOp 8 (record [7]) 3 id).marked 0 true 0 1 0 0 = false ∧ rhPoison (record [7]).hdr = false ∧ (atOp 8 (record [7]) 3 id).awaitsReconf 0 0 0 = false := by
  decide +kernel
/-- What leaves an operator: destination channel, kind, wave, first lane. -/
def left (o : Outcome) : Option (List (List Nat)) :=
  gotF o (fun t => t.transit.map (fun y => [(rhChan y.rc.hdr).toNat, (rhKind y.rc.hdr).toNat, (rhWave y.rc.hdr).toNat, State.lane0 y.rc 0]))
theorem test_merge_boundary : left (exec (.mergeRecord 0) (atOp (opE 8 0xFF040503 0 0 0) (record [7]) 3 id)) = some [[4, 0, 0, 7]] ∧
    left (exec (.boundaryNodeRecord 0) (atOp (opE 5 0xFFFF0403 0 0 0) (record [7]) 3 id)) = some [[4, 0, 0, 7]] ∧
    left (exec (.aRowRecord 0) (atOp (opE 11 0xFFFFFF03 0 0 0) (record [7]) 3 id)) = some [] := by decide +kernel
/-- Damaged, stale, held, poisoned, and waiting behind a spilled record: dealt with first. -/
theorem test_dealt_with_first : gotF (exec (.mergeRecord 0) (atOp (opE 8 0xFF040503 0 0 0) { record [7] with hdr := (record [7]).hdr ^^^ 1 } 3 id)) (fun t =>
      [(t.part 0).log.head.toNat, lget 0 (t.tile 0).cherr 3]) = some [1, 1] ∧
    gotF (exec (.mergeRecord 0) ((atOp (opE 8 0xFF040503 0 0 0) (record [7]) 3 id).setColour 0 0 { owc := 1 })) (fun t => (t.colour 0 0).stalew) = some 1 ∧
    gotF (exec (.mergeRecord 0) (atOp (opE 8 0xFF040503 0 0 0) (record [7]) 3 (fun r => { r with marks := [{ fixed := true, op := 1 }] }))) (fun t =>
      (t.colour 0 0).spill.map (·.frozen)) = some [true] ∧
    gotF (exec (.mergeRecord 0) (atOp (opE 8 0xFF040503 0 0 0) (State.mkRec 0 0 9 0 0 true 3 [0]) 3 id)) (fun t =>
      [(t.region 0).marks.length, (t.colour 0 0).spill.length, t.transit.length]) = some [1, 1, 1] ∧
    gotF (exec (.mergeRecord 0) ((atOp (opE 8 0xFF040503 0 0 0) (record [7]) 3 id).setColour 0 0 { spill := [{ tr := { rc := record [1], dst := .op 0 1 3 } }] }))
      (fun t => (t.colour 0 0).spill.map (·.frozen)) = some [false, false] := by decide +kernel
/-- One admission of a span of two waves. -/
def spanning (r : Region) : Region := { r with logws := 1, adms := [{ launch := 3, rtag := 9 }] }
theorem test_wave_advance : left (exec (.waveAdvanceRecord 0) (atOp (opE 6 0xFFFF0403 0 0 0) (record [7]) 3 spanning)) = some [[4, 0, 1, 7]] ∧
    gotF (exec (.waveAdvanceRecord 0) (atOp (opE 6 0xFFFF0403 0 0 0) (record [7]) 3 id)) (fun t => [(t.region 0).marks.length, (t.part 0).log.head.toNat]) =
      some [1, 1] := by decide +kernel
theorem test_meets_advance : ((atOp (opE 6 0xFFFF0403 0 0 0) (record [7]) 3 spanning).admOf 0 0 0).map (fun a => (a.wave, (atOp 0 (record []) 3 spanning).spanOf 0 a)) =
      some (0, 2) ∧ (atOp 0 (record []) 3 id).admOf 0 0 0 = none ∧ oPort (opE 7 0x4FF0503 0 0 0) 0 ≠ oPort (opE 7 0x4FF0503 0 0 0) 1 := by decide +kernel
/-- A steer operator: predicate and data wait for each other; a predicate that is not 0 selects the first way out (spec/02 R26). -/
theorem test_steer : gotF (exec (.steerRecord 0) (atOp (opE 7 0xFF040503 0 0 0) (record [7]) 5 id)) (fun t => (t.region 0).nodes.map (fun x => x.predQ.map (State.lane0 ·.rc 0))) = some [[7]] ∧
    gotF (exec (.steerRecord 0) (atOp (opE 7 0xFF040503 0 0 0) (record [7]) 3 id)) (fun t => (t.region 0).nodes.map (·.dataQ.length)) = some [1] ∧
    left (exec (.steerRecord 0) (atOp (opE 7 0xFF040503 0 0 0) (record [7]) 3 (fun r => { r with nodes := [{ op := 1, predQ := [{ rc := record [1] }] }] }))) = some [[4, 0, 0, 7]] ∧
    left (exec (.steerRecord 0) (atOp (opE 7 0xFF040503 0 0 0) (record [7]) 3 (fun r => { r with nodes := [{ op := 1, predQ := [{ rc := record [0] }] }] }))) = some [] := by
  decide +kernel
/-- A counter node of two records to a K-step and one K-step to a row (spec/02 R26). -/
theorem test_counter : left (exec (.counterNodeRecord 0) (atOp (opE 3 0x04FFFF03 2 1 0) (record [7]) 3 (fun r => { r with nodes := [{ op := 1, recs := 1, row := 6 }] }))) =
      some [[4, 2, 0, 2]] ∧
    gotF (exec (.counterNodeRecord 0) (atOp (opE 3 0xFF04FF03 2 1 0) (record [7]) 3 id)) (fun t => (t.region 0).nodes.map (·.recs)) = some [1] ∧
    left (exec (.counterNodeRecord 0) (atOp (opE 3 0xFF04FF03 1 2 0) (record [7]) 3 id)) = some [[4, 2, 0, 1]] ∧
    gotF (exec (.counterNodeRecord 0) (atOp (opE 3 0xFF04FF03 1 2 0) (State.mkRec 0 0 9 0 1 false 3 [8]) 3 id)) (fun t =>
      (t.region 0).bounds.map (·.ks)) = some [8] := by decide +kernel
/-- A memory operator reads a beat at 0x700000, or writes the record's second beat there; an address without a translation faults (spec/02 R26). -/
theorem test_memory_operator : gotF (exec (.memoryOperatorRecord 0) (cameFor [3, 0, 1, 3] (atOp (opE 4 0xFFFF0403 0 64 0x6FFFC0) (record [1]) 3 id))) (fun t =>
      (t.region 0).outs.map (fun o => (o.rc.beats.map (·.toNat)))) = some [[0x55]] ∧
    gotF (exec (.memoryOperatorRecord 0) (cameFor [3, 0, 1, 3] (atOp (opE 4 0xFFFF0403 1 64 0x700000) (record [1, 0x99]) 3 id))) (fun t =>
      [mread t.mem 0x700040 8, (t.region 0).outs.length]) = some [0x99, 1] ∧
    gotF (exec (.memoryOperatorRecord 0) (cameFor [3, 0, 1, 3] (atOp (opE 4 0xFFFF0403 0 64 0x8000000) (record [1]) 3 id))) (fun t =>
      [(t.region 0).marks.length, (t.region 0).outs.length]) = some [1, 0] := by decide +kernel
theorem test_memory_result : left (exec (.memoryOperatorResult 0 0) (atOp (opE 4 0xFFFF0403 0 0 0) (record [1]) 3 (fun r => { r with outs := [{ op := 1, rc := record [6] }] }))) =
      some [[3, 0, 0, 1], [4, 0, 0, 6]] ∧
    gotF (exec (.memoryOperatorResult 0 1) (atOp 4 (record [1]) 3 (fun r => { r with outs := [{ op := 1 }, { op := 1 }] }))) (fun t => (t.region 0).outs.length) = some 2 := by
  decide +kernel
/-- A remote-scratchpad node: a read waits for FULL words (spec/02 R26). -/
theorem test_remote_scratchpad : gotF (exec (.remoteScratchpadRecord 0) (atOp (opE 13 0xFFFF0403 1 64 0) (record [1, 0x99]) 3 id)) (fun t =>
      [mread t.mem 0x200000000040 8, (t.feOf 0x20000000007C).toNat, (t.region 0).outs.length]) = some [0x99, 1, 1] ∧
    gotF (exec (.remoteScratchpadRecord 0) (atOp (opE 13 0xFFFF0403 0 64 0) (record [0]) 3 id)) (fun t => (t.region 0).outs.length) = some 0 ∧
    gotF (exec (.remoteScratchpadRecord 0) ((atOp (opE 13 0xFFFF0403 0 64 0) (record [0]) 3 id).setWords 0x200000000000 64 1)) (fun t =>
      (t.region 0).outs.map (fun o => o.rc.beats.map (·.toNat))) = some [[5]] ∧
    gotF (exec (.remoteScratchpadRecord 0) (atOp (opE 13 0xFFFF0403 2 64 0) (record [0]) 3 id)) (fun t => (t.region 0).marks.length) = some 1 := by decide +kernel
theorem test_meets_remote : ((atOp (opE 13 0xFFFF0403 0 64 0) (record [0]) 3 id).region 0).coreAt 0 = some 0 ∧
    (atOp (opE 13 0xFFFF0403 0 64 0) (record [0]) 3 id).remoteBad 0 0 0x200000000000 64 true = none ∧
    (atOp (opE 13 0xFFFF0403 0 64 0) (record [0]) 3 id).remoteBad 0 0 0x200000800000 64 true = some Cause.perm ∧
    (atOp (opE 13 0xFFFF0403 0 64 0) (record [0]) 3 id).allWords 0x200000000000 64 1 = false := by decide +kernel
/-- A conversion node: I16 to I32 does not fit one beat; I32 to I16 does; CB2 to I32 has no conversion (spec/02 R26, R49). -/
def converting (fmt : BitVec 3) (dst : BitVec 64) : State :=
  let s := atOp (opE 9 0xFFFFFFFF 0 0 0) (State.mkRec 0 0 9 fmt 0 false 4 [7]) 4 id
  { s with tiles := [(0, { chans := [(4, dst)] })] }
theorem test_meets_conversion : ((converting 0 0x802004000FF00000).convElems 0 (opE 9 0xFFFFFFFF 0 0 0) (State.mkRec 0 0 9 0 0 false 4 [7]) 4).map (fun x =>
      ((packBeats x.1.width (x.2.length + 1) x.2).length, cFmt 0x802004000FF00000)) = some (1, 4) ∧
    (converting 7 0x800004000FF00000).convElems 0 (opE 9 0xFFFFFFFF 0 0 0) (State.mkRec 0 0 9 7 0 false 4 [7]) 0 = none := by decide +kernel
theorem test_conversion : left (exec (.conversionNodeRecord 0) (converting 0 0x802004000FF00000)) = some [[4, 0, 0, 7]] ∧
    gotF (exec (.conversionNodeRecord 0) (converting 4 0x800004000FF00000)) (fun t => [(t.region 0).marks.length, (t.part 0).log.head.toNat]) = some [1, 1] ∧
    gotF (exec (.conversionNodeRecord 0) (converting 7 0x800004000FF00000)) (fun t => (t.region 0).marks.length) = some 1 := by decide +kernel
/-- An island node whose island 0 fills slot 1 at row 5, at row 128, or not at all (spec/13 R276). -/
def rows (l : SMap (Nat × Nat)) (n : Nat) : State :=
  let s := atOp (opE 10 0xFFFFFF03 1 0 0) (record (List.replicate n 6)) 3 id
  { s with cores := [(0, { s.core 0 with islands := [(0, { fill := l })] })] }
theorem test_a_row : gotF (exec (.aRowRecord 0) (rows [(0, 1, 5)] 4)) (fun t => (lget? (t.island 0 0).aRows 133).map (fun x => (x.rtag.toNat, x.data.length))) =
      some (some (9, 4)) ∧
    gotF (exec (.aRowRecord 0) (rows [(0, 1, 5)] 4)) (fun t => (lget? (t.island 0 0).fill 0)) = some (some (1, 6)) ∧
    gotF (exec (.aRowRecord 0) (rows [(0, 1, 128)] 4)) (fun t => (t.region 0).marks.length) = some 1 ∧
    gotF (exec (.aRowRecord 0) (rows [] 4)) (fun t => (t.colour 0 0).spill.length) = some 1 := by decide +kernel
theorem test_meets_a_row : (rows [(0, 1, 5)] 4).islandsOf 0 1 = [(0, 0)] ∧ ((rows [(0, 1, 5)] 4).islandsOf 0 1).Nodup := by decide +kernel
/-- An exit port of colour 0: one record of one beat to an admission of launch 3, whose output lies at 0x700000 (spec/22 R442). -/
def leaving (r : Region) : Region := { r with launches := [{ id := 3, outptr := 0x700000, outstride := 64 }], adms := [{ launch := 3, rtag := 9 }] }
theorem test_exit_port : gotF (exec (.exitPortRecord 0) (cameFor [3, 0, 1, 3] (atOp (opE 2 0xFFFFFF03 0 0 0) (record [7]) 3 leaving))) (fun t =>
      (mread t.mem 0x700000 8, (t.region 0).adms.map (fun a => (lget 0 a.wrote 3, a.bytes)))) = some (7, [(1, 64)]) := by decide +kernel
theorem test_meets_exit : let s := atOp (opE 2 0xFFFFFF03 0 0 0) (record [7]) 3 leaving
    (s.admOf 0 0 0).map (·.launch) = some 3 ∧ cRpw (s.chanOf 0 3 0 0) = 1 ∧ cSkipz (s.chanOf 0 3 0 0) = false ∧
    (State.writeBeats 0 0 0 0 0 9 0x700000 [7] s).2 = none ∧ (s.outputs 0 0 0).map (·.1) = [3] := by decide +kernel
/-- To a peer: a message of class 5; peer 0 of the list at guest physical 0x700000 is device 1, port 2. -/
def peering : State :=
  let s := atOp (opE 2 0xFFFFFF03 0 0 0) (record [7]) 3 (fun r => { r with colours := [(0, BitVec.ofNat 256 (0x20000000D + 2 ^ 160 + 0x700000 * 2 ^ 192))] })
  { s with mem := mwrite s.mem 0x700000 16 (2 ^ 64 + 4 * 2 ^ 96), transit := s.transit.map (fun x => { x with peer := some 0 }) }
theorem test_exit_peer : peering.peerAt (peering.colourEntry 0 0 0) 0 = some (1, 4, 0, 0) ∧
    gotF (exec (.exitPortRecord 0) peering) (fun t => (t.fab 0).msgs.map (fun m => (m.cls, m.peer, m.payload.map (·.toNat)))) = some [(5, 1, [7])] := by decide +kernel
/-- Once every channel's records are written the admission leaves (spec/24 R444). -/
theorem test_exit_leave : gotF (exec (.exitAdmissionLeave 0 0) (atOp (opE 2 0xFFFFFF03 0 0 0) (record [7]) 3 (fun r => { leaving r with adms := [{ launch := 3, wrote := [(3, 1)] }] })))
      (fun t => (t.region 0).adms.map (·.left)) = some [true] ∧
    gotF (exec (.exitAdmissionLeave 0 0) (atOp (opE 2 0xFFFFFF03 0 0 0) (record [7]) 3 leaving)) (fun t => (t.region 0).adms.map (·.left)) = some [false] := by
  decide +kernel
/-- An entry port that feeds channel 4 with one record of one beat per wave; a launch of two admissions whose input lies at 0x700000 (spec/06 R130). -/
def admitting (e : BitVec 256) : State :=
  let s := atOp e (record []) 4 (fun r => { r with colours := [(0, 0x800020000000D)], launches := [{ id := 3, rtag := 9, admits := 2, inptr := 0x700000 }] })
  { s.setColour 0 0 { q := 2, nxw := 6 } with tiles := [(0, { chans := [(4, 0x800004020FF00000)] })], transit := [] }
theorem test_meets_admission : ((admitting (opE 1 0xFFFFFF04 0 0 0)).nextLaunch 0 0).map (·.id) = some 3 ∧ (admitting (opE 1 0xFFFFFF04 0 0 0)).portsOpen 0 0 = true ∧
    (admitting (opE 1 0xFFFFFF04 0 0 0)).inputs 0 0 6 = [(0, 4, 1)] ∧ (admitting 0).inputs 0 0 6 = [] ∧ (admitting 0).regionRuns 0 = true ∧
    (admitting 0).isFrozen 0 0 = false ∧ ((State.readBeats 0 0 0 0 6 1 0x700000 [] (admitting 0)).toOption).map (fun x => x.1.map (·.toNat)) = some [0x55] ∧
    (admitting 0).destOf 0 4 0 = some (.slot 0 4) := by decide +kernel
theorem test_admission : left (exec (.admission 0 0) (cameFor [2, 0, 0] (admitting (opE 1 0xFFFFFF04 0 0 0)))) = some [[4, 0, 6, 0x55]] ∧
    gotF (exec (.admission 0 0) (admitting 0)) (fun t => [(t.colour 0 0).nxw.toNat, (t.colour 0 0).livea, (t.region 0).adms.length]) = some [7, 1, 1] ∧
    gotF (exec (.admission 0 0) ((admitting 0).setColour 0 0 { q := 2, livea := 2 })) (fun t => (t.region 0).adms.length) = some 0 := by decide +kernel

/-- spec/12 R255, R256: the example of a codebook entry, 2^1 and log2 1. -/
theorem test_vcbd : gotL (exec (.vcbd p0 (.reg 2) (.reg 0) 0) { lanes2 16 [0x0507] [] with regions := [(0, { codebook := [(5, 0x76543210)] })] }) 2 16 0 = some 0xBE80 ∧
    gotL (exec (.vcbd p0 (.reg 2) (.reg 0) 0) { lanes2 16 [0x0507] [] with regions := [(0, { codebook := [(5, 0x76543210)] })] }) 2 16 7 = some 0x4070 := by
  decide +kernel
theorem test_vexp2_vlog2 : gotL (exec (.vexp2 p0 .f32 (.reg 2) (.reg 0) mk0 .none) (lanes2 32 [0x3F800000] [])) 2 32 0 = some 0x40000000 ∧
    gotL (exec (.vlog2 p0 .f32 (.reg 2) (.reg 0) mk0 .none) (lanes2 32 [0x3F800000] [])) 2 32 0 = some 0 := by decide +kernel

/-! States that meet the longer hypotheses of the statements. -/

theorem mread_zero (n : Nat) (m : List Host.Cell) (a : Nat) (h : ∀ e ∈ m, e.1 < a ∨ a + n ≤ e.1) : mread m a n = 0 := by
  have get : ∀ (l : List Host.Cell) b, (∀ e ∈ l, e.1 ≠ b) → mget l b = 0 := by
    intro l b hl
    have : lget? l b = none := by
      induction l with
      | nil => rfl
      | cons x l ih =>
        have hx := hl x (by simp)
        have hi := ih (fun e he => hl e (by simp [he]))
        simp [lget?, hx, hi]
    simp [mget, lget, this]
  induction n generalizing a with
  | zero => rfl
  | succ n ih =>
    simp only [mread]
    rw [get m a (fun e he => by have := h e he; omega), ih (a + 1) (fun e he => by have := h e he; omega)]
    rfl

theorem mread_congr (n : Nat) (m m' : List Host.Cell) (a : Nat) (h : ∀ x, a ≤ x → x < a + n → mget m x = mget m' x) : mread m a n = mread m' a n := by
  induction n generalizing a with
  | zero => rfl
  | succ n ih =>
    simp only [mread]
    rw [h a (by omega) (by omega), ih (a + 1) (fun x h1 h2 => h x (by omega) (by omega))]

/-- `seqMem` with A and D in the leaf of its stage 2 and in its segment's entry: a use leaves it as it is. -/
def seqMem2 : List Host.Cell := mput (mput seqMem 0x402000 0xC3) 0x600000 0xE3
/-- The stage 2 of `seqMem2`: one leaf of 64 GiB from 0, whatever else a memory holds outside its two tables. -/
theorem seqMem_stage2 (t : State) (hv : t.vmids = (sys 0 4 seqMem2).vmids) (hf : ∀ y, t.forward y = y)
    (hm : ∀ y, 0x400000 ≤ y → y < 0x404000 → mget t.mem y = mget seqMem2 y) (g : Nat) :
    t.gpaPa 0 g = if g < 2 ^ 36 ∧ placeOf g ≠ .hole then some g else none := by
  have rd : ∀ a, 0x400000 ≤ a → a + 8 ≤ 0x404000 → t.rmem a 8 = mread seqMem2 a 8 := by
    intro a h1 h2
    unfold State.rmem
    rw [hf]
    exact mread_congr 8 _ _ a (fun x h3 h4 => hm x (by omega) (by omega))
  have e0 : ∀ a, a = 0x400000 + 8 * (bits g 46 10) → t.rmem a 8 = if bits g 46 10 = 0 then 0x402001 else 0 := by
    intro a ha
    have hb : bits g 46 10 < 1024 := Nat.mod_lt _ (by decide)
    rw [rd a (by omega) (by omega)]
    split
    · next h => rw [ha, h]; decide +kernel
    · refine mread_zero 8 _ _ (fun e he => ?_)
      have : e.1 < 0x400008 ∨ 0x402000 ≤ e.1 := by revert e; decide +kernel
      omega
  have e1 : ∀ a, a = 0x402000 + 8 * (bits g 36 10) → t.rmem a 8 = if bits g 36 10 = 0 then 0xC3 else 0 := by
    intro a ha
    have hb : bits g 36 10 < 1024 := Nat.mod_lt _ (by decide)
    rw [rd a (by omega) (by omega)]
    split
    · next h => rw [ha, h]; decide +kernel
    · refine mread_zero 8 _ _ (fun e he => ?_)
      have : e.1 < 0x402008 ∨ 0x404000 ≤ e.1 := by revert e; decide +kernel
      omega
  have hvm : t.vmEntry 0 = 0x404000_0000000000400001 := by unfold State.vmEntry; rw [hv]; decide +kernel
  have b46 : bits g 46 10 = g / 2 ^ 46 % 1024 := by simp [bits, Nat.shiftRight_eq_div_pow]
  have b36 : bits g 36 10 = g / 2 ^ 36 % 1024 := by simp [bits, Nat.shiftRight_eq_div_pow]
  unfold State.gpaPa State.stage2
  rw [hvm]
  by_cases hg : 2 ^ 52 ≤ g
  · have h52 : 4503599627370496 ≤ g := by omega
    have h36 : ¬ g < 68719476736 := by omega
    simp [h52, h36, Except.toOption]
  · have r0 : bits 0x404000_0000000000400001 13 51 * 0x2000 = 0x400000 := by decide
    have v0 : bit 0x404000_0000000000400001 0 = true := by decide
    have step0 : ∀ fuel, t.walk2From (fuel + 1) 0 0x400000 g = if g < 2 ^ 46 then t.walk2From fuel 1 0x402000 g else none := by
      intro fuel
      have e := e0 _ rfl
      simp only [State.walk2From, Nat.mul_zero, Nat.sub_zero]
      by_cases h : g < 2 ^ 46
      · have z : bits g 46 10 = 0 := by rw [b46]; omega
        rw [if_pos z] at e
        rw [e, z, if_pos h]
        rfl
      · have z : bits g 46 10 ≠ 0 := by rw [b46]; omega
        rw [if_neg z] at e
        rw [e, if_neg h]
        rfl
    have step1 : ∀ fuel, g < 2 ^ 46 → t.walk2From (fuel + 1) 1 0x402000 g =
        if g < 2 ^ 36 then some { entry := 0xC3, entryPa := 0x402000, size := 2 ^ 36 } else none := by
      intro fuel h46
      have e := e1 _ rfl
      simp only [State.walk2From, show 46 - 10 * 1 = 36 from rfl]
      by_cases h : g < 2 ^ 36
      · have z : bits g 36 10 = 0 := by rw [b36]; omega
        rw [if_pos z] at e
        rw [e, z, if_pos h]
        rfl
      · have z : bits g 36 10 ≠ 0 := by rw [b36]; omega
        rw [if_neg z] at e
        rw [e, if_neg h]
        rfl
    have w : t.walk2From 4 0 0x400000 g = if g < 2 ^ 36 then some { entry := 0xC3, entryPa := 0x402000, size := 2 ^ 36 } else none := by
      rw [step0 3]
      by_cases h : g < 2 ^ 46
      · rw [if_pos h, step1 2 h]
      · rw [if_neg h, if_neg (by omega)]
    rw [r0, v0, w]
    by_cases h36 : g < 2 ^ 36
    · rw [if_pos h36]
      have hp : pteOut 0xC3 + g % 2 ^ 36 = g := by rw [Nat.mod_eq_of_lt h36, show pteOut 0xC3 = 0 by decide, Nat.zero_add]
      have h36' : g < 68719476736 := by omega
      have h52 : ¬ 4503599627370496 ≤ g := by omega
      simp only [hp]
      by_cases ho : placeOf g = .hole <;> simp [ho, h36', h52, Except.toOption]
    · have h36' : ¬ g < 68719476736 := by omega
      have h52 : ¬ 4503599627370496 ≤ g := by omega
      simp [h36', h52, Except.toOption]

theorem seqMem_place (g : Nat) (h : g < 2 ^ 36) : placeOf g ≠ .hole := by
  unfold placeOf
  simp [show g < 549755813888 by omega]


/-- Its only leaf, as seen from a physical address. -/
theorem seqMem_gpaOf (t : State) (hv : t.vmids = (sys 0 4 seqMem2).vmids) (hf : ∀ y, t.forward y = y)
    (hm : ∀ y, 0x400000 ≤ y → y < 0x404000 → mget t.mem y = mget seqMem2 y) (g : Nat) :
    t.gpaOf 0 g = if g < 2 ^ 36 then some g else none := by
  have rd : ∀ a, 0x400000 ≤ a → a + 8 ≤ 0x404000 → t.rmem a 8 = mread seqMem2 a 8 := by
    intro a h1 h2
    unfold State.rmem
    rw [hf]
    exact mread_congr 8 _ _ a (fun x h3 h4 => hm x (by omega) (by omega))
  have e0 : ∀ i, i < 1024 → t.rmem (0x400000 + 8 * i) 8 = if i = 0 then 0x402001 else 0 := by
    intro i hi
    rw [rd _ (by omega) (by omega)]
    split
    · next h => rw [h]; decide +kernel
    · refine mread_zero 8 _ _ (fun e he => ?_)
      have : e.1 < 0x400008 ∨ 0x402000 ≤ e.1 := by revert e; decide +kernel
      omega
  have e1 : ∀ i, i < 1024 → t.rmem (0x402000 + 8 * i) 8 = if i = 0 then 0xC3 else 0 := by
    intro i hi
    rw [rd _ (by omega) (by omega)]
    split
    · next h => rw [h]; decide +kernel
    · refine mread_zero 8 _ _ (fun e he => ?_)
      have : e.1 < 0x402008 ∨ 0x404000 ≤ e.1 := by revert e; decide +kernel
      omega
  have idx : ∀ a i, i ∈ t.tableIdx a → i < 1024 := by
    intro a i hi
    simp only [State.tableIdx, hf, List.mem_eraseDups, List.mem_map, List.mem_filter] at hi
    obtain ⟨e, ⟨-, he⟩, rfl⟩ := hi
    simp only [Bool.and_eq_true, decide_eq_true_eq] at he
    omega
  have zero : ∀ a, 0x400000 ≤ a → a < 0x404000 → mget seqMem2 a ≠ 0 → 0 ∈ t.tableIdx a := by
    intro a h1 h2 h
    have hl : ∃ e ∈ t.mem, e.1 = a := by
      have h3 : mget t.mem a ≠ 0 := by rw [hm a h1 h2]; exact h
      have : ∀ l : List Host.Cell, mget l a ≠ 0 → ∃ e ∈ l, e.1 = a := by
        intro l
        induction l with
        | nil => intro hn; exact absurd rfl hn
        | cons x l ih =>
          intro hn
          by_cases hx : x.1 = a
          · exact ⟨x, List.mem_cons_self, hx⟩
          · obtain ⟨e, he, hea⟩ := ih (by simpa [mget, lget, lget?, hx] using hn)
            exact ⟨e, List.mem_cons_of_mem _ he, hea⟩
      exact this t.mem h3
    obtain ⟨e, he, rfl⟩ := hl
    simp only [State.tableIdx, hf, List.mem_eraseDups, List.mem_map, List.mem_filter]
    exact ⟨e, ⟨he, by simp⟩, by simp⟩
  have two : ∀ x, x ∈ t.leaves2From 3 1 0x402000 0 ↔ x = (0, 0, 2 ^ 36) := by
    intro x
    rw [State.leaves2From, List.mem_flatMap]
    have body : ∀ i, i < 1024 → (x ∈ (let e := t.rmem (0x402000 + 8 * i) 8
        let g := 0 + i * pageSize 1
        if !pteV e || !pteOk true e || (1 == 0 && decide (64 ≤ i)) then []
        else if pteLeaf e then (if 1 == 0 || !leafAligned e (pageSize 1) then [] else [(g, pteOut e, pageSize 1)])
        else if 1 == 3 then [] else t.leaves2From 2 (1 + 1) (pteNext e) g) ↔ i = 0 ∧ x = (0, 0, 2 ^ 36)) := by
      intro i hi
      simp only [e1 i hi]
      by_cases h : i = 0
      · rw [h, if_pos rfl]
        rw [show pteV 0xC3 = true by decide, show pteOk true 0xC3 = true by decide, show pteLeaf 0xC3 = true by decide,
          show leafAligned 0xC3 (pageSize 1) = true by decide, show pteOut 0xC3 = 0 by decide, show pageSize 1 = 2 ^ 36 by decide]
        simp
      · rw [if_neg h, show pteV 0 = false by decide]
        simp [h]
    constructor
    · rintro ⟨i, hi, hx⟩
      exact ((body i (idx _ i hi)).mp hx).2
    · intro hx
      exact ⟨0, zero 0x402000 (by omega) (by omega) (by decide +kernel), (body 0 (by omega)).mpr ⟨rfl, hx⟩⟩
  have all : ∀ x, x ∈ t.leaves2 0 ↔ x = (0, 0, 2 ^ 36) := by
    intro x
    have hvm : t.vmEntry 0 = 0x404000_0000000000400001 := by unfold State.vmEntry; rw [hv]; decide +kernel
    unfold State.leaves2
    rw [hvm, show bit 0x404000_0000000000400001 0 = true by decide, if_pos rfl, show bits 0x404000_0000000000400001 13 51 * 0x2000 = 0x400000 by decide]
    rw [State.leaves2From, List.mem_flatMap]
    have body : ∀ i, i < 1024 → (x ∈ (let e := t.rmem (0x400000 + 8 * i) 8
        let g := 0 + i * pageSize 0
        if !pteV e || !pteOk true e || (0 == 0 && decide (64 ≤ i)) then []
        else if pteLeaf e then (if 0 == 0 || !leafAligned e (pageSize 0) then [] else [(g, pteOut e, pageSize 0)])
        else if 0 == 3 then [] else t.leaves2From 3 (0 + 1) (pteNext e) g) ↔ i = 0 ∧ x = (0, 0, 2 ^ 36)) := by
      intro i hi
      simp only [e0 i hi]
      by_cases h : i = 0
      · rw [h, if_pos rfl]
        rw [show pteV 0x402001 = true by decide, show pteOk true 0x402001 = true by decide, show pteLeaf 0x402001 = false by decide,
          show pteNext 0x402001 = 0x402000 by decide]
        simpa using two x
      · rw [if_neg h, show pteV 0 = false by decide]
        simp [h]
    constructor
    · rintro ⟨i, hi, hx⟩
      exact ((body i (idx _ i hi)).mp hx).2
    · intro hx
      exact ⟨0, zero 0x400000 (by omega) (by omega) (by decide +kernel), (body 0 (by omega)).mpr ⟨rfl, hx⟩⟩
  have find : ∀ l : List (Nat × Nat × Nat), (∀ x ∈ l, x = (0, 0, 2 ^ 36)) → l ≠ [] →
      (l.find? (fun l => l.2.1 ≤ g && g < l.2.1 + l.2.2)).map (fun l => l.1 + (g - l.2.1)) = if g < 2 ^ 36 then some g else none := by
    intro l
    cases l with
    | nil => intro _ h; exact absurd rfl h
    | cons x l =>
      intro h _
      have hx := h x List.mem_cons_self
      subst hx
      have hb : (decide ((0 : Nat) ≤ g) && decide (g < 0 + 2 ^ 36)) = true ↔ g < 2 ^ 36 := by
        rw [Bool.and_eq_true, decide_eq_true_eq, decide_eq_true_eq, Nat.zero_add]
        exact ⟨fun h => h.2, fun h => ⟨Nat.zero_le g, h⟩⟩
      by_cases hg : g < 2 ^ 36
      · rw [if_pos hg, List.find?_cons_of_pos (p := fun l : Nat × Nat × Nat => decide (l.2.1 ≤ g) && decide (g < l.2.1 + l.2.2))
          (a := (0, 0, 2 ^ 36)) (l := l) (hb.mpr hg)]
        show some (0 + (g - 0)) = some g
        rw [Nat.zero_add, Nat.sub_zero]
      · have hn : ∀ y ∈ (0, 0, 2 ^ 36) :: l, ¬ (fun l : Nat × Nat × Nat => decide (l.2.1 ≤ g) && decide (g < l.2.1 + l.2.2)) y = true := by
          intro y hy
          rw [h y hy]
          exact fun hc => hg (hb.mp hc)
        rw [List.find?_eq_none.mpr hn, if_neg hg]
        rfl
  exact find _ (fun x hx => (all x).mp hx) (fun hn => by have := (all (0, 0, 2 ^ 36)).mpr rfl; rw [hn] at this; cases this)

/-- Stage 2 leads where it led, whatever stands outside its two tables. -/
theorem seqMem_steady (z : State) (hv : z.vmids = (sys 0 4 seqMem2).vmids) (hf : ∀ y, z.forward y = y) (hm : z.mem = seqMem2) (w : Nat → Prop)
    (hw : ∀ y, w y → y < 0x400000 ∨ 0x404000 ≤ y) (t : State) (tv : t.vmids = z.vmids) (tf : ∀ y, t.forward y = y)
    (tm : ∀ y, ¬ w y → mget t.mem y = mget z.mem y) (g : Nat) : t.gpaPa 0 g = z.gpaPa 0 g ∧ t.gpaOf 0 g = z.gpaOf 0 g := by
  have ht : ∀ y, 0x400000 ≤ y → y < 0x404000 → mget t.mem y = mget seqMem2 y := by
    intro y h1 h2
    rw [tm y (fun h => by have := hw y h; omega), hm]
  have hz : ∀ y, 0x400000 ≤ y → y < 0x404000 → mget z.mem y = mget seqMem2 y := fun _ _ _ => by rw [hm]
  exact ⟨by rw [seqMem_stage2 t (tv.trans hv) tf ht, seqMem_stage2 z hv hf hz], by rw [seqMem_gpaOf t (tv.trans hv) tf ht, seqMem_gpaOf z hv hf hz]⟩

/-- A state that holds `seqMem2` and descriptor 0 of partition 0. -/
def HoldsSeq (z : State) : Prop :=
  z.vmids = (sys 0 4 seqMem2).vmids ∧ (∀ y, z.forward y = y) ∧ z.mem = seqMem2 ∧ z.dResv 0x500000 = 0x602000 ∧ z.dSegt 0x500000 = 0x600000 ∧
  z.dVoid 0x500000 = 0x602480 ∧ z.poolEntry 0 0x610000 = 0x580010

theorem seqMem_gpaPa (z : State) (h : HoldsSeq z) (g : Nat) (hg : g < 2 ^ 36) : z.gpaPa 0 g = some g := by
  rw [seqMem_stage2 z h.1 h.2.1 (fun _ _ _ => by rw [h.2.2.1]), if_pos ⟨hg, seqMem_place g hg⟩]

theorem seqMem_segPa (z : State) (h : HoldsSeq z) (k p : Nat) (hk : k < 1024) (hp : z.segPa 0 0x500000 k = some p) : k = 0 ∧ p = 0x610000 := by
  unfold State.segPa State.gread at hp
  rw [h.2.2.2.2.1, seqMem_gpaPa z h _ (by omega)] at hp
  have rd : z.rmem (0x600000 + 8 * k) 8 = if k = 0 then 0x6100E3 else 0 := by
    unfold State.rmem
    rw [h.2.1, h.2.2.1]
    split
    · next h => rw [h]; decide +kernel
    · refine mread_zero 8 _ _ (fun e he => ?_)
      have : e.1 < 0x600008 ∨ 0x602000 ≤ e.1 := by revert e; decide +kernel
      omega
  simp only [rd] at hp
  by_cases hk0 : k = 0
  · rw [if_pos hk0, if_pos (by decide), show pteOut 0x6100E3 = 0x610000 by decide, seqMem_gpaPa z h _ (by omega)] at hp
    exact ⟨hk0, (Option.some.inj hp).symm⟩
  · rw [if_neg hk0, if_neg (by decide)] at hp
    exact absurd hp (by simp)

/-- Descriptor 0 stands clear of its tables and of the pool map, whatever else a reservation, a commit or a void writes outside stage 2's tables:
the hypotheses of their results (spec/20 R400 to R402). -/
theorem seqMem_clear (z : State) (h : HoldsSeq z) (w : Nat → Prop) (hw : ∀ y, w y → y < 0x400000 ∨ 0x404000 ≤ y) :
    let q := 0x500000
    let apart := fun (i j : Nat × Nat) => i.1 + i.2 ≤ j.1 ∨ j.1 + j.2 ≤ i.1
    let inn := fun (y : Nat) (i : Nat × Nat) => i.1 ≤ y ∧ y < i.1 + i.2
    let at_ := fun (z : State) (g : Nat) => (z.gpaPa 0 g).getD 0
    let tables := fun (z : State) => [(q, 64), (at_ z (z.dResv q), 0x400), (at_ z (z.dSegt q), 0x2000), (at_ z (z.dSegt q + 0x2400), 0x80)]
    let touched := fun (z : State) (y : Nat) => (∃ i ∈ tables z, inn y i) ∨ ∃ k seg, k < 1024 ∧ z.segPa 0 q k = some seg ∧ inn y (z.poolEntry 0 seg, 16)
    let steady := fun (z : State) (w : Nat → Prop) => ∀ t : State, t.vmids = z.vmids → (∀ y, t.forward y = y) →
      (∀ y, ¬ w y → mget t.mem y = mget z.mem y) → ∀ g, t.gpaPa 0 g = z.gpaPa 0 g ∧ t.gpaOf 0 g = z.gpaOf 0 g
    ((tables z).Pairwise apart ∧
      (∀ k seg, k < 1024 → z.segPa 0 q k = some seg → ∀ i ∈ tables z, apart (z.poolEntry 0 seg, 16) i) ∧
      (∀ y, y < 0x400 → z.gpaPa 0 (z.dResv q + y) = some (at_ z (z.dResv q) + y)) ∧
      (∀ y, y < 0x2000 → z.gpaPa 0 (z.dSegt q + y) = some (at_ z (z.dSegt q) + y)) ∧
      (∀ y, y < 0x80 → z.gpaPa 0 (z.dSegt q + 0x2400 + y) = some (at_ z (z.dSegt q + 0x2400) + y)) ∧ steady z (fun y => touched z y ∨ w y)) ∧
    ∀ y, touched z y → (0x500000 ≤ y ∧ y < 0x500040) ∨ (0x580010 ≤ y ∧ y < 0x580020) ∨ (0x600000 ≤ y ∧ y < 0x602480) := by
  have hr := h.2.2.2.1
  have hs := h.2.2.2.2.1
  have pe := h.2.2.2.2.2.2
  have gp := fun g hg => seqMem_gpaPa z h g hg
  simp only [hr, hs, gp 0x602000 (by omega), gp 0x600000 (by omega), gp (0x600000 + 0x2400) (by omega), Option.getD_some]
  have low : ∀ y, ((∃ i ∈ [(0x500000, 64), (0x602000, 0x400), (0x600000, 0x2000), (0x600000 + 0x2400, 0x80)], i.1 ≤ y ∧ y < i.1 + i.2) ∨
      ∃ k seg, k < 1024 ∧ z.segPa 0 0x500000 k = some seg ∧ z.poolEntry 0 seg ≤ y ∧ y < z.poolEntry 0 seg + 16) →
      (0x500000 ≤ y ∧ y < 0x500040) ∨ (0x580010 ≤ y ∧ y < 0x580020) ∨ (0x600000 ≤ y ∧ y < 0x602480) := by
    rintro y (⟨i, hi, h3, h4⟩ | ⟨k, p, hk, hp, h3, h4⟩)
    · simp only [List.mem_cons, List.not_mem_nil, or_false] at hi
      rcases hi with rfl | rfl | rfl | rfl <;> simp at h3 h4 <;> omega
    · rw [(seqMem_segPa z h k p hk hp).2, pe] at h3 h4
      omega
  refine ⟨⟨by decide, ?_, fun y hy => gp _ (by omega), fun y hy => gp _ (by omega), fun y hy => gp _ (by omega), ?_⟩, low⟩
  · intro k p hk hp
    rw [(seqMem_segPa z h k p hk hp).2, pe]
    decide
  · intro t hv hf hm g
    refine seqMem_steady z h.1 h.2.1 h.2.2.1 _ (fun y hy => ?_) t hv hf hm g
    rcases hy with hy | hy
    · have := low y hy
      omega
    · exact hw y hy

/-- An instruction on descriptor 0 whose request has come; the machine once it has made its uses. -/
def seqz (x : Word) : State := came (sys 0 x seqMem2)
def seqAfter (s : State) (segt void resv : Bool) : State :=
  let s1 := s.seqTouch s.seqBy [{ pa := 0x500000, n := 64 }]
  s1.seqTouch s1.seqBy (s1.tableUses s.curVm.1 0x500000 segt void resv)
theorem holdsSeq_of (z : State) (hm : z.mem = seqMem2) (hg : z.migs = []) (h : z.vmids = (sys 0 4 seqMem2).vmids ∧ z.dResv 0x500000 = 0x602000 ∧
    z.dSegt 0x500000 = 0x600000 ∧ z.dVoid 0x500000 = 0x602480 ∧ z.poolEntry 0 0x610000 = 0x580010) : HoldsSeq z :=
  ⟨h.1, fun y => by unfold State.forward; rw [hg]; rfl, hm, h.2.1, h.2.2.1, h.2.2.2.1, h.2.2.2.2⟩
/-- A reservation of 8190 elements, which takes one new segment, a commit, and a void: what their results ask for. -/
theorem test_meets_reserve : let s := seqz 8190
    let z := seqAfter s true false true
    HoldsSeq z ∧ HasCome s { s.tripHere with nums := [] } ∧ s.dV 0x500000 = true ∧ s.seqReach 0 0x500000 = true ∧
    (s.seqTouch s.seqBy [{ pa := 0x500000, n := 64 }]).seqBad 0 ((s.seqTouch s.seqBy [{ pa := 0x500000, n := 64 }]).tableUses 0 0x500000 true false true) = false ∧
    z.missingSegs 0 0x500000 (z.dRl 0x500000) 8190 = [1] ∧ z.namesFree 1 = true ∧ z.dRl 0x500000 + 8190 ≤ z.dCap 0x500000 ∧ z.dNres 0x500000 < 64 ∧
    z.resCount 0 0x500000 1 = 0 ∧ (z.part 0).poolFree = [0x620000, 0x630000] ∧ z.poolEntry 0 0x620000 = 0x580020 ∧
    z.gpaOf 0 0x620000 = some 0x620000 ∧ z.gpaPa 0 0x620000 = some 0x620000 := by
  refine ⟨holdsSeq_of _ (by decide +kernel) (by decide +kernel) (by decide +kernel), ?_⟩
  simp only [HasCome]
  decide +kernel
theorem test_reserve : gotF (exec (.sqrsv p0 3 1 2 true) (seqz 8190)) (fun t => [(t.rdS 3).toNat, t.dRl 0x500000, t.dNres 0x500000, (t.segPa 0 0x500000 1).getD 0,
      t.resCount 0 0x500000 1, t.resBase 0 0x500000 1, (t.part 0).poolFree.length]) = some [6, 8196, 2, 0x620000, 8190, 6, 1] := by decide +kernel
theorem test_meets_void : let s := seqz 4
    let z := seqAfter s false true true
    let uses := z.voidUses 0 0x500000 0
    let v := z.seqTouch z.seqBy uses
    HoldsSeq z ∧ HoldsSeq v ∧ s.pendingOf s.cur.aid = [] ∧ z.resAt 0 0x500000 4 = some 0 ∧ z.resReady 0 0x500000 0 = false ∧ z.seqBad 0 uses = false ∧
    v.resAt 0 0x500000 4 = some 0 ∧ v.resReady 0 0x500000 0 = false ∧ v.dCl 0x500000 = 4 ∧ v.dNres 0x500000 = 1 ∧ v.resCount 0 0x500000 0 = 2 ∧
    v.resBase 0 0x500000 0 = 4 ∧ v.dEs 0x500000 = 8 ∧ (∀ j, j < 64 → j ≠ 0 → v.resCount 0 0x500000 j = 0) ∧
    HoldsSeq (seqAfter (seqz 4) false false true) ∧ (seqAfter (seqz 4) false false true).resAt 0 0x500000 4 = some 0 := by
  refine ⟨holdsSeq_of _ (by decide +kernel) (by decide +kernel) (by decide +kernel), holdsSeq_of _ (by decide +kernel) (by decide +kernel) (by decide +kernel),
    by decide +kernel, by decide +kernel, by decide +kernel, by decide +kernel, by decide +kernel, by decide +kernel, by decide +kernel, by decide +kernel,
    by decide +kernel, by decide +kernel, by decide +kernel, by decide +kernel,
    holdsSeq_of _ (by decide +kernel) (by decide +kernel) (by decide +kernel), by decide +kernel⟩
theorem test_void_done : gotF (exec (.sqvoid p0 1 2 .region) (seqz 4)) (fun t => [t.dCl 0x500000, t.dNres 0x500000, mread t.mem 0x610028 8, mread t.mem 0x602480 1]) =
      some [6, 0, 2 ^ 64 - 1, 0x30] ∧
    gotF (exec (.sqcmt p0 1 2 .region) (seqz 4)) (fun t => [t.dCl 0x500000, t.dNres 0x500000, mread t.mem 0x610028 8]) = some [6, 0, 0] := by decide +kernel
/-- Memory of another partition traps PERM (spec/14 R290). -/
theorem test_foreign_sequence : fault (.sqlen p0 3 1 .region) { seqz 0 with ownSlice := [(0, 1)] } = some 8 ∧
    ({ seqz 0 with ownSlice := [(0, 1)] } : State).ownerOf 0x500000 = 1 := by decide +kernel

/-! Boundary cases of the longer statements. -/

/-- A damaged record at a tile, under TRAPV: a trap record of cause UCE; a gated tile drops it as well; at a tile that was restored awake a
record in the wake buffer lands; one that a reconfiguration governs waits in the spill ring (spec/02 R37, R48, R59). -/
def damaged : Transit := { bound with rc := { bound.rc with hdr := bound.rc.hdr ^^^ 1 } }
def withTrapv (s : State) : State := s.setRegion 0 { s.region 0 with trapv := true, colours := [(0, 0x20000000D), (2, 0x20000000D)] }
theorem test_damaged_under_trapv : gotF (exec (.recordArrival 0) (withTrapv (coming [damaged] {}))) (fun t =>
      [(t.part 0).log.head.toNat, t.transit.length, lget 0 (t.tile 0).cherr 3, t.purges.length]) = some [0, 1, 1, 0] ∧
    gotF (exec (.wakeBufferArrival 0) (coming [damaged] { gate := .clock })) (fun t =>
      [(t.part 0).log.head.toNat, (t.tile 0).wake.length, lget 0 (t.tile 0).cherr 3]) = some [1, 0, 1] := by decide +kernel
theorem test_wake_restored : gotF (exec (.tileWake 0) (coming [] { wake := [bound] })) (fun t => ((t.frame 0).cont, (t.tile 0).wake.length)) = some (.fresh, 0) ∧
    gotF (exec (.tileWake 0) (coming [] { gate := .powering 0, wake := [bound] })) (fun t => (t.frame 0).cont) = some .fresh ∧
    gotF (exec (.tileWake 0) (coming [{ rc := { beats := [0, 1] }, dst := .reconf 0 }] { gate := .waking 0, wake := [bound] })) (fun t =>
      ((t.frame 0).cont, (t.colour 0 0).spill.length)) = some (((coming [] {}).frame 0).cont, 1) := by decide +kernel
/-- A bound record that finds its row complete ends it at once (spec/02 R26). -/
theorem test_counter_bound_lowered : left (exec (.counterNodeRecord 0) (atOp (opE 3 0xFF04FF03 2 2 0) (State.mkRec 0 0 9 0 1 false 3 [1 + 2 * 2 ^ 32]) 3
      (fun r => { r with nodes := [{ op := 1, recs := 1, rtag := 5 }] }))) = some [[4, 2, 0, 1]] ∧
    left (exec (.counterNodeRecord 0) (atOp (opE 3 0xFF04FF03 2 2 0) (State.mkRec 0 0 9 0 1 false 3 [2 + 2 * 2 ^ 32]) 3
      (fun r => { r with nodes := [{ op := 1, recs := 1, rtag := 5 }] }))) = some [] := by decide +kernel
/-- An address that is no multiple of 64 faults ALIGN (spec/02 R26). -/
theorem test_operator_alignment : gotF (exec (.memoryOperatorRecord 0) (atOp (opE 4 0xFFFF0403 0 8 0x700000) (record [1]) 3 id)) (fun t =>
      [(t.region 0).marks.length, (t.region 0).outs.length]) = some [1, 0] ∧
    gotF (exec (.remoteScratchpadRecord 0) (atOp (opE 13 0xFFFF0403 1 4 0) (record [1, 0x99]) 3 id)) (fun t => (t.region 0).marks.length) = some 1 := by decide +kernel
/-- A zero record on a SKIPZ channel that is not its wave's last is counted and not sent (spec/17 R333). -/
theorem test_operator_skips : let s := { atOp (opE 8 0xFF040503 0 0 0) (record [0]) 3 id with tiles := [(0, { chans := [(3, 0x040000020FF00000), (4, 0x800004050FF00000)] })] }
    left (exec (.mergeRecord 0) s) = some [] ∧ cSkipz 0x800004050FF00000 = true ∧ cRpw 0x800004050FF00000 = 2 := by decide +kernel
/-- March: no candidate completes the launch with CFG; a share of 0 places nothing (spec/06 R121, R122). -/
theorem test_march_never : gotF (exec .marchPlacement (marching 0 0 1)) (fun t => ((t.region 0).launches.length, (t.marchQueue 0 0).length, lget 0 (t.part 0).deficit 0)) =
      some (0, 1, 0) ∧
    gotF (exec .marchPlacement ((marching 0 1 1).setColour 0 0 { q := 0 })) (fun t => (t.region 0).launches.length) = some 0 ∧
    (({ marching 0 1 1 with regions := [] } : State).candidates { cost := 1, admits := 1, rtag := 9, levels := [(2, 1, 2)] }) = [] ∧
    gotF (exec .marchPlacement { marching 0 1 1 with regions := [] }) (fun t => (t.marchQueue 0 0).length) = some 0 := by decide +kernel
/-- A die's report that is delivered (spec/06 R123): March's copies, and the message is done. -/
def reporting : State := { (sys 0 0 []).setColour 0 0 { livea := 3 } with fabric := [(0, { msgs := [{ num := 7, cls := 4, src := 80, dst := 2064, what := .report 0 [] [(0, 3)] }] })] }
/-- The selection of a continuation parked on an access that faulted late; under TRAPV it traps at once (spec/15 R302). -/
def lated : State :=
  let s := withTrapv (choosing .runnable .awake)
  s.setFrame 2 { s.frame 2 with lates := [{ cause := 0x29 }] }
theorem test_selection_late : gotF (exec (.contextSelection 0 1) lated) (fun t => ((t.frame 2).cont, (t.frame 2).lates.length, t.transit.length)) = some (.trapped, 0, 1) ∧
    lated.mayTake 0 1 = true ∧ lated.selectFor 0 1 = some (0, 2) ∧ lated.oldCount 6 = 0 := by decide +kernel
/-- A save waits for a wake buffer to drain; one that a restored tile holds lands when it wakes (spec/02 R48, spec/16 R316). -/
theorem test_save_drains_wake : ((tenant { phase := .halting }).setTile 0 { wake := [bound] }).haltDone 0 = false ∧
    gotF (exec (.preemptionRestore 0) (tenant { phase := .saved, save := some { tiles := [(0, { wake := [bound] })] } })) (fun u =>
      ((u.tile 0).gate, (u.tile 0).wake.length)) = some (.waking 0, 1) := by decide +kernel
/-- A beat waits its turn; a beat through subgraph 1 of the default set decodes CB2 (spec/17 R342, spec/18 R360, R361). -/
theorem test_copy_turn : (copying false { started := true, beats := 2 }).beatTurn 0 0 = true ∧
    ((copying false { started := true, beats := 2 }).setCore 0 { (copying false { started := true, beats := 2 }).core 0 with turns := [(0, 0)] }).beatTurn 0 0 = true ∧
    (copying false { started := true, beats := 2, beat := 2 }).beatTurn 0 0 = false := by decide +kernel
/-- A boarding whose head is due and has no slot asks for a hold, once in a row; a hold that serves nobody any more ends (spec/07 R152). -/
theorem test_auto_hold : gotF (exec (.tileHeadArrival 0 0) ((lap 0 {} []).setCore 0 { (lap 0 {} []).core 0 with
      boards := [(1, { boards := true, word := 0x200010000000, rtag := 7 })] })) (fun t => (t.ring.hold.isSome || t.ring.want != [], (t.core 0).seen)) = some (true, 0) ∧
    gotF (exec .holdExpiry (holding { hold := some 9, holders := [] })) (fun t => t.ring.hold) = some none := by decide +kernel
/-- An underrun stalls its lane until the lap's position moves; a second in the same place does nothing (spec/07 R153). -/
theorem test_underrun_stalls : gotF (exec (.underrun 3) (holding { stalled := [3] })) (fun t => lget 0 t.ring.under 3) = some 0 ∧
    gotF (exec (.underrun 3) (holding {})) (fun t => t.ring.stalled) = some [3] := by decide +kernel
/-- A boarding that was frozen when its lap began is not missed (spec/17 R345). -/
theorem test_frozen_lap : gotF (exec .lapBoundary (lapEnd.setCore 0 { lapEnd.core 0 with boards := [(1, { word := 0x10000000, due := true, mlaps := 2, st := .waitlap, frozenLap := true })] }))
      (fun t => (lget? (t.core 0).boards 1).map (fun b => (b.st, b.mlaps))) = some (some (.waitlap, 2)) := by decide +kernel
/-- A fragment for die 1 crosses the hub die: there it goes on, over a second link (spec/08 R159, R160). -/
def fragFar : BitVec 128 := 1#128 ||| (512#128 <<< 32)
def flying (at_ : Nat) : State := { State.reset with flights := [{ hdr := fragFar, data := 77, crc := 5, at_ := at_, path := 2 }], hub := { ready := true } }
theorem test_fragment_crosses : (flying 0).flightTo 4 fragFar 77 5 = some 0 ∧ (flying 4).flightTo 1 fragFar 77 5 = some 0 ∧ (flying 0).flightTo 1 fragFar 77 5 = none ∧
    parity fragFar.toNat 128 = false ∧ State.isNode 512 = true := by decide +kernel
theorem test_fragment_goes_on : gotF (exec (.fragmentArrival 4 fragFar 77 (fragCrc fragFar 77)) { State.reset with hub := { ready := true } }) (fun t => t.flights.map (·.at_)) = some [4] ∧
    gotF (exec (.fragmentArrival 0 fragFar 77 (fragCrc fragFar 77)) { State.reset with hub := { ready := true } }) (fun t => t.flights.map (·.at_)) = some [] := by
  simp only [exec, execFragmentArrival, bne_self_eq_false]
  decide +kernel
/-- A report delivered at its node marks its message done (spec/06 R123, spec/08 R172). -/
theorem test_deliver : (reporting.msgOf 80 4 0).map (·.num) = some 7 ∧
    (let t := reporting.deliver { src := 80, dst := 2064, cls := 4, id := 0, data := [] }
     ((t.fab 0).msgs.map (·.done), lget 0 t.hub.live 0)) = ([true], 3) := by decide +kernel
/-- An image of one core with a region record, loaded onto core 1 (spec/18 R369 to R371); onto core 0, which is in a region; onto two cores. -/
def imaged (sel : Word) : State := came
  { sys 0x700000 sel (mwrite tables 0x700000 128 (1 + 2 ^ 16 + 128 * 2 ^ 32 + 2 ^ 64 + 2 ^ 512 * (1 + 2 ^ 64 + 96 * 2 ^ 96) + 2 ^ 768 * 4)) with ownCore := [(0, 0), (1, 0), (2, 0)] }
theorem test_cfgld : gotF (exec (.cfgld p0 3 1 2) (imaged 0x700000002)) (fun t => (t.rdS 3, (t.region 1).st, (t.region 1).graph, (t.region 1).trapv, (t.core 1).region)) =
      some (0, 1, 7, true, some 1) ∧
    gotS (exec (.cfgld p0 3 1 2) (imaged 0x700000001)) 3 = some 0x0B ∧ gotS (exec (.cfgld p0 3 1 2) (imaged 0x700000006)) 3 = some 0x0E ∧
    cause (exec (.cfgld p0 3 1 2) (imaged 0x700000008)) = some 8 ∧ cause (exec (.cfgld p0 3 1 2) (imaged 0x1000000000002)) = some 0x14 := by decide +kernel
/-- RESUME or TRET for a parked continuation with a late fault reported: its mark goes, and it stays parked. -/
theorem test_tret_late_mark : let s := (handler false).setFrame 2 { (handler false).frame 2 with cont := .parked, wait := .restore, lateMark := true }
    s.trappedFrame 0 0x9000000001001 = some 2 ∧ s.waveMarked s.curRegion 0 0 = false ∧
    gotF (exec (.tret p0 1 false) s) (fun t => ((t.frame 2).lateMark, (t.frame 2).cont)) = some (false, .parked) := by decide +kernel

/-! Chain accesses at issue, and what rides the fabric (spec/05 R104, R106, spec/08 R162). -/

/-- A load of number 5 of its chain, with some chains open in its region. -/
def chained (cs : List Chain) (cores : List Nat) : State := { mst 0x20008 0 with regions := [(0, { cores := cores, chains := cs })] }
/-- Its want. -/
def wantChain : Want := { kind := .ld, mf := { mD with seq := 5 }, bytes := 8, elems := [(0, 0x20008)], dst := 3 }
theorem test_meets_chained : MayIssue (chained [] [0]) wantChain [{ gva := 0x20008, pa := 0x50008 }] ∧
    (chained [] [0]).chainOf ((chained [] [0]).mkAccess wantChain []) = none ∧ (chained [] [0]).chainUsed 0 < 256 * ((chained [] [0]).region 0).cores.length ∧
    (chained [{ items := [{ seq := 4 }] }] [0]).chainOf ((chained [] [0]).mkAccess wantChain []) = some { items := [{ seq := 4 }] } := by
  refine ⟨⟨by decide +kernel, by decide +kernel, fun e he c ch off => ?_⟩, by decide +kernel, by decide +kernel, by decide +kernel⟩
  rw [List.mem_singleton.mp he, show placeOf ({ gva := 0x20008, pa := 0x50008 } : Elem).pa = .hbm from by decide +kernel]
  exact fun h => nomatch h
/-- It starts a chain, joins one, is counted and let go where the chain is closed, waits where no entry is free. -/
theorem test_chained : [([], [0]), ([{ items := [{ seq := 4 }] }], [0]), ([{ items := [{ seq := 4 }], closed := true }], [0]), ([], [])].map (fun x =>
      gotF (exec (.ld p0 { mD with seq := 5 } 3 1 0) (chained x.1 x.2)) (fun t => (t.accesses.map (fun a => (a.seq, a.freed)),
        (t.region 0).chains.map (fun c => c.items.map (·.seq)), (t.region 0).linklate))) =
    [some ([(5, false)], [[5]], 0), some ([(5, false)], [[4, 5]], 0), some ([(0, true)], [[4]], 1), some ([(5, false)], [], 0)] := by decide +kernel
/-- An atomic at a slice: asked for, then performed where its request has come, and answered (spec/15 R310). -/
def asked (x : Word) : State := let s := mq 0x20008 x
  came { s with accesses := [{ s.mkAccess { kind := .ld, mf := mD, write := true, bytes := 8, elems := [(0, 0x20008)] } [{ gva := 0x20008, pa := 0x50008 }] with
                               kind := .sync, id := 7 }] }
theorem test_meets_asks : NotAsked (mq 0x20008 2) ∧ HasCome (asked 2) { (asked 2).tripHere with nums := [] } ∧ homeNode 0x50008 = some 32 ∧
    State.isFar false [{ gva := 0x20008, pa := 0x50008 }] = true ∧ (asked 2).hasUce 0x50008 8 = false ∧
    MaySync (mq 0x20008 2) { kind := .ld, mf := mD, write := true, bytes := 8, elems := [(0, 0x20008)] } [{ gva := 0x20008, pa := 0x50008 }] ∧
    (asked 2).accesses.find? (fun y => y.kind == .sync && y.aid == (asked 2).cur.aid && y.ip == (asked 2).cur.ip && y.seq == 0) =
      some { (asked 2).mkAccess { kind := .ld, mf := mD, write := true, bytes := 8, elems := [(0, 0x20008)] } [{ gva := 0x20008, pa := 0x50008 }] with
             kind := .sync, id := 7 } := by
  simp only [NotAsked, HasCome, MaySync]; decide +kernel
theorem test_far_atomic : gotF (exec (.aadd p0 mD 3 1 0 2) (mq 0x20008 2)) (fun t => (t.cur.held, t.trips.map (fun x => (x.back, x.nums.length)),
      (t.fab 0).msgs.map (fun m => (m.src, m.dst)))) = some (true, [(false, 1)], [(0, 32)]) ∧
    gotF (exec (.aadd p0 mD 3 1 0 2) (asked 2)) (fun t => (t.rdS 3, mread t.mem 0x50008 8, t.accesses.length, (t.fab 0).msgs.map (fun m => (m.src, m.dst)))) =
      some (0x8877665544332211, 0x8877665544332213, 0, [(32, 0)]) := by decide +kernel
/-- A cache operation, a sequence instruction, a load of the dictionary and a task for another core: each asks first. -/
theorem test_asks : [exec (.cwb p0 mB 1 2) (mst 0x20000 0), exec (.sqlen p0 3 1 .region) (sys 0 0 seqMem),
      exec (.dictld p0 3 1 2) { loading 0x700000 (2 * 2 ^ 19 + 1022 * 2 ^ 9) with trips := [] }].map (fun o =>
      gotF o (fun t => (t.cur.held, t.trips.length, (t.fab 0).msgs.map (·.dst)))) =
    [some (true, 1, [32]), some (true, 1, [32]), some (true, 1, [32])] := by decide +kernel
/-- A VSTF of two words sets both FULL (spec/15 R308). -/
theorem test_vstf_full : gotF (exec (.storePerformed 0) { onWay .vstf 4 { gva := 0x10000, pa := 0x200000000000 } 9 with
      accesses := [{ id := 1, aid := 5, part := 16, kind := .vstf, bytes := 4, elems := [{ gva := 0x10000, pa := 0x200000000000 }, { lane := 1, gva := 0x10004, pa := 0x200000000004 }],
                     data := 9 + 8 * 2 ^ 32 }] }) (fun t => (mread t.mem 0x200000000000 8, t.feOf 0x200000000000, t.feOf 0x200000000004)) =
    some (9 + 8 * 2 ^ 32, 1, 1) := by decide +kernel

/-! Ends, waits, purges and flushes that hold (spec/11 R236, spec/20 R393, spec/17 R338, R347, R351). -/

/-- With a wave control record of its own still to be applied ENDH is held; with a load outstanding the context is kept for it alone. -/
theorem test_endh_holds : gotF (exec (.endh p0) { ending 2 with transit := [{ sender := 5, dst := .waveCtl 0 }] }) (fun t =>
      (t.cur.held, t.cur.busy, (t.tile 0).pool.map (·.aid), (t.frame 0).cont)) = some (true, true, [6], .running) ∧
    gotF (exec (.endh p0) { ending 2 with accesses := [{ id := 1, aid := 5, kind := .ld }] }) (fun t =>
      (t.cur.ended, t.cur.busy, (t.frame 0).cont, t.accesses.length)) = some (true, true, .fresh, 1) := by decide +kernel
/-- Loads outstanding, and token 0 BUSY or not: WAITC decides once whether it goes on or parks. -/
def waitcing (busy : Bool) (kept : Option Nat) (n : Nat) : State :=
  let s := (quiet 0 0).setToken 0 0 (if busy then 1 else 2)
  { s.setCur { s.cur with kept := kept } with accesses := (List.range n).map (fun i => { id := i, aid := 5, kind := .ld }) }
theorem test_waitc_decides : [(false, none, 1), (true, none, 1), (true, some 1, 1), (true, some 1, 0), (true, some 2, 0)].map (fun x =>
      gotF (exec (.waitc p0 1 0 0 0) (waitcing x.1 x.2.1 x.2.2)) (fun t => (t.cur.held, t.cur.kept, t.cur.ip, (t.frame 0).cont == .parked))) =
    [some (true, some 1, 0, false), some (true, some 2, 0, false), some (true, some 1, 0, false), some (false, none, 4, false), some (false, none, 0, true)] := by
  decide +kernel
theorem test_meets_waitc : (waitcing true none 1).oldCount 5 = 1 ∧ (waitcing true none 1).tokenOf 0 0 = 1 ∧ (waitcing true none 1).cur.waitOver = false ∧
    (waitcing true none 1).ostCount 5 = 0 ∧ (waitcing true none 1).otoCount 5 = 0 := by decide +kernel
/-- Context 1 runs an activation of request tag 9 in frame 1, with some loads on their way. -/
def purging (n : Nat) : State :=
  let s := sys 9 0x3000 []
  { s with ctxs := lset s.ctxs 1 { busy := true, aid := 6, frame := 1, rtag := 9 }, frames := [(1, { alloc := true, aid := 6, rtag := 9, gen := 4, cont := .running })],
           tiles := [(0, {})], accesses := (List.range n).map (fun i => { id := i, aid := 6, kind := .ld }) }
theorem test_meets_purge_running : let g : State.Tag := { r := 0, p := 0, col := 0, rtag := 9, cause := 0x30, keep := 5 }
    State.runsOfTag g (purging 1) = [1] ∧ (purging 1).drains 6 = true ∧ (purging 0).drains 6 = false ∧ (purging 0).runsOn 1 = [1] ∧
    1 ∈ (purging 0).framesOf 0 := by decide +kernel
/-- PURGE stops it, waits for its loads, and frees frame and context (spec/17 R347). -/
theorem test_purge_drains : gotF (exec (.purge p0 3 1 2) (purging 1)) (fun t => (t.cur.held, (t.ctx 1).stop, (t.ctx 1).busy, (t.frame 1).alloc)) =
      some (true, some 0x30, true, true) ∧
    gotF (exec (.purge p0 3 1 2) (purging 0)) (fun t => (t.cur.held, (t.ctx 1).busy, t.frame 1)) = some (false, false, { gen := 4 }) := by decide +kernel
/-- A copy of task 2 on channel 1, whose completion record is to be sent; then that task is gone. -/
def flushing (kept : Option Nat) (b : List (Nat × Tcb)) : State :=
  let s := (sys 0x80 0 []).setCopies 0 1 (if kept.isNone then [{ id := 1, task := some 2 }] else [])
  let s1 := s.setCore 0 { s.core 0 with tcbs := b }
  s1.setCur { s1.cur with kept := kept }
/-- QFLUSH is held until the record has been sent (spec/27 R452). -/
theorem test_qflush_holds : let x : Tcb := { raw := mkT 3 0 0 0x400, st := .issued, idx := some 7 }
    gotF (exec (.qflush p0 3 1) (flushing none [(2, x)])) (fun t => (t.cur.held, t.cur.kept, (t.tcb 0 2).st, (t.tcb 0 2).status)) =
      some (true, some 1, .retired, Cause.copyerr) ∧
    gotF (exec (.qflush p0 3 1) (flushing (some 1) [(2, { x with st := .retired, status := Cause.copyerr })])) (fun t => t.cur.held) = some true ∧
    gotF (exec (.qflush p0 3 1) (flushing (some 1) [])) (fun t => (t.rdS 3, t.cur.ip)) = some (1, 4) := by decide +kernel
/-- A full assembly pool holds an instruction before it has any effect (spec/16 R316). -/
def full : State := chans.setTile 0 { chans.tile 0 with pool := [{ aid := 0, ch := 4, beats := List.replicate 256 0 }] }
theorem test_full_pool : full.poolUsed = 256 ∧ full.dstOk 4 = true ∧ full.halting = false ∧
    gotF (exec (.vmov p0 .n8 (.chan 4) (.chan false 3) mk0) full) (fun t => (t.cur.held, (t.frame 0).present, t.poolUsed)) = some (true, 4, 256) := by decide +kernel
/-- A task for core 1 of the region: its request leaves, and is done where it has come (spec/17 R338, spec/08 R162). -/
def twoCores : State :=
  let s := sys 0 0 []
  { s with regions := [(0, { s.region 0 with cores := [0, 1] })], cores := [(0, s.core 0), (1, { region := some 0, nTasks := 2, tasks := [(0, sys.raw)] })] }
theorem test_ttenq_far : gotF (exec (.ttenq p0 3 1 1 false) twoCores) (fun t => (t.cur.held, (t.core 1).tcbs.length, (t.fab 0).msgs.map (fun m => (m.src, m.dst)))) =
      some (true, 0, [(0, 1)]) ∧
    gotF (exec (.ttenq p0 3 1 1 false) (came twoCores)) (fun t => (t.rdS 3, (t.tcb 1 0).st, (t.fab 0).msgs.map (fun m => (m.src, m.dst)))) =
      some (0, .waitin, [(1, 0)]) ∧
    (twoCores.region twoCores.curRegion).coreAt 1 = some 1 := by decide +kernel

/-! Traffic that stops, frames that go back, a dropped die, a late station, a saved partition (spec/22 R440, spec/14 R282, spec/21 R427, R431,
spec/07 R153). -/

/-- While the ports are stopped by heat a fragment from one waits (spec/22 R440). -/
theorem test_ports_stopped : gotF (exec (.fragmentArrival 4 (frag 0) 77 (fragCrc (frag 0) 77)) { (fabric {}) with hub := { halted := true } }) (fun t =>
      (lget 0 t.hub.portdrop 0, t.flights.length)) = some (0, 0) ∧
    ({ (fabric {}) with hub := { halted := true } } : State).portsRun = false ∧ (fabric {}).portsRun = true := by
  simp only [exec, execFragmentArrival, bne_self_eq_false]
  decide +kernel
/-- At the save frame 2 goes back to its place in the frame heap, with its presence word (spec/14 R282). -/
theorem test_frames_back : let s : State := { (tenant { phase := .halting }) with tmem := [(0x1005, 9)], frames := [(2, { alloc := true, present := 0x21, cont := .parked, wait := .restore })] }
    ((s.framesBack 0).frame 2).inHeap = true ∧ bits (s.presenceWord 2) 0 16 = 0x21 ∧
    s.heapAddr 0 0 2 = 0x200000001000 ∧ s.presenceAddr 0 0 2 = 0x200000040008 ∧ s.haltDone 0 = true := by decide +kernel
/-- Without die 3 a partition goes on from its snapshot, which stands on die 0 (spec/21 R431). -/
theorem test_drop_restores : let s := tenant { snapped := some { ctxs := [(1, { ip := 4 })], regions := [(0, { st := 2, cores := [0] })] },
                                               snapshot := [(0x200000000008, 6)] }
    gotF (exec (.dieDrop 0) s) (fun t => (t.ctxs.length, mget t.mem 0x200000000008)) = some (0, 0) ∧
    gotF (exec (.dieDrop 3) { s with ownCore := [(0, 0), (48, 0)] }) (fun t => ((t.ctx 1).ip, mget t.mem 0x200000000008, mget t.mem 0x200000000000)) =
      some (4, 6, 0) ∧ ({ s with ownCore := [(0, 0), (48, 0)] } : State).fitsWithout 0 3 = true ∧ s.fitsWithout 0 0 = false := by decide +kernel
/-- A station that has not staged its tile between two boundaries is late, and counts nothing yet (spec/07 R153). -/
theorem test_underrun_late : gotF (exec (.underrun 3) { (holding {}) with ring := { (holding {}).ring with pos := 5 } }) (fun t =>
      (t.ring.late, t.ring.stalled, lget 0 t.ring.under 3)) = some ([3], [], 0) := by decide +kernel
/-- March keeps a launch of a saved partition, whose regions are saved with it (spec/21 R427). -/
theorem test_held_launch : let s := marching 0 1 0
    let away : State := { s with regions := [], parts := [(0, { share := 1, phase := .saved, save := some { regions := s.regions } })] }
    gotF (exec .marchPlacement away) (fun t => (t.marchQueue 0 0).length) = some 1 ∧
    gotF (exec .marchPlacement { away with parts := [(0, { share := 1 })] }) (fun t => (t.marchQueue 0 0).length) = some 0 := by decide +kernel
/-- A slice does not leave a partition whose messages are on their way (spec/14 R296). -/
theorem test_no_quiesce : let s : State := { sys 0 0 [(5, 1)] with fabric := [(0, { msgs := [{ num := 1, region := some 0 }] })] }
    gotF (exec (.ownershipSet (.slice 0) none) s) (fun t => (t.mem, t.ownSlice)) = some ([(5, 1)], [(0, 0)]) ∧ s.quiesced 0 = false ∧
    gotF (exec (.ownershipSet (.slice 0) none) { s with fabric := [] }) (fun t => (t.mem, t.ownSlice)) = some ([], []) := by decide +kernel

/-- Engines ask first: a copy, a walk, a memory operator, an exit port, an admission; a second time they wait (spec/08 R162). -/
theorem test_engines_ask : [exec (.copyBeat 0 0) { copying false { started := true, beats := 2 } with trips := [] },
      exec (.tableWalk 0) { walking true tables with trips := [] }, exec (.memoryOperatorRecord 0) (atOp (opE 4 0xFFFF0403 0 64 0x6FFFC0) (record [1]) 3 id),
      exec (.exitPortRecord 0) (atOp (opE 2 0xFFFFFF03 0 0 0) (record [7]) 3 leaving), exec (.admission 0 0) (admitting (opE 1 0xFFFFFF04 0 0 0))].map (fun o =>
        gotF o (fun t => (t.trips.map (fun x => (x.src, x.back)), (t.fab 0).msgs.map (fun m => (m.src, m.dst))))) =
    [some ([(0, false)], [(0, 32)]), some ([(80, false)], [(80, 32)]), some ([(0, false)], [(0, 32)]), some ([(0, false)], [(0, 32)]),
     some ([(0, false)], [(0, 32)])] := by decide +kernel
theorem test_engines_wait : gotF (exec (.memoryOperatorRecord 0) { atOp (opE 4 0xFFFF0403 0 64 0x6FFFC0) (record [1]) 3 id with trips := [{ who := [3, 0, 1, 3], back := true }] })
      (fun t => (t.transit.length, (t.region 0).outs.length)) = some (1, 0) ∧
    gotF (exec (.memoryOperatorRecord 0) (cameFor [3, 0, 1, 3] (atOp (opE 4 0xFFFF0403 0 64 0x6FFFC0) (record [1]) 3 id))) (fun t =>
      (t.transit.length, t.trips.map (·.back), (t.fab 0).msgs.map (fun m => (m.src, m.dst)))) = some (0, [true], [(32, 0)]) := by decide +kernel
/-- A record that is being converted holds a tile's wake buffer back; POISON holds its sender until the wave's frames stand in the heap (spec/02 R48,
R49, spec/26 R447). -/
def viaNode (x : Tile) : State :=
  let s := coming [{ bound with dst := .op 0 1 3 }] x
  s.setRegion 0 { s.region 0 with fixed := [(1, opE 9 0xFFFFFFFF 0 0 0)] }
theorem test_conversion_first : gotF (exec (.tileWake 0) (viaNode { gate := .waking 0, wake := [bound] })) (fun t =>
      ((t.tile 0).gate, (t.tile 0).wake.length, (t.frame 0).alloc)) = some (.awake, 1, false) ∧ (viaNode {}).converting 0 3 = true := by decide +kernel
theorem test_poison_applied : let s := { coming [control 1] {} with frames := [(1, { alloc := true, cont := .running, aid := 7 })] }
    gotF (exec (.waveControlRecord 0) s) (fun t => (t.transit.map (·.applied), (t.region 0).marks.length)) = some ([true], 1) ∧
    gotF (exec (.waveControlRecord 0) { s with transit := [{ control 1 with applied := true }], frames := [(1, { alloc := true, inHeap := true })] }) (fun t =>
      (t.transit.length, (t.region 0).marks.length)) = some (0, 0) := by decide +kernel
end Sys2Proof.Tests
end

section
/-!
PROOFS. Number formats (spec/04): rounding, narrowing and conversion, traps on arithmetic, reductions over the tree of lanes, and the
completion of a queued matrix product.
-/

namespace Sys2Proof.NumberFormats
open Machine

/-! Rounding (spec/04 R82). -/

/-- The lower part of an integer in units of 2^sh, and how what is cut off compares with half a unit. -/
theorem lowerPart_units (m : Nat) {sh : Nat} (h : 0 < sh) : lowerPart m 0 false (sh : Int) =
    (m / 2 ^ sh, m % 2 ^ sh != 0, decide (2 ^ (sh - 1) < m % 2 ^ sh), m % 2 ^ sh == 2 ^ (sh - 1)) := by
  rw [lowerPart, if_neg (by omega)]
  simp [Nat.shiftRight_eq_div_pow]

/-- A neighbour chosen by comparison with half a unit is a nearest one; where the two are equally near, half a unit was cut off. -/
theorem nearest_of_half (m : Nat) {sh : Nat} (h : 0 < sh) {up : Bool} (hup : up = true → 2 ^ (sh - 1) ≤ m % 2 ^ sh)
    (hdown : up = false → m % 2 ^ sh ≤ 2 ^ (sh - 1)) :
    let r := if up then m / 2 ^ sh + 1 else m / 2 ^ sh
    2 * m ≤ 2 * (r * 2 ^ sh) + 2 ^ sh ∧ 2 * (r * 2 ^ sh) ≤ 2 * m + 2 ^ sh ∧
    (2 * m = 2 * (r * 2 ^ sh) + 2 ^ sh → up = false ∧ m % 2 ^ sh = 2 ^ (sh - 1)) ∧
    (2 * (r * 2 ^ sh) = 2 * m + 2 ^ sh → up = true ∧ m % 2 ^ sh = 2 ^ (sh - 1)) := by
  have hunit : 2 ^ sh = 2 * 2 ^ (sh - 1) := by rw [← Nat.pow_succ', Nat.succ_eq_add_one, Nat.sub_add_cancel h]
  have hm : m / 2 ^ sh * 2 ^ sh + m % 2 ^ sh = m := Nat.div_add_mod' m (2 ^ sh)
  have hlt : m % 2 ^ sh < 2 ^ sh := Nat.mod_lt m (Nat.two_pow_pos sh)
  cases up with
  | false =>
    have := hdown rfl
    simp only [Bool.false_eq_true, if_false, false_and, true_and]
    omega
  | true =>
    have := hup rfl
    simp only [if_true, Nat.add_mul, Nat.one_mul, true_and, Bool.true_eq_false, false_and]
    omega

/-- Whether a mode goes to the upper neighbour when an integer is rounded to a multiple of 2^sh. -/
def goesUp (rnd : Rnd) (neg : Bool) (m sh : Nat) : Bool :=
  roundUp rnd neg (m / 2 ^ sh % 2 == 1) (m % 2 ^ sh != 0) (decide (2 ^ (sh - 1) < m % 2 ^ sh)) (m % 2 ^ sh == 2 ^ (sh - 1))

theorem roundUp_units (rnd : Rnd) (neg : Bool) (m sh : Nat) : roundUp rnd neg (m / 2 ^ sh % 2 == 1) (m % 2 ^ sh != 0)
    (decide (2 ^ (sh - 1) < m % 2 ^ sh)) (m % 2 ^ sh == 2 ^ (sh - 1)) = goesUp rnd neg m sh := rfl

theorem goesUp_rz (neg : Bool) (m sh : Nat) : goesUp .rz neg m sh = false := rfl

theorem goesUp_ru (neg : Bool) (m sh : Nat) : goesUp .ru neg m sh = true ↔ neg = false ∧ m % 2 ^ sh ≠ 0 := by
  simp [goesUp, roundUp]

theorem goesUp_rd (neg : Bool) (m sh : Nat) : goesUp .rd neg m sh = true ↔ neg = true ∧ m % 2 ^ sh ≠ 0 := by
  simp [goesUp, roundUp]

theorem goesUp_rne (neg : Bool) (m sh : Nat) : goesUp .rne neg m sh = true ↔
    2 ^ (sh - 1) < m % 2 ^ sh ∨ m % 2 ^ sh = 2 ^ (sh - 1) ∧ m / 2 ^ sh % 2 = 1 := by
  simp [goesUp, roundUp]

theorem goesUp_rna (neg : Bool) (m sh : Nat) : goesUp .rna neg m sh = true ↔
    2 ^ (sh - 1) < m % 2 ^ sh ∨ m % 2 ^ sh = 2 ^ (sh - 1) := by
  simp [goesUp, roundUp]

/-- Settles O18: each mode by what its rule decides from the part cut off. -/
theorem roundingPicksTheNamedNeighbour : Obligations.RoundingPicksTheNamedNeighbour := by
  unfold Obligations.RoundingPicksTheNamedNeighbour
  intro m sh neg hsh
  have rne := goesUp_rne neg m sh
  have rna := goesUp_rna neg m sh
  obtain ⟨even_le, even_ge, even_lower, even_upper⟩ := nearest_of_half m hsh (up := goesUp .rne neg m sh)
    (fun e => by rw [rne] at e; omega) (fun e => by rw [← Bool.not_eq_true, rne] at e; omega)
  obtain ⟨away_le, away_ge, away_lower, -⟩ := nearest_of_half m hsh (up := goesUp .rna neg m sh)
    (fun e => by rw [rna] at e; omega) (fun e => by rw [← Bool.not_eq_true, rna] at e; omega)
  simp only [lowerPart_units m hsh, roundUp_units, goesUp_rz, goesUp_ru, goesUp_rd]
  refine ⟨trivial, bne_iff_ne, rfl, trivial, trivial, even_le, even_ge, ?_, Nat.lt_of_le_of_ne away_le fun e => ?_, away_ge⟩
  · rintro (e | e)
    · obtain ⟨hup, hhalf⟩ := even_lower e
      have hdown := hup
      rw [← Bool.not_eq_true, rne] at hdown
      rw [hup, if_neg Bool.false_ne_true]
      omega
    · obtain ⟨hup, hhalf⟩ := even_upper e
      have hodd := rne.mp hup
      rw [if_pos hup]
      omega
  · obtain ⟨hup, hhalf⟩ := away_lower e
    exact Bool.false_ne_true (hup.symm.trans (rna.mpr (.inr hhalf)))

/-! Integers (spec/04 R80, R86). -/

theorem width_pos (ty : Ty) : 0 < ty.width := by cases ty <;> decide

theorem two_pow_width (ty : Ty) : 2 ^ ty.width = 2 * 2 ^ (ty.width - 1) := by
  rw [← Nat.pow_succ', Nat.succ_eq_add_one, Nat.sub_add_cancel (width_pos ty)]

theorem wrapTo_lt (w : Nat) (i : Int) : wrapTo w i < 2 ^ w := by
  have := Nat.two_pow_pos w
  unfold wrapTo; omega

/-- The sign bit of a pattern is set from the middle of the range upward. -/
theorem testBit_sign (ty : Ty) {x : Nat} (h : x < 2 ^ ty.width) : x.testBit (ty.width - 1) = decide (2 ^ (ty.width - 1) ≤ x) := by
  have hpos := Nat.two_pow_pos (ty.width - 1)
  have hlt : x / 2 ^ (ty.width - 1) < 2 := Nat.div_lt_of_lt_mul (by rw [Nat.mul_comm, ← two_pow_width ty]; exact h)
  rw [Nat.testBit_eq_decide_div_mod_eq, decide_eq_decide, Nat.mod_eq_of_lt hlt, ← Nat.one_le_div_iff hpos]
  omega

/-- An integer in the range of a type is the value of its low bits. -/
theorem tyInt_wrapTo {ty : Ty} {i : Int} (hlo : tyLo ty ≤ i) (hhi : i ≤ tyHi ty) : tyInt ty (wrapTo ty.width i) = i := by
  have hlt := wrapTo_lt ty.width i
  have hdouble := two_pow_width ty
  rw [tyInt, testBit_sign ty hlt, Nat.mod_eq_of_lt hlt]
  unfold tyLo at hlo
  unfold tyHi at hhi
  unfold wrapTo
  generalize 2 ^ ty.width = full at *
  generalize 2 ^ (ty.width - 1) = half at *
  cases hs : ty.signed
  · simp only [hs, Bool.false_eq_true, if_false, Bool.false_and] at hlo hhi ⊢
    rw [Int.emod_eq_of_lt hlo (by omega), Int.toNat_of_nonneg hlo]
  · simp only [hs, if_true, Bool.true_and, decide_eq_true_eq] at hlo hhi ⊢
    by_cases hneg : i < 0
    · rw [← Int.add_emod_right, Int.emod_eq_of_lt (by omega) (by omega)]
      split <;> omega
    · rw [Int.emod_eq_of_lt (by omega) (by omega)]
      split <;> omega

theorem tyLo_le_tyHi (ty : Ty) : tyLo ty ≤ tyHi ty := by
  have := Nat.two_pow_pos (ty.width - 1)
  have := two_pow_width ty
  unfold tyLo tyHi
  split <;> omega

/-- A clamped integer lies in the range of its type. -/
theorem clampTo_mem (ty : Ty) (i : Int) : tyLo ty ≤ clampTo ty i ∧ clampTo ty i ≤ tyHi ty := by
  have := tyLo_le_tyHi ty
  unfold clampTo
  split
  · omega
  · split <;> omega

/-- The integer under saturation is the value clamped to the range of the type (spec/04 R86). -/
theorem tyInt_intTo_sat (ty : Ty) (i : Int) : tyInt ty (intTo ty .sat i) = clampTo ty i :=
  tyInt_wrapTo (clampTo_mem ty i).1 (clampTo_mem ty i).2

/-! Conversions (spec/04 R88, R91). -/

/-- A NaN narrowed to another float is the canonical one, and a signalling one sets NV. -/
theorem convert_f32_nan {dst : Ty} (hd : dst = .e4m3 ∨ dst = .fp16 ∨ dst = .bf16) (rnd : Rnd) (sm : Sat) {x : Nat}
    (h : (Fmt.f32.num (x % 2 ^ 32)).isNan = true) :
    convert dst .f32 rnd sm x = ⟨(Fmt.ofTy dst).nan, if (Fmt.f32.num (x % 2 ^ 32)).isSig then flNV else 0⟩ := by
  have hc : convert dst .f32 rnd sm x = (Fmt.f32.num (x % 2 ^ 32)).to (Fmt.ofTy dst) rnd sm := by
    rcases hd with rfl | rfl | rfl <;> rfl
  rw [hc]
  cases hn : Fmt.f32.num (x % 2 ^ 32) with
  | nan sig => rfl
  | _ => rw [hn] at h; cases h

/-- Settles O19: the range of each integer type, and the table of conversion boundaries row by row. -/
theorem narrowingAndConversion : Obligations.NarrowingAndConversion := by
  unfold Obligations.NarrowingAndConversion
  refine ⟨fun ty i _ => ⟨rfl, fun hlo hhi => ⟨tyInt_wrapTo hlo hhi, ?_⟩, fun h => ?_, fun h => ?_⟩, by decide +kernel, by decide +kernel,
    by decide +kernel, by decide +kernel, by decide +kernel, by decide +kernel, by decide +kernel, by decide +kernel,
    by decide +kernel, by decide +kernel, by decide +kernel, by decide +kernel, by decide +kernel, by decide +kernel,
    by decide +kernel, by decide +kernel, by decide +kernel, by decide +kernel, by decide +kernel, by decide +kernel,
    fun x rnd sm h => ⟨?_, ?_, ?_⟩⟩
  · rw [tyInt_intTo_sat, clampTo, if_neg (by omega), if_neg (by omega)]
  · rw [tyInt_intTo_sat, clampTo, if_pos h]
  · have := tyLo_le_tyHi ty
    rw [tyInt_intTo_sat, clampTo, if_neg (by omega), if_pos h]
  · exact convert_f32_nan (.inl rfl) rnd sm h
  · exact convert_f32_nan (.inr (.inl rfl)) rnd sm h
  · exact convert_f32_nan (.inr (.inr rfl)) rnd sm h

/-! Traps on arithmetic (spec/04 R90). -/

/-- Some lane has an enabled flag where all lanes together have one: the other direction of `orAll_and`. -/
theorem exists_hit {l : List (Nat × Flags)} {en : Flags} (h : State.orAll l &&& en ≠ 0) : ∃ x ∈ l, x.2 &&& en ≠ 0 := by
  refine Classical.byContradiction fun hnone => ?_
  have hno : ∀ x ∈ l, x.2 &&& en = 0 := fun x hx => Classical.byContradiction fun hen => hnone ⟨x, hx, hen⟩
  suffices H : ∀ (l : List (Nat × Flags)) (a : Flags), (∀ x ∈ l, x.2 &&& en = 0) →
      l.foldl (fun a x => a ||| x.2) a &&& en = a &&& en from h ((H l 0 hno).trans BitVec.zero_and)
  intro l
  induction l with
  | nil => exact fun _ _ => rfl
  | cons x l ih =>
    intro a hx
    rw [List.foldl_cons, ih _ fun y hy => hx y (List.mem_cons_of_mem x hy), BitVec.and_comm, BitVec.and_or_distrib_left,
      BitVec.and_comm en x.2, hx x List.mem_cons_self, BitVec.and_comm]
    exact BitVec.or_zero

/-- A running minimum of lanes is below its start and each lane, and is one of them. -/
theorem foldl_min_lane (l : List (Nat × Flags)) (n : Nat) :
    let least := l.foldl (fun a y => Min.min a y.1) n
    least ≤ n ∧ (∀ y ∈ l, least ≤ y.1) ∧ (least = n ∨ ∃ x ∈ l, least = x.1) := by
  induction l generalizing n with
  | nil => simp
  | cons z l ih =>
    obtain ⟨hstart, hall, hone⟩ := ih (Min.min n z.1)
    simp only [List.foldl_cons, List.forall_mem_cons]
    refine ⟨by omega, ⟨by omega, hall⟩, ?_⟩
    rcases hone with e | ⟨x, hx, e⟩
    · by_cases hz : n ≤ z.1
      · exact .inl (e.trans (Nat.min_eq_left hz))
      · exact .inr ⟨z, List.mem_cons_self, e.trans (Nat.min_eq_right (Nat.le_of_not_le hz))⟩
    · exact .inr ⟨x, List.mem_cons_of_mem z hx, e⟩

/-- The lanes whose flags are enabled. -/
theorem mem_hits {s : State} {l : List (Nat × Flags)} {x : Nat × Flags} :
    x ∈ l.filter (fun x => x.2 &&& s.enabled != 0) ↔ x ∈ l ∧ x.2 &&& s.enabled ≠ 0 := by
  rw [List.mem_filter, bne_iff_ne]

/-- The lowest lane with an enabled flag. -/
theorem lowest_hit {s : State} {l : List (Nat × Flags)} (h : State.orAll l &&& s.enabled ≠ 0) (hn : ∀ x ∈ l, x.1 < 256) :
    ∃ x ∈ l, (l.filter (fun x => x.2 &&& s.enabled != 0)).foldl (fun a y => Min.min a y.1) 255 = x.1 ∧ x.2 &&& s.enabled ≠ 0 ∧
      ∀ y ∈ l, y.2 &&& s.enabled ≠ 0 → x.1 ≤ y.1 := by
  obtain ⟨hstart, hall, hone⟩ := foldl_min_lane (l.filter (fun x => x.2 &&& s.enabled != 0)) 255
  have hhit : ∃ x ∈ l.filter (fun x => x.2 &&& s.enabled != 0),
      (l.filter (fun x => x.2 &&& s.enabled != 0)).foldl (fun a y => Min.min a y.1) 255 = x.1 := by
    rcases hone with e | e
    · obtain ⟨x, hx, hen⟩ := exists_hit h
      have := hall x (mem_hits.mpr ⟨hx, hen⟩)
      exact ⟨x, mem_hits.mpr ⟨hx, hen⟩, by have := hn x hx; omega⟩
    · exact e
  obtain ⟨x, hx, e⟩ := hhit
  obtain ⟨hmem, hen⟩ := mem_hits.mp hx
  exact ⟨x, hmem, e, hen, fun y hy hye => e ▸ hall y (mem_hits.mpr ⟨hy, hye⟩)⟩

/-- The fault of a list of flags of which one is enabled. -/
def fpTrap (s : State) (l : List (Nat × Flags)) : TrapInfo :=
  { s.faultOf (if (State.orAll l &&& s.enabled).getLsbD 4 then Cause.divz
      else if (State.orAll l &&& s.enabled) &&& 3 != 0 then Cause.ovf else Cause.inv) with
    lane := BitVec.ofNat 8 ((l.filter (fun x => x.2 &&& s.enabled != 0)).foldl (fun a x => Min.min a x.1) 255)
    fl := (State.orAll l).setWidth 8 }

/-- What `fpDone` does where a flag is enabled: nothing but the trap. -/
theorem fpDone_trap {s : State} {l : List (Nat × Flags)} (f : State → State) (h : State.orAll l &&& s.enabled ≠ 0) :
    s.fpDone l f = .trap (fpTrap s l) := by
  obtain ⟨x, hx, hen⟩ := exists_hit h
  have hmem := (mem_hits (s := s)).mpr ⟨hx, hen⟩
  have hf : s.fpFault l = some (fpTrap s l) := by
    unfold State.fpFault fpTrap
    dsimp only
    split
    · next hnil => rw [hnil] at hmem; exact absurd hmem List.not_mem_nil
    · rfl
  rw [State.fpDone, hf]

/-- OVF is for an overflow or an underflow. -/
theorem and_three_ne_zero (fl : Flags) : (fl &&& 3 != 0) = (fl.getLsbD 0 || fl.getLsbD 1) := by
  revert fl; decide

/-- The flags of a scalar result. -/
@[simp] theorem orAll_singleton (i : Nat) (fl : Flags) : State.orAll [(i, fl)] = fl := BitVec.zero_or

/-- Settles O21: the fault of `fpDone`, and FADD, which ends by it. -/
theorem enabledExceptionTraps : Obligations.EnabledExceptionTraps := by
  unfold Obligations.EnabledExceptionTraps
  constructor
  · intro s l f h
    refine ⟨fpTrap s l, fpDone_trap f h, rfl, rfl, rfl, ?_, fun hn => ?_⟩
    · simp only [fpTrap, State.faultOf, and_three_ne_zero]
    · obtain ⟨x, hx, hlane, hen, hleast⟩ := lowest_hit h hn
      exact ⟨x, hx, congrArg (BitVec.ofNat 8) hlane, hen, hleast⟩
  · intro s p ty d a b sm rnd _ hr r hfl
    have htrap := fpDone_trap (s := s) (l := [(0, r.fl)]) (fun st => st.wrS d (BitVec.ofNat 64 r.v)) (by rwa [orAll_singleton])
    refine ⟨fpTrap s [(0, r.fl)], (State.perform_ready _ hr).trans ?_, congrArg (BitVec.setWidth 8) (orAll_singleton 0 r.fl)⟩
    exact congrArg (fun act => Host.Outcome.next (s.finish act)) htrap

/-! Reductions and the scan (spec/12 R257 to R259). -/

/-- A vector instruction that pops its sources and writes one result, without a flag. -/
theorem givesV_ok {s : State} {p : Pred} {srcs : List VSrc} {d : VDst} (v : Vec) (scale : BitVec 16)
    (hr : Ready s p [] (State.regsOf srcs)) (hc : ChansReady s srcs (some d)) :
    GivesV s (s.performV p [] srcs [] (some d) (.ok ((s.popAll srcs).put d v scale))) srcs d v scale 0 :=
  performV_ready _ (by rwa [List.append_nil]) hc

/-- The same with flags by lane, none of which is enabled. -/
theorem givesV_fpDone {s : State} {p : Pred} {srcs : List VSrc} {d : VDst} {l : List (Nat × Flags)} (v : Vec) (scale : BitVec 16)
    (hr : Ready s p [] (State.regsOf srcs)) (hc : ChansReady s srcs (some d)) (hn : NoTrap s (State.orAll l)) :
    GivesV s (s.performV p [] srcs [] (some d) (s.fpDone l (fun st => (st.popAll srcs).put d v scale))) srcs d v scale (State.orAll l) := by
  rw [fpDone_ok _ hn]
  exact performV_ready _ (by rwa [List.append_nil]) hc

/-- Lanes of FP16 and BF16 are widened to F32 before a sum. -/
theorem vsum_wide (ty : Ty) : (fun x => if ty == .f32 then x else (convert .f32 ty .rne .none x).v) =
    fun x => if ty = .f32 then x else (convert .f32 ty .rne .none x).v := by
  funext x; simp only [beq_iff_eq]

/-- Settles O28: each reduction and the scan end as the two lemmas above say, with the values of the tree and of the running sum. -/
theorem reductionAndScanResults : Obligations.ReductionAndScanResults := by
  unfold Obligations.ReductionAndScanResults
  intro s p ty d a b mk sm rnd
  refine ⟨fun hr hc => ⟨fun hi => ?_, fun hi hn => ?_, fun hn => givesV_fpDone _ 0 hr hc hn, fun hn => givesV_fpDone _ 0 hr hc hn,
    fun excl hn => givesV_fpDone _ 0 hr hc hn⟩, fun hr hc => ⟨fun hi => ?_, fun hi hn => ?_⟩⟩
  · show GivesV s (execVsum p ty d a mk sm rnd s) _ _ _ _ _
    rw [execVsum, if_pos hi]
    exact givesV_ok _ 0 hr hc
  · show GivesV s (execVsum p ty d a mk sm rnd s) _ _ _ _ _
    rw [execVsum, if_neg (by rw [hi]; exact Bool.false_ne_true), vsum_wide]
    exact givesV_fpDone _ 0 hr hc hn
  · show GivesV s (execVdot p ty d a b mk sm rnd s) _ _ _ _ _
    rw [execVdot, if_pos hi]
    exact givesV_ok _ 0 hr hc
  · show GivesV s (execVdot p ty d a b mk sm rnd s) _ _ _ _ _
    rw [execVdot, if_neg (by rw [hi]; exact Bool.false_ne_true)]
    exact givesV_fpDone _ 0 hr hc hn

/-! What wakes a parked continuation (spec/02 R52). -/

theorem lget?_map_val {α : Type} (g : Nat → α → α) (m : SMap α) (k : Nat) :
    lget? (m.map (fun e => (e.1, g e.1 e.2))) k = (lget? m k).map (g k) := by
  induction m with
  | nil => rfl
  | cons e m ih =>
    obtain ⟨j, v⟩ := e
    simp only [List.map_cons, lget?, ih]
    split
    · next h => subst h; rfl
    · rfl

/-- What `wakeUp` makes of a frame. -/
def wakenFrame (s : State) (k : Nat) (f : Frame) : Frame := if f.cont = .parked && s.waitMet k then s.woken k f else f

theorem frame_wakeUp (s : State) (k : Nat) : s.wakeUp.frame k = wakenFrame s k (s.frame k) := by
  have hmap : s.wakeUp.frames = s.frames.map (fun e => (e.1, wakenFrame s e.1 e.2)) := by
    refine List.map_congr_left fun e _ => ?_
    unfold wakenFrame; dsimp only; split <;> rfl
  simp only [State.frame, lget, hmap, lget?_map_val]
  cases lget? s.frames k with
  | none => rfl
  | some f => rfl

/-- `wakeUp` makes parked continuations runnable and does nothing else. -/
theorem woken_wakeUp (s : State) : Woken s s.wakeUp := by
  refine ⟨rfl, fun k => ?_⟩
  rw [frame_wakeUp, wakenFrame]
  split
  · next h =>
    obtain ⟨hparked, -⟩ : (s.frame k).cont = .parked ∧ s.waitMet k = true := by simpa using h
    exact .inr ⟨hparked, rfl⟩
  · exact .inl rfl

/-! The accumulators (spec/10 R209). -/

/-- A table with the entries of a block of keys set. -/
theorem lget_foldl_lset {α : Type} (d : α) (b n : Nat) (v : Nat → α) (m : SMap α) (k : Nat) :
    lget d ((List.range n).foldl (fun a x => lset a (b + x) (v x)) m) k = if b ≤ k ∧ k < b + n then v (k - b) else lget d m k := by
  induction n with
  | zero => rw [if_neg (by omega)]; rfl
  | succ n ih =>
    rw [List.range_succ, List.foldl_append, List.foldl_cons, List.foldl_nil, lget_lset, ih]
    by_cases h : k = b + n
    · subst h; simp
    · rw [if_neg h]; congr 1; simp; omega

/-! The completion of a queued product (spec/13 R269, spec/04 R96). -/

/-- The accumulators after a product: each element of its own is the sum of its mode. -/
def mmatAcc (s : State) (T : Nat) (m : Mmat) : SMap (BitVec 32) :=
  (List.range 1024).foldl (fun a x => lset a (m.acc * 1024 + x) (s.mmatElem T m (x / 32) (x % 32))) (s.tile T).acc

/-- The machine in which the oldest product of a tile has left the queue and stands in its accumulator. -/
def mmatDone (s : State) (T : Nat) (m : Mmat) (rest : List Mmat) : State :=
  let s1 := s.setTile T { s.tile T with mmats := rest }
  s1.setTile T { s1.tile T with acc := mmatAcc s T m }

theorem tile_mmatDone_same (s : State) (T : Nat) (m : Mmat) (rest : List Mmat) :
    (mmatDone s T m rest).tile T = { s.tile T with mmats := rest, acc := mmatAcc s T m } := by
  simp [mmatDone]

theorem tile_mmatDone_other (s : State) {T k : Nat} (m : Mmat) (rest : List Mmat) (h : k ≠ T) :
    (mmatDone s T m rest).tile k = s.tile k := by
  rw [mmatDone, State.tile_setTile_other _ _ h, State.tile_setTile_other _ _ h]

/-- Every element of the product's accumulator is the sum of its mode, and no other accumulator changes. -/
theorem accEl_mmatDone (s : State) (T : Nat) (m : Mmat) (rest : List Mmat) (a : Nat) {i j : Nat} (hi : i < 32) (hj : j < 32) :
    (mmatDone s T m rest).accEl T a i j = if a = m.acc then s.mmatElem T m i j else s.accEl T a i j := by
  rw [State.accEl, tile_mmatDone_same, mmatAcc, lget_foldl_lset]
  by_cases h : a = m.acc
  · rw [if_pos h, h, if_pos (by omega), show m.acc * 1024 + 32 * i + j - m.acc * 1024 = 32 * i + j by omega,
      show (32 * i + j) / 32 = i by omega, show (32 * i + j) % 32 = j by omega]
  · rw [if_neg h, if_neg (by omega)]; rfl

/-- Without an uncorrectable byte in its panels the oldest product completes. -/
theorem exec_mmatComplete {s : State} {T : Nat} {m : Mmat} {rest : List Mmat} (hq : (s.tile T).mmats = m :: rest)
    (hu : s.mmatUce T m = false) : exec (.mmatComplete T) s = .next (mmatDone s T m rest).wakeUp := by
  show execMmatComplete T s = _
  simp only [execMmatComplete, hq, hu, Bool.false_eq_true, if_false]
  rfl

/-- An element of a panel in the data half is read where it stands. -/
theorem panelEl_data (s : State) (T : Nat) {off : Nat} (w i : Nat) (h : 0x40000 ≤ off) : s.panelEl T off w i = s.tread T (off + i * w) w := by
  have hout : decide (off + i * w < Config.dataHalf) = false := by
    rw [decide_eq_false_iff_not, Config.dataHalf]; omega
  rw [State.panelEl, State.tsRead, hout]; rfl

/-- A list is its one group of its own length. -/
theorem chunks_length {α : Type} {l : List α} {n : Nat} (hl : l.length = n) (hn : 0 < n) : chunks n l.length l = [l] := by
  have hnil : ∀ n k, chunks n k ([] : List α) = [] := by intro n k; cases k <;> rfl
  subst hl
  cases l with
  | nil => exact absurd hn (Nat.lt_irrefl 0)
  | cons x l => rw [List.length_cons, chunks, ← List.length_cons, List.take_length, List.drop_length, hnil]; rfl

/-- The sum order of I8 is exact: the accumulator and the products in one sum. -/
theorem sumOrder_i8 (acc : BitVec 32) (l : List Nat) (a b : Nat → Nat) : sumOrder .i8 acc (l.map a) [] (l.map b) [] =
    BitVec.ofInt 32 (acc.toInt + (l.map (fun k => tyInt .i8 (a k) * tyInt .i8 (b k))).sum) := by
  have hsum : ∀ c : Int, l.foldl (fun c k => c + tyInt .i8 (a k) * tyInt .i8 (b k)) c =
      c + (l.map (fun k => tyInt .i8 (a k) * tyInt .i8 (b k))).sum := by
    induction l with
    | nil => simp
    | cons x l ih => intro c; rw [List.foldl_cons, ih, List.map_cons, List.sum_cons, Int.add_assoc]
  rw [sumOrder, List.zip_map', List.foldl_map, hsum]

/-- The sum order of E4M3 on one group of 32: one rounding of the exact sum. -/
theorem sumOrder_e4 (acc : BitVec 32) (a : Nat → Nat) (b : Nat → Machine.Num) :
    sumOrder .e4 acc ((List.range 32).map a) ((List.range 32).map b) [] [] =
      BitVec.ofNat 32 ((accAdd (Fmt.f32.num acc.toNat)
        (exactSum ((List.range 32).map (fun k => ((Fmt.e4m3.num (a k)).mul (b k)).1)))).to .f32 .rne .none).v := by
  rw [sumOrder, List.zip_map', List.map_map, chunks_length (by simp) (by decide)]
  rfl

/-- The sum order of CB2 on one block of 256: the exact sum, its scale, the accumulator. -/
theorem sumOrder_cb2 (acc : BitVec 32) (a : Nat → Nat) (b : Nat → Machine.Num) (scale : Nat) :
    sumOrder .cb2 acc ((List.range 256).map a) ((List.range 256).map b) [] [scale] =
      BitVec.ofNat 32 ((accAdd (Fmt.f32.num acc.toNat)
        (rndF32 ((rndF32 (exactSum ((List.range 256).map (fun k => ((Fmt.e4m3.num (a k)).mul (b k)).1)))).mul
          (Fmt.bf16.num scale)).1)).to .f32 .rne .none).v := by
  rw [sumOrder, List.zip_map', List.map_map, chunks_length (by simp) (by decide)]
  rfl

/-- The sum order of BF16 and FP16: one rounding a product. -/
theorem sumOrder_each {ty : Ty} (ht : ty = .bf16 ∨ ty = .fp16) (cb : Bool) (acc : BitVec 32) (l : List Nat) (a : Nat → Nat)
    (b : Nat → Machine.Num) : sumOrder (mmatMode ty cb) acc (l.map a) (l.map b) [] [] =
      BitVec.ofNat 32 (((l.map (fun k => (((Fmt.ofTy ty).num (a k)).mul (b k)).1)).foldl (fun x y => accAdd x (prodInf y))
        (Fmt.f32.num acc.toNat)).to .f32 .rne .none).v := by
  rcases ht with rfl | rfl
  · rw [mmatMode, sumOrder, List.zip_map', List.foldl_map, List.foldl_map]; rfl
  · rw [mmatMode, sumOrder, List.zip_map', List.foldl_map, List.foldl_map]; rfl

/-- The entry of the codebook is named by the high byte of an index (spec/04 R92). -/
theorem index_high (x : BitVec 16) : x.toNat / 256 = (x.extractLsb' 8 8).toNat := by
  rw [BitVec.extractLsb'_toNat, Nat.shiftRight_eq_div_pow, Nat.mod_eq_of_lt (by omega)]

/-! An element of a product whose panels lie in the data half, mode by mode. -/

section
variable {s : State} {T : Nat} {m : Mmat} (ha : 0x40000 ≤ m.pa) (hb : 0x40000 ≤ m.pb) (i j : Nat)
include ha

include hb in
theorem mmatElem_i8 (ht : m.ty = .i8) : s.mmatElem T m i j = BitVec.ofInt 32 ((s.accEl T m.acc i j).toInt +
    ((List.range 32).map (fun k => tyInt .i8 (s.tread T (m.pa + (32 * i + k) * 1) 1) * tyInt .i8 (s.tread T (m.pb + (32 * k + j) * 1) 1))).sum) := by
  rw [State.mmatElem, ht]
  simp only [panelEl_data s T _ _ ha, panelEl_data s T _ _ hb]
  exact sumOrder_i8 _ _ _ _

include hb in
theorem mmatElem_e4 (ht : m.ty = .e4m3) (hc : m.cb = false) : s.mmatElem T m i j =
    BitVec.ofNat 32 ((accAdd (Fmt.f32.num (s.accEl T m.acc i j).toNat) (exactSum ((List.range 32).map (fun k =>
      ((Fmt.e4m3.num (s.tread T (m.pa + (32 * i + k) * 1) 1)).mul (Fmt.e4m3.num (s.tread T (m.pb + (32 * k + j) * 1) 1))).1)))).to
        .f32 .rne .none).v := by
  rw [State.mmatElem, ht, hc]
  simp only [panelEl_data s T _ _ ha, panelEl_data s T _ _ hb]
  exact sumOrder_e4 _ _ _

theorem mmatElem_cb2 (ht : m.ty = .e4m3) (hc : m.cb = true) :
    let idx := fun k => BitVec.ofNat 16 (s.tread T (m.pb + 64 + 2 * (32 * j + k / 8)) 2)
    let weight := fun k => cb2 (lget 0 m.book ((idx k).extractLsb' 8 8).toNat) (idx k) (k % 8)
    let sum := exactSum ((List.range 256).map (fun k => ((Fmt.e4m3.num (s.tread T (m.pa + (256 * i + k) * 1) 1)).mul (weight k)).1))
    s.mmatElem T m i j = BitVec.ofNat 32 ((accAdd (Fmt.f32.num (s.accEl T m.acc i j).toNat)
      (rndF32 ((rndF32 sum).mul (Fmt.bf16.num (s.tread T (m.pb + 2 * j) 2))).1)).to .f32 .rne .none).v := by
  intro idx weight sum
  rw [State.mmatElem, ht, hc]
  simp only [panelEl_data s T _ _ ha, index_high, Nat.mul_comm j 32]
  exact sumOrder_cb2 _ _ weight _

include hb in
theorem mmatElem_each {ty : Ty} (h : ty = .bf16 ∨ ty = .fp16) (ht : m.ty = ty) : s.mmatElem T m i j =
    BitVec.ofNat 32 (((((List.range 32).map (fun k => (((Fmt.ofTy ty).num (s.tread T (m.pa + (32 * i + k) * 2) 2)).mul
      ((Fmt.ofTy ty).num (s.tread T (m.pb + (32 * k + j) * 2) 2))).1))).foldl (fun x y => accAdd x (prodInf y))
        (Fmt.f32.num (s.accEl T m.acc i j).toNat)).to .f32 .rne .none).v := by
  rw [State.mmatElem, ht, ← sumOrder_each h m.cb]
  simp only [panelEl_data s T _ _ ha, panelEl_data s T _ _ hb]
  rcases h with rfl | rfl <;> rfl

end

/-- Settles O31: the state after the completion, its accumulators, and each mode's sum. -/
theorem matrixProductCompletes : Obligations.MatrixProductCompletes := by
  unfold Obligations.MatrixProductCompletes
  intro s T m rest hq hu ha hb
  refine ⟨mmatDone s T m rest, _, exec_mmatComplete hq hu, woken_wakeUp _, rfl, fun k hk => tile_mmatDone_other s m rest hk, ?_,
    fun a i j hne hi hj => ?_, fun i j hi hj => ?_⟩
  · rw [tile_mmatDone_same]
  · rw [accEl_mmatDone s T m rest a hi hj, if_neg hne]
  · rw [accEl_mmatDone s T m rest m.acc hi hj, if_pos rfl]
    exact ⟨mmatElem_i8 ha hb i j, mmatElem_e4 ha hb i j, mmatElem_each ha hb i j (.inl rfl),
      mmatElem_each ha hb i j (.inr rfl), mmatElem_cb2 ha i j⟩

end Sys2Proof.NumberFormats
end

section
/-!
PROOFS. Memory model (spec/05): a chain access on its way through the replay buffer of its region.
-/

namespace Sys2Proof.MemoryModel
open Machine

/-! Chains and their replay buffer (spec/05 R104, R106). -/

/-- The chain of an access after a change to it that keeps its colour, wave and subgraph. -/
theorem chainOf_onChain {s : State} {a : Access} {c : Chain} {f : Chain → Chain} (h : s.chainOf a = some c)
    (hf : ∀ c, (f c).col = c.col ∧ (f c).wave = c.wave ∧ (f c).sub = c.sub) : (s.onChain a f).chainOf a = some (f c) := by
  have hkey : ((fun c => c.col == a.col && c.wave == a.wave && c.sub == a.sub) ∘
      fun c => if c.col == a.col && c.wave == a.wave && c.sub == a.sub then f c else c) =
      fun c : Chain => c.col == a.col && c.wave == a.wave && c.sub == a.sub := by
    funext c
    obtain ⟨hcol, hwave, hsub⟩ := hf c
    simp only [Function.comp_apply, apply_ite, hcol, hwave, hsub, ite_self]
  have hc := List.find?_some h
  rw [State.chainOf] at h
  rw [State.chainOf, State.onChain, State.region_setRegion_same, List.find?_map, hkey, h, Option.map_some, if_pos hc]

theorem arrived_eq_any {s : State} {a : Access} {c : Chain} (h : s.chainOf a = some c) :
    s.arrived a = c.items.any (fun i => i.acc == a.id) := by
  simp only [State.arrived, h]

theorem not_arrived_of_no_chain {s : State} {a : Access} (h : s.chainOf a = none) : s.arrived a = false := by
  simp only [State.arrived, h]

theorem not_arrived_of_no_item {s : State} {a : Access} {c : Chain} (h : s.chainOf a = some c) (hi : ∀ i ∈ c.items, i.acc ≠ a.id) :
    s.arrived a = false := by
  simpa only [arrived_eq_any h, List.any_eq_false, beq_iff_eq] using hi

/-- An earlier chain access of the same activation that has not reached the buffer yet goes first (spec/05 R104). -/
def heldBack (s : State) (a : Access) : Bool :=
  s.accesses.any (fun b => b.aid == a.aid && b.id < a.id && b.seq != 0 && !b.freed && !s.arrived b)

/-- The buffer has a free entry (spec/05 R106). -/
def HasRoom (s : State) (a : Access) : Prop := s.chainUsed a.region < 256 * (s.region a.region).cores.length

theorem HasRoom.not_full {s : State} {a : Access} (h : HasRoom s a) :
    ¬ Config.replayPerCore * (s.region a.region).cores.length ≤ s.chainUsed a.region := Nat.not_le_of_gt h

/-! What the arrival of an access does: to no chain, to an open one and to a closed one. -/

section
variable {s : State} {a : Access} (hb : heldBack s a = false)
include hb

theorem chainArrive_new (h : s.chainOf a = none) (hroom : HasRoom s a) : s.chainArrive a = s.setRegion a.region { s.region a.region with
    chains := (s.region a.region).chains ++ [{ col := a.col, wave := a.wave, sub := a.sub,
                                               items := [{ seq := a.seq, sd := a.sd, acc := a.id }] }] } := by
  rw [heldBack] at hb
  simp only [State.chainArrive, not_arrived_of_no_chain h, hb, h, if_neg hroom.not_full, Bool.false_eq_true, if_false]

variable {c : Chain} (h : s.chainOf a = some c) (hi : ∀ i ∈ c.items, i.acc ≠ a.id)
include h hi

theorem chainArrive_open (hc : c.closed = false) (hroom : HasRoom s a) :
    s.chainArrive a = s.onChain a (fun c => { c with items := c.items ++ [{ seq := a.seq, sd := a.sd, acc := a.id }] }) := by
  rw [heldBack] at hb
  simp only [State.chainArrive, not_arrived_of_no_item h hi, hb, h, hc, if_neg hroom.not_full, Bool.false_eq_true, if_false]

theorem chainArrive_closed (hc : c.closed = true) : s.chainArrive a =
    { s.setRegion a.region { s.region a.region with linklate := min (2 ^ 32 - 1) ((s.region a.region).linklate + 1) } with
      accesses := s.accesses.map (fun b =>
        if b.id == a.id then { b with seq := if b.kind = .sync then b.seq else 0, freed := true } else b) } := by
  rw [heldBack] at hb
  simp only [State.chainArrive, not_arrived_of_no_item h hi, hb, h, hc, Bool.false_eq_true, if_false, if_true, beq_iff_eq]

end

/-! The predecessors of an access (spec/05 R105). -/

/-- The access that its own PD names, and those whose SD names it. -/
theorem mem_predsOf {items : List ChainItem} {m pd n : Nat} (hm : m ≠ 0) (hpd : pd = 2 → 2 ≤ m) : n ∈ State.predsOf items m pd ↔
    (pd = 1 ∧ n + 1 = m) ∨ (pd = 2 ∧ n + 2 = m) ∨ ∃ i ∈ items, i.seq = n ∧ ((i.sd = 1 ∧ n + 1 = m) ∨ (i.sd = 2 ∧ n + 2 = m)) := by
  have hown : n ∈ (if pd == 1 then [m - 1] else if pd == 2 then [m - 2] else []) ↔ (pd = 1 ∧ n + 1 = m) ∨ (pd = 2 ∧ n + 2 = m) := by
    simp only [beq_iff_eq]
    by_cases h1 : pd = 1
    · rw [if_pos h1, List.mem_singleton]
      omega
    · rw [if_neg h1]
      by_cases h2 : pd = 2
      · have := hpd h2
        rw [if_pos h2, List.mem_singleton]
        omega
      · rw [if_neg h2]
        simp only [List.not_mem_nil, h1, h2, false_and, or_self]
  have hnamed : n ∈ (items.filter (fun x => (x.sd == 1 && x.seq + 1 == m) || (x.sd == 2 && x.seq + 2 == m))).map (·.seq) ↔
      ∃ i ∈ items, i.seq = n ∧ ((i.sd = 1 ∧ n + 1 = m) ∨ (i.sd = 2 ∧ n + 2 = m)) := by
    simp only [List.mem_map, List.mem_filter, Bool.or_eq_true, Bool.and_eq_true, beq_iff_eq]
    constructor
    · rintro ⟨i, ⟨hi, hsd⟩, rfl⟩
      exact ⟨i, hi, rfl, hsd⟩
    · rintro ⟨i, hi, rfl, hsd⟩
      exact ⟨i, ⟨hi, hsd⟩, rfl⟩
  rw [State.predsOf, List.mem_append, hown, hnamed, or_assoc]

/-- A predecessor has arrived and every access of its number has been performed. -/
def PredDone (others : List ChainItem) (n : Nat) : Prop :=
  (∃ i ∈ others, i.seq = n) ∧ ∀ i ∈ others, i.seq = n → i.performed = true

section
variable {s : State} {a : Access} {c : Chain} {i1 i2 : List ChainItem} {item : ChainItem} (hc : c.items = i1 ++ item :: i2)
  (hitem : item.acc = a.id)
include hitem

theorem not_kept_of_entry : ¬ (item.acc != a.id) = true := fun h => bne_iff_ne.mp h hitem

include hc

theorem any_acc_of_entry : c.items.any (fun i => i.acc == a.id) = true := by
  rw [hc, List.any_eq_true]
  exact ⟨item, List.mem_append_right _ List.mem_cons_self, beq_iff_eq.mpr hitem⟩

variable (hne : ∀ i ∈ i1 ++ i2, i.acc ≠ a.id ∧ i.seq ≠ a.seq)
include hne

theorem filter_other_items : c.items.filter (fun i => i.acc != a.id) = i1 ++ i2 := by
  have hkeep := List.filter_eq_self.mpr fun i hi => bne_iff_ne.mpr (hne i hi).1
  rw [List.filter_append] at hkeep
  rw [hc, List.filter_append, List.filter_cons_of_neg (by exact not_kept_of_entry hitem), hkeep]

/-- The access does not reuse a number. -/
theorem no_earlier_item_of_number : (c.items.takeWhile (fun i => i.acc != a.id)).any (fun i => i.seq == a.seq) = false := by
  have hkeep : ∀ i ∈ i1, (i.acc != a.id) = true := fun i hi => bne_iff_ne.mpr (hne i (List.mem_append_left _ hi)).1
  have hfresh : ∀ i ∈ i1, ¬ (i.seq == a.seq) = true := fun i hi => mt beq_iff_eq.mp (hne i (List.mem_append_left _ hi)).2
  rwa [hc, List.takeWhile_append_of_pos hkeep, List.takeWhile_cons_of_neg (by exact not_kept_of_entry hitem), List.append_nil,
    List.any_eq_false]

theorem predDone_iff (n : Nat) : (c.items.any (fun i => i.acc != a.id && i.seq == n) &&
    c.items.all (fun i => i.acc == a.id || i.seq != n || i.performed)) = true ↔ PredDone (i1 ++ i2) n := by
  have hmem : ∀ i, i ∈ i1 ++ i2 ↔ i ∈ c.items ∧ i.acc ≠ a.id := fun i => by
    rw [← filter_other_items hc hitem hne, List.mem_filter, bne_iff_ne]
  simp only [PredDone, hmem, Bool.and_eq_true, List.any_eq_true, List.all_eq_true, bne_iff_ne, beq_iff_eq, Bool.or_eq_true]
  refine and_congr (exists_congr fun i => and_assoc.symm) (forall_congr' fun i => ?_)
  rw [and_imp, or_assoc, Decidable.or_iff_not_imp_left]
  exact imp_congr_right fun _ => imp_congr_right fun _ => Decidable.imp_iff_not_or.symm

/-- An access that holds an entry, and whose number no other access of its chain has, is ready when all its predecessors are done; with
PD = 0 it waits until some access names it. -/
theorem chainReady_iff (h : s.chainOf a = some c) : s.chainReady a = true ↔
    (a.pd = 0 → ∃ n, n ∈ State.predsOf (i1 ++ i2) a.seq a.pd) ∧ ∀ n ∈ State.predsOf (i1 ++ i2) a.seq a.pd, PredDone (i1 ++ i2) n := by
  have hlinked : (!(a.pd == 0 && (State.predsOf (i1 ++ i2) a.seq a.pd).isEmpty)) = true ↔
      (a.pd = 0 → ∃ n, n ∈ State.predsOf (i1 ++ i2) a.seq a.pd) := by
    rw [Bool.not_eq_true', Bool.and_eq_false_imp, beq_iff_eq]
    refine imp_congr_right fun _ => ?_
    rw [List.isEmpty_eq_false_iff]
    exact ⟨List.exists_mem_of_ne_nil _, fun ⟨_, hn⟩ => List.ne_nil_of_mem hn⟩
  simp only [State.chainReady, h, any_acc_of_entry hc hitem, filter_other_items hc hitem hne, no_earlier_item_of_number hc hitem hne,
    Bool.true_and, Bool.not_false, Bool.true_or, Bool.and_true]
  rw [Bool.and_eq_true, hlinked, List.all_eq_true]
  exact and_congr_right fun _ => forall₂_congr fun n _ => predDone_iff hc hitem hne n

end

/-- CHAIN_ACCESS_RELEASE of an access that is not let go yet. -/
theorem exec_chainAccessRelease {s : State} {k : Nat} {a : Access} (hk : s.accesses[k]? = some a) (hseq : a.seq ≠ 0)
    (hfreed : a.freed = false) (hkind : a.kind ≠ .sync) : exec (.chainAccessRelease k) s = .next (if s.arrived a then
      (if s.chainReady a then { s with accesses := s.accesses.map (fun b => if b.id == a.id then { b with freed := true } else b) } else s)
    else s.chainArrive a) := by
  show execChainAccessRelease k s = _
  simp only [execChainAccessRelease, hk, hfreed, beq_eq_false_iff_ne.mpr hseq, beq_eq_false_iff_ne.mpr hkind, Bool.or_self,
    Bool.false_eq_true, if_false]

/-- Settles O38: the three arrivals, then the release of an access that has arrived, which waits for its predecessors. -/
theorem chainAccessesInOrder : Obligations.ChainAccessesInOrder := by
  unfold Obligations.ChainAccessesInOrder
  intro s k a hk hseq hfreed hkind o first room item onlyRegion
  have release : o = _ := exec_chainAccessRelease hk hseq hfreed hkind
  have arrives : s.arrived a = false → o = .next (s.chainArrive a) := fun h => by
    rwa [h, if_neg Bool.false_ne_true] at release
  refine ⟨fun hno hb hroom => ?_, fun c h hc hi hb hroom => ?_, fun c h hc hi hb => ?_, fun c i1 i2 h hc hne => ?_⟩
  · refine ⟨_, arrives (not_arrived_of_no_chain hno), ?_⟩
    rw [chainArrive_new hb hno hroom]
    exact ⟨⟨rfl, fun r hr => State.region_setRegion_other s _ hr⟩, State.region_setRegion_same s _ _⟩
  · refine ⟨_, arrives (not_arrived_of_no_item h hi), ?_⟩
    rw [chainArrive_open hb h hi hc hroom]
    exact ⟨⟨rfl, fun r hr => State.region_setRegion_other s _ hr⟩, chainOf_onChain h fun _ => ⟨rfl, rfl, rfl⟩⟩
  · refine ⟨_, arrives (not_arrived_of_no_item h hi), ?_⟩
    rw [chainArrive_closed hb h hi hc]
    exact ⟨congrArg Region.linklate (State.region_setRegion_same s _ _), rfl, ⟨fun _ => rfl, fun _ => rfl, fun _ => rfl⟩, rfl⟩
  · intro others named hpd
    have harrived : s.arrived a = true := (arrived_eq_any h).trans (any_acc_of_entry hc rfl)
    have hnamed : ∀ n, n ∈ State.predsOf (i1 ++ i2) a.seq a.pd ↔ named n := fun n => mem_predsOf hseq hpd
    have hready := chainReady_iff hc rfl hne h
    simp only [hnamed] at hready
    rw [if_pos harrived] at release
    refine ⟨fun hlink hdone => ?_, ?_⟩
    · rw [if_pos (hready.mpr ⟨hlink, hdone⟩)] at release
      exact ⟨_, release, rfl⟩
    · rintro ⟨n, hn, hmissing⟩
      have hwaits : ¬ s.chainReady a = true := fun hr => by
        obtain ⟨⟨j, hj, hjn⟩, hperf⟩ := (hready.mp hr).2 n hn
        rcases hmissing with hnone | ⟨i, hi, hin, hunperf⟩
        · exact hnone j hj hjn
        · exact Bool.false_ne_true (hunperf.symm.trans (hperf i hi hin))
      rwa [if_neg hwaits] at release

end Sys2Proof.MemoryModel
end
